-- ==== Sys2Proof/Word.lean ====
section
/-! DEFINITION. The words of the UT2480: what the manual treats as bits, and the numbers that name its objects.

A value is a bit vector here only where the manual wraps it or carries it whole on a link: beats and reference
counts (00_scope, Beat arithmetic), the plan sequence and the profile number (00_scope, Sequence numbers), a
hardware ID, a byte of a frame. Everything else the manual counts is a Nat, and a signed quantity an Int. -/

namespace Sys2Proof

/-- One byte of a frame (R170). -/
abbrev Byte := BitVec 8

/-- A beat number, or a difference of two, modulo 2^32 (00_scope, Beat arithmetic). -/
abbrev Beat := BitVec 32

/-- The 32-bit wrapping count of the Reference Line, in reference units (R8). -/
abbrev RefCount := BitVec 32

/-- A plan sequence, wrapping at 16 bits (R1). -/
abbrev PlanSeq := BitVec 16

/-- A profile number, wrapping at 8 bits (R1). -/
abbrev ProfileNo := BitVec 8

/-- The 48-bit identity a modem sends in its join burst (R20). -/
abbrev HwId := BitVec 48

/-- A station number as a burst names it: the two bytes of the record, whatever they say (R140, R171). -/
abbrev NamedStation := BitVec 16

/-- An upstream channel, 0 … 7 (R1). -/
abbrev ChanNo := Fin 8

/-- A station number, 0 … 8,191 (R20). -/
abbrev StationNo := Fin 8192

/-- A flow number, 0 … 16,383 (R38). -/
abbrev FlowNo := Fin 16384

/-- A priority level of a channel's Active Lists, 7 the highest (R47). -/
abbrev Level := Fin 8

/-- A policy class, 0 … 7 (R47). -/
abbrev ClassNo := Fin 8

/-- One value for each of the eight channels. -/
abbrev PerChannel (α : Type) := Vector α 8

end Sys2Proof
end

