-- ==== Sys2Proof/Syntax.lean ====
section
/-! DEFINITION. The commands of the block: one constructor per row of spec/opcode_table.json.

The table lists the part's steps, each whole and indivisible (95_what_each_step_holds). They are of four sorts:

* what comes from outside: a reset, a reference count, the framer's hold, release and frame end, a burst record,
  a control frame, the end of a frame on the outbound System Link;
* deadlines of a channel (R9): EMIT_TIME, WITHDRAWAL_DEADLINE, EXPIRY;
* the part's own work: the steps of a build, the departures of frames, the records of a READ or a FILL;
* the executions of the control frame at the head of the control queue, one row for each operation (R156).

A row's operands are what distinguishes two occurrences of it. A management operation has no operands here
because management has no other way in than the control queue (chapter 10): the operation's operands, and the TAG
its response carries, are those of the control frame at the head of the queue (R154, R172). -/

namespace Sys2Proof

/-- How the sending side closes a frame (chapter 11). -/
inductive FrameClose where
  | frameEnd
  | frameAbort
deriving DecidableEq, Repr

/-- A frame as a link carries it: its bytes, and how it was closed (chapter 11). -/
structure RawFrame where
  bytes : List Byte
  close : FrameClose
deriving DecidableEq, Repr

/-- The commands. Each docstring gives the row and its rule. -/
inductive Instr where
  /-- POWER_ON_RESET (R168). `hold` is the framer's present indication, which HOLD takes (R126). -/
  | powerOnReset (hold : Bool)
  /-- LINE_RESET (R168). `hold` as for power-on. -/
  | lineReset (hold : Bool)
  /-- REFERENCE_COUNT (R8): the count `r` arrives on the Reference Line. -/
  | referenceCount (r : RefCount)
  /-- EMIT_TIME (R80) of channel `c`. -/
  | emitTime (c : ChanNo)
  /-- WITHDRAWAL_DEADLINE (R130) of channel `c`. -/
  | withdrawalDeadline (c : ChanNo)
  /-- EXPIRY (R148) of the entry of channel `c` whose EXPIRY is the beat reached. -/
  | expiry (c : ChanNo)
  /-- BUILD_BEGIN (R63). -/
  | buildBegin
  /-- PERIODIC_TIMING (R88, R89). -/
  | periodicTiming
  /-- PERIODIC_WALK (R90): one step of the walk. -/
  | periodicWalk
  /-- EXTRA_TURN (R93): one flow owing extras. -/
  | extraTurn
  /-- JOIN_OPENING (R104). -/
  | joinOpening
  /-- POLL_QUEUE_TAKE (R112): one station of the poll queue. -/
  | pollQueueTake
  /-- SWEEP (R113): one record. -/
  | sweep
  /-- REQUEST_OPENING_PLACE (R69): one opening of stage 2. -/
  | requestOpeningPlace
  /-- FLOW_VISIT (R71, R72): one visit of stage 3. -/
  | flowVisit
  /-- CLOSING (R74): the span conversion of stage 4. -/
  | closing
  /-- HOLD_APPEND (R75): one hold. -/
  | holdAppend
  /-- PLAN_DEPARTURE (R128). -/
  | planDeparture
  /-- ADJUST_FRAME_DEPARTURE (R129). -/
  | adjustFrameDeparture
  /-- PLAN_LINK_HOLD (R126). -/
  | planLinkHold
  /-- PLAN_LINK_RELEASE (R126). -/
  | planLinkRelease
  /-- PLAN_LINK_FRAME_END (R126). -/
  | planLinkFrameEnd
  /-- BURST_RECORD (R141): the frame `f` arrives on the Burst Link. -/
  | burstRecord (f : RawFrame)
  /-- CONTROL_FRAME (R154): the frame `f` arrives on the System Link. -/
  | controlFrame (f : RawFrame)
  /-- SYSTEM_LINK_FRAME_END (R153). -/
  | systemLinkFrameEnd
  /-- RESPONSE_DEPARTURE (R155). -/
  | responseDeparture
  /-- NOTICE_DEPARTURE (R167). -/
  | noticeDeparture
  /-- FORWARD_DEPARTURE (R152). -/
  | forwardDeparture
  /-- UNKNOWN_OP (R156): the head frame fails its format check or names no operation. -/
  | unknownOp
  /-- CHANNEL_START (R10). -/
  | channelStart
  /-- CHANNEL_STOP_ORDERLY (R12). -/
  | channelStopOrderly
  /-- CHANNEL_STOP_ABRUPT (R14). -/
  | channelStopAbrupt
  /-- PROFILE_COMMIT (R15). -/
  | profileCommit
  /-- STATION_ADMIT (R31). -/
  | stationAdmit
  /-- STATION_MOVE (R32). -/
  | stationMove
  /-- STATION_RELEASE (R34). -/
  | stationRelease
  /-- FLOW_BIND (R41). -/
  | flowBind
  /-- FLOW_ACTIVATE (R42). -/
  | flowActivate
  /-- FLOW_HOLD (R43). -/
  | flowHold
  /-- FLOW_UNBIND (R44). -/
  | flowUnbind
  /-- PLAN_WRITE (R133). -/
  | planWrite
  /-- PLAN_READY (R134). -/
  | planReady
  /-- PLAN_DISCARD (R135). -/
  | planDiscard
  /-- READ (R159). -/
  | read
  /-- READ_RECORD (R159): a READ of several records reaches one. -/
  | readRecord
  /-- WRITE (R160). -/
  | write
  /-- FILL (R161): the check of a FILL. -/
  | fill
  /-- FILL_RECORD (R161): a FILL reaches one record. -/
  | fillRecord
  /-- COUNTERS (R164). -/
  | counters
  /-- CLEAR (R169). -/
  | clear
deriving DecidableEq, Repr

end Sys2Proof
end

