-- ==== Sys2Proof/Config.lean ====
section
/-! DEFINITION. What the part fixes (its capacities and limits, each from the rule named) and the two values the
manual leaves open. -/

namespace Sys2Proof.Config

/-- Largest BACKLOG and largest AMOUNT of a request, in bytes (R38, R53). -/
def maxBacklog : Nat := 1048575

/-- Largest DEFICIT, in beats (R38, R71). -/
def maxDeficit : Nat := 1023

/-- Cap of the beats elapsed in a bucket update (R54). -/
def maxElapsed : Nat := 16777216

/-- Most elements of a plan, holds included (R66). -/
def maxElements : Nat := 240

/-- Most flows of a station's FLOW LIST (R30). -/
def maxFlowList : Nat := 16

/-- Most flows of one channel's calendar (R84). -/
def maxCalendar : Nat := 1024

/-- Most stations of one channel's poll queue (R108). -/
def maxPollQueue : Nat := 256

/-- Most entries of the adjust queue (R108). -/
def maxAdjustQueue : Nat := 64

/-- Most records one sweep examines (R113). -/
def maxSweep : Nat := 64

/-- Most entries of one channel's Expect Queue (R139). -/
def maxExpectQueue : Nat := 480

/-- Most entries of the stray ring (R150). -/
def maxStrayRing : Nat := 64

/-- Most units of the forward buffer (R152). -/
def maxForward : Nat := 256

/-- Most frames of the control queue (R154). -/
def maxControlQueue : Nat := 16

/-- Most responses of the response queue (R155). -/
def maxResponses : Nat := 32

/-- The number of waiting responses at which INBOUND HOLD becomes yes (R155). -/
def inboundHoldAt : Nat := 30

/-- The value at which a counter, or OVERWRITES, stays (R163, R150). -/
def maxCounter : Nat := 4294967295

/-- The value at which the COUNT of a pending notice stays (R165). -/
def maxNoticeCount : Nat := 65535

/-- The most BODY bytes of a control frame the part stores (R173). -/
def maxControlBody : Nat := 1024

/-- The most BODY bytes an envelope carries (section 11.1). -/
def maxBody : Nat := 4095

/-- The bound of |TIMING TOTAL|, in 1/256 beat (R20, R116). -/
def maxTimingTotal : Int := 65535

/-- The bound of |POWER TOTAL|, in 0.25 dB (R20, R116). -/
def maxPowerTotal : Int := 96

/-- FREE VALUE (assumption 3). How many bytes of a frame had been sent when a reset broke it off: R174 says only
that the partner sees fewer than LENGTH declares. The argument is the draw number (State.freeDraws), so that two
frames broken off are broken off at unrelated points. -/
opaque abortPoint : Nat → Nat

/-- FREE VALUE (assumption 19). Whether a cut in group 4 finds a station taken from the poll queue and not yet offered its
placement: R114 says what becomes of it, and no rule says when a cut finds one. The argument is the draw number
(State.freeDraws). -/
opaque stationInHand : Nat → Bool

end Sys2Proof.Config
end

