-- ==== Sys2Proof/Machine/State.lean ====
section
/-! DEFINITION. The state of the UT2480: every piece the manual names, as plain data, and the state after reset.

The fields stand in the order of the manual's blocks (00_scope, Block overview). A field that is the model's own and
not the manual's says MODEL in its docstring and names its row of notes/assumptions. -/

namespace Sys2Proof.Machine

/-! ## Channel Control (chapter 1) -/

/-- STATE of a channel (R1). -/
inductive ChannelState where
  | stopped | running | draining
deriving DecidableEq, Repr

/-- DRAIN MARK of a channel (R1). -/
inductive DrainMark where
  | none | beforeFinalSwap | afterFinalSwap
deriving DecidableEq, Repr

/-- SOURCE MODE of a page (R3). -/
inductive SourceMode where
  | automatic | directed
deriving DecidableEq, Repr

/-- A burst profile (R5), its fields in the order of the table. -/
structure Profile where
  symbolsPerBeat   : Nat
  bitsPerSymbol    : Nat
  infoBytes        : Nat
  parityBytes      : Nat
  shortenedAllowed : Bool
  preambleSymbols  : Nat
  guardSymbols     : Nat
deriving DecidableEq, Repr

/-- The channel parameters (R3), in the order of the table. -/
structure Params where
  beatLength        : Nat
  planLength        : Nat
  lead              : Nat
  settle            : Nat
  flightMargin      : Nat
  sourceMode        : SourceMode
  quantum           : Nat
  maxBurst          : Nat
  requestLength     : Nat
  joinLength        : Nat
  joinCadence       : Nat
  pollLength        : Nat
  pollLimit         : Nat
  maintenancePeriod : Nat
  missLimit         : Nat
  nmin              : Nat
  nmax              : Nat
  backoffFloor      : Nat
  backoffCeiling    : Nat
  timingTolerance   : Nat
  powerTolerance    : Nat
  maxPowerStep      : Nat
deriving DecidableEq, Repr

/-- A parameter page: the channel parameters and the burst profile (section 1.2). -/
structure Page where
  params  : Params
  profile : Profile
deriving DecidableEq, Repr

/-- The default page (R6). -/
def Page.default : Page where
  params :=
    { beatLength := 64, planLength := 256, lead := 32, settle := 16, flightMargin := 8,
      sourceMode := .automatic, quantum := 4, maxBurst := 255, requestLength := 2, joinLength := 32,
      joinCadence := 0, pollLength := 8, pollLimit := 4, maintenancePeriod := 1048576, missLimit := 8,
      nmin := 4, nmax := 32, backoffFloor := 3, backoffCeiling := 10, timingTolerance := 128,
      powerTolerance := 4, maxPowerStep := 24 }
  profile :=
    { symbolsPerBeat := 64, bitsPerSymbol := 4, infoBytes := 200, parityBytes := 16,
      shortenedAllowed := true, preambleSymbols := 64, guardSymbols := 16 }

/-- A channel context (R1). -/
structure ChannelContext where
  state         : ChannelState
  drainMark     : DrainMark
  epoch         : RefCount
  currentBeat   : Beat
  beatPhase     : Nat
  nextStart     : Beat
  planSequence  : PlanSeq
  profileNumber : ProfileNo
  activePage    : Page
  pendingPage   : Page
  armedProfile  : Option Profile
  /-- MODEL (assumption 6). The beats an accepted reference count has brought and the channel has not yet reached,
  because a deadline of the beat it stands at is still to be acted on (R8: one at a time, no deadline passed over). -/
  beatsToReach  : Nat
deriving DecidableEq, Repr

/-- A channel context after power-on or line reset (R2). -/
def ChannelContext.reset : ChannelContext where
  state := .stopped
  drainMark := .none
  epoch := 0
  currentBeat := 0
  beatPhase := 0
  nextStart := 0
  planSequence := 0
  profileNumber := 0
  activePage := Page.default
  pendingPage := Page.default
  armedProfile := none
  beatsToReach := 0

/-! ## Station Table (chapter 2) -/

/-- A record, indexed by number, of a table that holds a record at every index: the entries that differ from the
table's reset record, by strictly rising index. -/
abbrev Table (α : Type) := List (Nat × α)

/-- STATE of a station (R20, R21). -/
inductive StationState where
  | free | aligning | parked | online | lost
deriving DecidableEq, Repr

/-- POLICY SELECT (R20). -/
inductive PolicySelect where
  | a | b
deriving DecidableEq, Repr

/-- A measurement: timing error in 1/256 beat, power error in 0.25 dB, quality (R115, R140). -/
structure Measurement where
  timing  : Int
  power   : Int
  quality : Nat
deriving DecidableEq, Repr

/-- A station record (R20). NUMBER is the record's index in the table. -/
structure Station where
  state           : StationState
  admitted        : Bool
  hardwareId      : Option HwId
  channel         : ChanNo
  policySelect    : PolicySelect
  flowList        : List FlowNo
  missCount       : Nat
  lastGood        : Option Beat
  timingTotal     : Int
  powerTotal      : Int
  lastMeasurement : Option Measurement
  inPollQueue     : Bool
deriving DecidableEq, Repr

/-- A station record after reset or release (R24). -/
def Station.reset : Station where
  state := .free
  admitted := false
  hardwareId := none
  channel := 0
  policySelect := .a
  flowList := []
  missCount := 0
  lastGood := none
  timingTotal := 0
  powerTotal := 0
  lastMeasurement := none
  inPollQueue := false

/-! ## Flow Table and Active Lists (chapter 3) -/

/-- STATE of a flow (R38, R40). -/
inductive FlowState where
  | idle | held | active
deriving DecidableEq, Repr

/-- KIND of a flow (R38). -/
inductive FlowKind where
  | elastic | periodic
deriving DecidableEq, Repr

/-- A flow record (R38). NUMBER is the record's index in the table. -/
structure Flow where
  state       : FlowState
  station     : Option StationNo
  kind        : FlowKind
  cls         : ClassNo
  rate        : Nat
  depth       : Nat
  credit      : Option Nat
  residue     : Nat
  fillAnchor  : Option Beat
  backlog     : Nat
  deficit     : Nat
  listLevel   : Option Level
  fresh       : Bool
  turnBeats   : Nat
  period      : Nat
  jitter      : Nat
  phase       : Nat
  nextNominal : Option Beat
  extrasOwed  : Nat
deriving DecidableEq, Repr

/-- A flow record after reset (R39). -/
def Flow.reset : Flow where
  state := .idle
  station := none
  kind := .elastic
  cls := 0
  rate := 0
  depth := 65536
  credit := none
  residue := 0
  fillAnchor := none
  backlog := 0
  deficit := 0
  listLevel := none
  fresh := false
  turnBeats := 1
  period := 1024
  jitter := 0
  phase := 0
  nextNominal := none
  extrasOwed := 0

/-- A class record of a policy table (R47). -/
structure PolicyClass where
  priority     : Level
  weight       : Nat
  maxTurn      : Nat
  minTurn      : Nat
  holdsEnabled : Bool
deriving DecidableEq, Repr

/-- A class record after reset (R47). -/
def PolicyClass.reset : PolicyClass where
  priority := 0
  weight := 1
  maxTurn := 1023
  minTurn := 1
  holdsEnabled := false

/-! ## Periodic Calendar (chapter 5) -/

/-- One channel's calendar (R84): WAITING by flow number, TIMED by NEXT NOMINAL and then flow number. -/
structure Calendar where
  waiting : List FlowNo
  timed   : List FlowNo
deriving DecidableEq, Repr

/-! ## Contention Control (chapter 6) -/

/-- An open tally (R95). -/
structure OpenTally where
  planSequence : PlanSeq
  n            : Nat
  outstanding  : Nat
  empty        : Nat
  success      : Nat
  collided     : Nat
deriving DecidableEq, Repr

/-- A finalized tally with its USED mark, as LATEST TALLY holds it (R95). -/
structure LatestTally where
  planSequence : PlanSeq
  n            : Nat
  empty        : Nat
  success      : Nat
  collided     : Nat
  used         : Bool
deriving DecidableEq, Repr

/-- The contention state of one channel (R95). -/
structure Contention where
  target       : Nat
  backoffStart : Nat
  openTallies  : List OpenTally
  latest       : Option LatestTally
deriving DecidableEq, Repr

/-- The contention state after reset (R96). -/
def Contention.reset : Contention where
  target := 0
  backoffStart := 0
  openTallies := []
  latest := none

/-! ## Alignment Unit (chapter 7) -/

/-- An adjust entry (R108). -/
structure AdjustEntry where
  station    : StationNo
  channel    : ChanNo
  timingStep : Int
  powerStep  : Int
  aligned    : Bool
deriving DecidableEq, Repr

/-! ## Plan Builder (chapter 4) -/

/-- A free span of the timeline: `length` beats from `offset` (R65). -/
structure Span where
  offset : Nat
  length : Nat
deriving DecidableEq, Repr

/-- How far the build under way has come: the group or the step of its stage that is taken next (R68 to R75). The
STAGE field of R60 is read from it (BuildPhase.stage). The arguments are MODEL fields (assumption 18): what the
group or the stage has still to do, as the rule that owns it counts it. -/
inductive BuildPhase where
  /-- Stage 1, group 1, not begun: the timing of R88 comes next. -/
  | timing
  /-- Stage 1, group 1: the walk of R90. -/
  | walk
  /-- Stage 1, group 2: the TIMED flows not yet examined (R93). -/
  | extras (left : List FlowNo)
  /-- Stage 1, group 3: a join opening is to be offered (R104). -/
  | join
  /-- Stage 1, group 4: the stations still to be taken from the poll queue, and the stations chosen (R112). -/
  | polls (left : Nat) (chosen : List StationNo)
  /-- Stage 1, group 4: the sweep, the records examined, and the stations chosen (R113). -/
  | sweep (examined : Nat) (chosen : List StationNo)
  /-- Stage 2: the openings still to be placed (R69). -/
  | openings (left : Nat)
  /-- Stage 3 (R70): LEVEL, ROUND REMAINING and ROUND PLACED stand in the context. -/
  | visits
  /-- Stage 4: the span conversion of R74 comes next. -/
  | closing
  /-- Stage 4: the reading for holds has read the first `index` flows of `level` (R75). -/
  | holds (level : Level) (index : Nat)
deriving DecidableEq, Repr

/-- The build context of the engine (R60). -/
structure BuildContext where
  channel         : ChanNo
  start           : Beat
  cadenceSequence : PlanSeq
  freeSpans       : List Span
  level           : Level
  roundRemaining  : Nat
  roundPlaced     : Bool
  phase           : BuildPhase
deriving DecidableEq, Repr

/-- BUILD CONDITION of a channel (R60). -/
inductive BuildCondition where
  | none | queued | underBuild | complete
deriving DecidableEq, Repr

/-- A build request (R61). -/
structure BuildRequest where
  channel  : ChanNo
  emitTime : Beat
deriving DecidableEq, Repr

/-! ## Plan Store and Plan Link (chapter 8) -/

/-- What an element is, with the fields its KIND gives it (R64). A DATA element written by management carries no
CHARGE (R133). -/
inductive ElementBody where
  | data (station : StationNo) (flow : FlowNo) (charge : Option Nat)
  | periodic (station : StationNo) (flow : FlowNo)
  | poll (station : StationNo)
  | join
  | request (openings : Nat)
  | idle
  | hold (station : StationNo) (flow : FlowNo)
deriving DecidableEq, Repr

/-- An element of a plan (R64). -/
structure Element where
  offset : Nat
  length : Nat
  body   : ElementBody
deriving DecidableEq, Repr

/-- A plan record: one half (R122). -/
structure PlanRecord where
  start         : Beat
  planSequence  : Option PlanSeq
  profileNumber : ProfileNo
  requestMark   : Option Beat
  backoffStart  : Nat
  backoffEnd    : Nat
  cut           : Bool
  fallback      : Bool
  idle          : Bool
  elements      : List Element
  ready         : Bool
deriving DecidableEq, Repr

/-- An empty half (R123). -/
def PlanRecord.empty : PlanRecord where
  start := 0
  planSequence := none
  profileNumber := 0
  requestMark := none
  backoffStart := 0
  backoffEnd := 0
  cut := false
  fallback := false
  idle := false
  elements := []
  ready := false

/-- The two halves of a channel by name (R122). -/
inductive HalfName where
  | h0 | h1
deriving DecidableEq, Repr

/-- EMIT CONDITION (R122). -/
inductive EmitCondition where
  | none | awaitingDeparture
deriving DecidableEq, Repr

/-- The Plan Store of one channel (R122). -/
structure PlanStore where
  h0                 : PlanRecord
  h1                 : PlanRecord
  emitHalf           : HalfName
  emitCondition      : EmitCondition
  withdrawalDeadline : Beat
deriving DecidableEq, Repr

/-- The Plan Store of a channel after reset (R123). -/
def PlanStore.reset : PlanStore where
  h0 := PlanRecord.empty
  h1 := PlanRecord.empty
  emitHalf := .h0
  emitCondition := .none
  withdrawalDeadline := 0

/-- An outbound link. SENDING (R126, R153) is yes exactly while `sending` holds the frame the link accepted.
`sent` is MODEL (assumption 8): every frame the part has closed on the link, oldest first, as the partner saw it. -/
structure OutLink where
  sending : Option (List Byte)
  sent    : List RawFrame
deriving DecidableEq, Repr

/-! ## Burst Intake (chapter 9) -/

/-- The mark of a request opening (R98). -/
inductive Mark where
  | unreported | success | collided | empty
deriving DecidableEq, Repr

/-- What an expect entry was made from, with the fields its KIND gives it (R138). OPENINGS of a REQUEST entry is the
number of its MARKS, one per opening. -/
inductive Grant where
  | data (station : StationNo) (flow : FlowNo)
  | periodic (station : StationNo) (flow : FlowNo)
  | poll (station : StationNo)
  | join
  | request (openingLength : Nat) (marks : List Mark) (planSequence : PlanSeq)
deriving DecidableEq, Repr

/-- An expect entry (R138). -/
structure ExpectEntry where
  start  : Beat
  length : Nat
  expiry : Beat
  grant  : Grant
deriving DecidableEq, Repr

/-- OUTCOME of a burst record (R140). -/
inductive BurstOutcome where
  | clean | repaired | collided | damaged | empty
deriving DecidableEq, Repr

/-- CAUSE of a stray ring entry (R150). -/
inductive StrayCause where
  | noEntry | misaligned | reported | misplaced
deriving DecidableEq, Repr

/-- A stray ring entry (R150). STATION NAMED is what the record said (assumption 10). -/
structure StrayEntry where
  channel         : ChanNo
  start           : Beat
  outcome         : BurstOutcome
  stationNamed    : Option NamedStation
  stationExpected : Option StationNo
  cause           : StrayCause
  units           : Nat
deriving DecidableEq, Repr

/-- A unit of the forward buffer: an upstream data unit frame (R152). -/
structure ForwardUnit where
  channel : ChanNo
  start   : Beat
  station : StationNo
  flow    : Option FlowNo
  data    : List Byte
deriving DecidableEq, Repr

/-! ## Management Unit (chapter 10) -/

/-- The response codes, in the order of the table (R157). -/
inductive Code where
  | done | busy | malformed | unknownOp | badTable | badIndex | badField | badValue | state | full | layout
  | tooLate
deriving DecidableEq, Repr

/-- A response awaiting the System Link (R155). -/
structure Response where
  tag       : BitVec 16
  operation : Byte
  code      : Code
  results   : List Byte
deriving DecidableEq, Repr

/-- The nine tables, in the order of the rows (R158, R172). -/
inductive TableId where
  | station | flow | policyA | policyB | channelActive | channelPending | identity | stray | device
deriving DecidableEq, Repr

/-- A READ of several records under way (R156, R159). `ring` is the stray ring as it stood when a READ of STRAY was
taken (R151, assumption 13). -/
structure ReadJob where
  tag       : BitVec 16
  table     : TableId
  next      : Nat
  remaining : Nat
  results   : List Byte
  ring      : List StrayEntry
deriving DecidableEq, Repr

/-- A FILL under way (R161): the fields to write with their values, and what it has done. -/
structure FillJob where
  tag       : BitVec 16
  table     : TableId
  next      : Nat
  remaining : Nat
  writes    : List (Nat × Nat)
  written   : Nat
  skipped   : Nat
deriving DecidableEq, Repr

/-- An execution under way between two of its records (R156). -/
inductive Execution where
  | reading (job : ReadJob)
  | filling (job : FillJob)
deriving DecidableEq, Repr

/-- The counters of a channel's set, in the order COUNTERS returns them (R163). -/
inductive ChannelCounter where
  | requestIgnored | requestMismatch | requestClamp | plansBuilt | planCut | fallback | calendarFull
  | periodicPlaced | periodicMiss | periodicLapsed | extraDeferred | behindIgnored | openingsEmpty
  | openingsSuccess | openingsCollided | talliesFinalized | tallySuperseded | tallyStale | adaptRaise
  | adaptLower | adaptHold | joinOffered | joinDropped | joinTaken | joinEmpty | joinCollided | pollsPlaced
  | pollsDeferred | pollQueueFull | alignSuccess | alignCorrected | alignLimited | misses | stationsLost
  | maintained | maintenanceFlagged | plansSent | plansWithdrawn | chargesRestored | chargesForfeited
  | idlePlans | turnsAnswered | turnsDamaged | noShow | misplaced | stray | unitsDiscarded | joinUnitDiscarded
deriving DecidableEq, Repr

/-- The counters of the device's set, in the order COUNTERS returns them (R163). -/
inductive DeviceCounter where
  | referenceBackstep | adjustsQueued | adjustsMerged | adjustsDropped | adjustFramesSent | forwardDrop
  | unitsForwarded | framesTaken | framesBusy | framesRefused | noticesSent
deriving DecidableEq, Repr

/-- The eleven kinds of notice, from priority 1 to priority 11 (R165). -/
inductive NoticeKind where
  | stationLost | planWithdrawn | planCut | newcomer | stationTableFull | stationOnline | periodicMiss
  | strayBurst | forwardDrop | adjustDrop | channelStopped
deriving DecidableEq, Repr

/-- CAUSE of a PERIODIC MISS notice (R91). -/
inductive PeriodicCause where
  | noRoom | calendarFull
deriving DecidableEq, Repr

/-- MODE of CHANNEL-STOP (section 1.4). -/
inductive StopMode where
  | orderly | abrupt
deriving DecidableEq, Repr

/-- The details of an occurrence, by kind (R165). -/
inductive NoticeDetail where
  | stationLost (station : StationNo) (hardwareId : HwId) (channel : ChanNo)
  | planWithdrawn (channel : ChanNo) (planSequence : PlanSeq) (start : Beat) (restored forfeited : Nat)
  /-- `stage` is the stage reached, or none for FALLBACK. -/
  | planCut (channel : ChanNo) (start : Beat) (stage : Option Nat)
  | newcomer (station : StationNo) (hardwareId : HwId) (channel : ChanNo)
  | stationTableFull (hardwareId : HwId) (channel : ChanNo)
  | stationOnline (station : StationNo) (channel : ChanNo)
  | periodicMiss (cause : PeriodicCause) (channel : ChanNo) (flow : FlowNo) (station : StationNo)
      (nominal : Option Beat)
  | strayBurst (channel : ChanNo) (start : Beat) (outcome : BurstOutcome) (station : Option NamedStation)
      (cause : StrayCause)
  | forwardDrop (channel : ChanNo) (start : Beat) (station : StationNo) (flow : Option FlowNo)
  | adjustDrop (station : StationNo) (channel : ChanNo) (timingStep powerStep : Int) (aligned : Bool)
  | channelStopped (channel : ChanNo) (mode : StopMode)
deriving DecidableEq, Repr

/-- The pending record of a kind (R165). -/
structure PendingNotice where
  detail : NoticeDetail
  count  : Nat
deriving DecidableEq, Repr

/-! ## The whole part -/

/-- The state of the part. -/
structure State where
  /-- The commands that are waiting, first in, first out (assumption 1). -/
  pending           : List Instr
  /-- LAST REFERENCE (R1). -/
  lastReference     : RefCount
  /-- Whether a reference count has arrived since the last power-on or line reset: the first is accepted whatever
  its advance (R8). -/
  referenceSeen     : Bool
  /-- The eight channel contexts (R1). -/
  channels          : PerChannel ChannelContext
  /-- The station records (R20). -/
  stations          : Table Station
  /-- The free list, its head first (R22). -/
  freeList          : List StationNo
  /-- The identity map (R23). -/
  identity          : List (HwId × StationNo)
  /-- The flow records (R38). -/
  flows             : Table Flow
  /-- POLICY-A (R47). -/
  policyA           : Vector PolicyClass 8
  /-- POLICY-B (R47). -/
  policyB           : Vector PolicyClass 8
  /-- REQUEST MARK of each channel (R52). -/
  requestMarks      : PerChannel (Option Beat)
  /-- The active lists: per channel, one list per level, its head first (R56). -/
  activeLists       : PerChannel (Vector (List FlowNo) 8)
  /-- The calendars (R84). -/
  calendars         : PerChannel Calendar
  /-- The contention state (R95). -/
  contention        : PerChannel Contention
  /-- The poll queues (R108). -/
  pollQueues        : PerChannel (List StationNo)
  /-- SWEEP POINTER of each channel (R108). -/
  sweepPointers     : PerChannel StationNo
  /-- The adjust queue (R108). -/
  adjustQueue       : List AdjustEntry
  /-- The engine: none when IDLE, its build context when BUILDING (R60). -/
  engine            : Option BuildContext
  /-- BUILD CONDITION of each channel (R60). -/
  buildConditions   : PerChannel BuildCondition
  /-- The build queue (R61). -/
  buildQueue        : List BuildRequest
  /-- The plan halves (R122). -/
  planStores        : PerChannel PlanStore
  /-- HOLD of the Plan Link (R126). -/
  planLinkHold      : Bool
  /-- SENDING of the Plan Link and what it carries (R126). -/
  planLink          : OutLink
  /-- The Expect Queues (R138). -/
  expectQueues      : PerChannel (List ExpectEntry)
  /-- The stray ring, oldest first (R150). -/
  strayRing         : List StrayEntry
  /-- OVERWRITES (R150). -/
  overwrites        : Nat
  /-- The forward buffer (R152). -/
  forwardBuffer     : List ForwardUnit
  /-- SENDING of the outbound System Link and what it carries (R153). -/
  systemLink        : OutLink
  /-- The control queue: the frames as received (R154, R173). -/
  controlQueue      : List RawFrame
  /-- INBOUND HOLD (R154). -/
  inboundHold       : Bool
  /-- MODEL (assumption 9). Whether the one frame whose transfer had begun when INBOUND HOLD became yes has
  arrived (R155). -/
  heldArrival       : Bool
  /-- The execution under way, if any (R156). -/
  execution         : Option Execution
  /-- The response queue (R155). -/
  responseQueue     : List Response
  /-- The channels' counter sets (R163). -/
  channelCounters   : PerChannel (Vector Nat 48)
  /-- The device's counter set (R163). -/
  deviceCounters    : Vector Nat 11
  /-- NOTICE ENABLE of each kind, by priority (R162). -/
  noticeEnable      : Vector Bool 11
  /-- The pending record of each kind, by priority (R165). -/
  notices           : Vector (Option PendingNotice) 11
  /-- MODEL (assumption 3). How many free values have been drawn. -/
  freeDraws         : Nat
deriving DecidableEq, Repr

/-- The part right after power-on or line reset (R168), no command waiting. HOLD, which takes the framer's present
indication (R126), is no here (assumption 7). -/
def State.reset : State where
  pending := []
  lastReference := 0
  referenceSeen := false
  channels := Vector.replicate 8 ChannelContext.reset
  stations := []
  freeList := List.finRange 8192
  identity := []
  flows := []
  policyA := Vector.replicate 8 PolicyClass.reset
  policyB := Vector.replicate 8 PolicyClass.reset
  requestMarks := Vector.replicate 8 none
  activeLists := Vector.replicate 8 (Vector.replicate 8 [])
  calendars := Vector.replicate 8 ⟨[], []⟩
  contention := Vector.replicate 8 Contention.reset
  pollQueues := Vector.replicate 8 []
  sweepPointers := Vector.replicate 8 0
  adjustQueue := []
  engine := none
  buildConditions := Vector.replicate 8 .none
  buildQueue := []
  planStores := Vector.replicate 8 PlanStore.reset
  planLinkHold := false
  planLink := ⟨none, []⟩
  expectQueues := Vector.replicate 8 []
  strayRing := []
  overwrites := 0
  forwardBuffer := []
  systemLink := ⟨none, []⟩
  controlQueue := []
  inboundHold := false
  heldArrival := false
  execution := none
  responseQueue := []
  channelCounters := Vector.replicate 8 (Vector.replicate 48 0)
  deviceCounters := Vector.replicate 11 0
  noticeEnable := Vector.replicate 11 true
  notices := Vector.replicate 11 none
  freeDraws := 0

/-! ## How a step can stop -/

/-- The faults of the machine: none. The manual gives every command an effect in every state, so no step faults
(NOTES.md, Stops). -/
inductive Fault where
deriving DecidableEq, Repr

/-- The refusals of the machine. -/
inductive Refusal where
  /-- Raised by Dispatch.lean for a command that has no meaning yet; safe. No arm raises it. -/
  | notModelled (mnemonic : String)
deriving DecidableEq, Repr

end Sys2Proof.Machine
end

