-- ==== Sys2Proof/Machine/Ops.lean ====
section
/-! DEFINITION. The named operations over the state: one accessor and one update for each piece of it, the tables
that hold a record at every index, the counters (R163), the pending notices (R165) and the beat arithmetic of the
Conventions (00_scope). -/

namespace Sys2Proof.Machine

/-! ## Beat arithmetic (00_scope) -/

/-- `a` is before `b`: (b − a) mod 2^32 lies in 1 … 2^31 − 1. -/
def before (a b : Beat) : Bool := decide (1 ≤ (b - a).toNat) && decide ((b - a).toNat < 2147483648)

/-- `a` is at or after `b`. -/
def atOrAfter (a b : Beat) : Bool := a == b || before b a

/-- A number of beats as a difference of beats, modulo 2^32. -/
def beats32 (n : Nat) : Beat := BitVec.ofNat 32 n

/-- clamp(x, lo, hi) (00_scope, Numbers). -/
def clampInt (x lo hi : Int) : Int := if x < lo then lo else if hi < x then hi else x

/-- clamp on whole numbers that may pass below 0 (R102): the result is a Nat because lo is. -/
def clampNat (x : Int) (lo hi : Nat) : Nat := (clampInt x lo hi).toNat

/-- ceil(a / b). -/
def ceilDiv (a b : Nat) : Nat := (a + b - 1) / b

/-! ## Collections -/

/-- The item of `v` at `i`. -/
def vget {α : Type} {n : Nat} (v : Vector α n) (i : Fin n) : α := v[i]

/-- `v` with `x` at `i`. -/
def vput {α : Type} {n : Nat} (v : Vector α n) (i : Fin n) (x : α) : Vector α n := v.set i x

/-- The record of a table at an index: the entry's, or the table's reset record `d`. -/
def Table.get {α : Type} (d : α) (t : Table α) (n : Nat) : α :=
  match t.find? (fun e => e.1 == n) with
  | some e => e.2
  | none => d

/-- A table without an entry at `n`. -/
def Table.erase {α : Type} (t : Table α) (n : Nat) : Table α := t.filter (fun e => e.1 != n)

/-- A table with the entry `(n, v)` at its place by rising index. -/
def Table.insert {α : Type} (n : Nat) (v : α) : Table α → Table α
  | [] => [(n, v)]
  | e :: r => if n < e.1 then (n, v) :: e :: r else e :: Table.insert n v r

/-- A table with the record `v` at `n`; a record equal to the reset record is not listed. -/
def Table.put {α : Type} [DecidableEq α] (d : α) (t : Table α) (n : Nat) (v : α) : Table α :=
  if v = d then t.erase n else (t.erase n).insert n v

/-- The canonical form of a table: indices strictly rising, no entry equal to the reset record. -/
abbrev Table.Canonical {α : Type} (d : α) (t : Table α) : Prop :=
  t.Pairwise (fun a b => a.1 < b.1) ∧ ∀ e ∈ t, e.2 ≠ d

/-- Put `x` into a list before the first item it goes ahead of; at the tail where it goes ahead of none. -/
def insertBy {α : Type} (goesAhead : α → α → Bool) (x : α) : List α → List α
  | [] => [x]
  | y :: r => if goesAhead x y then x :: y :: r else y :: insertBy goesAhead x r

/-- Replace the first item that satisfies `p`. -/
def replaceFirst {α : Type} (p : α → Bool) (f : α → α) : List α → List α
  | [] => []
  | x :: r => if p x then f x :: r else x :: replaceFirst p f r

/-! ## The places of counters and notice kinds -/

/-- The place of a counter in its set (R163). -/
def ChannelCounter.index : ChannelCounter → Fin 48
  | .requestIgnored => 0
  | .requestMismatch => 1
  | .requestClamp => 2
  | .plansBuilt => 3
  | .planCut => 4
  | .fallback => 5
  | .calendarFull => 6
  | .periodicPlaced => 7
  | .periodicMiss => 8
  | .periodicLapsed => 9
  | .extraDeferred => 10
  | .behindIgnored => 11
  | .openingsEmpty => 12
  | .openingsSuccess => 13
  | .openingsCollided => 14
  | .talliesFinalized => 15
  | .tallySuperseded => 16
  | .tallyStale => 17
  | .adaptRaise => 18
  | .adaptLower => 19
  | .adaptHold => 20
  | .joinOffered => 21
  | .joinDropped => 22
  | .joinTaken => 23
  | .joinEmpty => 24
  | .joinCollided => 25
  | .pollsPlaced => 26
  | .pollsDeferred => 27
  | .pollQueueFull => 28
  | .alignSuccess => 29
  | .alignCorrected => 30
  | .alignLimited => 31
  | .misses => 32
  | .stationsLost => 33
  | .maintained => 34
  | .maintenanceFlagged => 35
  | .plansSent => 36
  | .plansWithdrawn => 37
  | .chargesRestored => 38
  | .chargesForfeited => 39
  | .idlePlans => 40
  | .turnsAnswered => 41
  | .turnsDamaged => 42
  | .noShow => 43
  | .misplaced => 44
  | .stray => 45
  | .unitsDiscarded => 46
  | .joinUnitDiscarded => 47

/-- The place of a counter in its set (R163). -/
def DeviceCounter.index : DeviceCounter → Fin 11
  | .referenceBackstep => 0
  | .adjustsQueued => 1
  | .adjustsMerged => 2
  | .adjustsDropped => 3
  | .adjustFramesSent => 4
  | .forwardDrop => 5
  | .unitsForwarded => 6
  | .framesTaken => 7
  | .framesBusy => 8
  | .framesRefused => 9
  | .noticesSent => 10

/-- A kind's priority less 1 (R165). -/
def NoticeKind.index : NoticeKind → Fin 11
  | .stationLost => 0
  | .planWithdrawn => 1
  | .planCut => 2
  | .newcomer => 3
  | .stationTableFull => 4
  | .stationOnline => 5
  | .periodicMiss => 6
  | .strayBurst => 7
  | .forwardDrop => 8
  | .adjustDrop => 9
  | .channelStopped => 10

/-- The kind an occurrence's details belong to (R165). -/
def NoticeDetail.kind : NoticeDetail → NoticeKind
  | .stationLost .. => .stationLost
  | .planWithdrawn .. => .planWithdrawn
  | .planCut .. => .planCut
  | .newcomer .. => .newcomer
  | .stationTableFull .. => .stationTableFull
  | .stationOnline .. => .stationOnline
  | .periodicMiss .. => .periodicMiss
  | .strayBurst .. => .strayBurst
  | .forwardDrop .. => .forwardDrop
  | .adjustDrop .. => .adjustDrop
  | .channelStopped .. => .channelStopped

namespace State

/-! ## Channel contexts (R1) -/

/-- The context of channel `c`. -/
def context (s : State) (c : ChanNo) : ChannelContext := vget s.channels c

/-- Write the context of channel `c`. -/
def putContext (s : State) (c : ChanNo) (x : ChannelContext) : State :=
  { s with channels := vput s.channels c x }

/-- The channel parameters in force (section 1.2). -/
def params (s : State) (c : ChanNo) : Params := (s.context c).activePage.params

/-- The burst profile in force (section 1.2). -/
def profile (s : State) (c : ChanNo) : Profile := (s.context c).activePage.profile

/-! ## Stations (R20, R22, R23) -/

/-- The record of station `n`. -/
def station (s : State) (n : StationNo) : Station := Table.get Station.reset s.stations n.val

/-- Write the record of station `n`. -/
def putStation (s : State) (n : StationNo) (x : Station) : State :=
  { s with stations := Table.put Station.reset s.stations n.val x }

/-- Write the free list. -/
def putFreeList (s : State) (q : List StationNo) : State := { s with freeList := q }

/-- Write the identity map. -/
def putIdentity (s : State) (m : List (HwId × StationNo)) : State := { s with identity := m }

/-- The station number the identity map gives a hardware ID (R23). -/
def lookupIdentity (s : State) (h : HwId) : Option StationNo :=
  (s.identity.find? (fun e => e.1 == h)).map (fun e => e.2)

/-! ## Flows and policy (R38, R47, R52, R56) -/

/-- The record of flow `f`. -/
def flow (s : State) (f : FlowNo) : Flow := Table.get Flow.reset s.flows f.val

/-- Write the record of flow `f`. -/
def putFlow (s : State) (f : FlowNo) (x : Flow) : State :=
  { s with flows := Table.put Flow.reset s.flows f.val x }

/-- The class record `k` of a policy table (R47). -/
def policyClass (s : State) (p : PolicySelect) (k : ClassNo) : PolicyClass :=
  match p with
  | .a => vget s.policyA k
  | .b => vget s.policyB k

/-- Write the class record `k` of a policy table. -/
def putPolicyClass (s : State) (p : PolicySelect) (k : ClassNo) (x : PolicyClass) : State :=
  { s with
    policyA := if p = .a then vput s.policyA k x else s.policyA
    policyB := if p = .b then vput s.policyB k x else s.policyB }

/-- Write the REQUEST MARK of channel `c` (R52). -/
def putRequestMark (s : State) (c : ChanNo) (m : Option Beat) : State :=
  { s with requestMarks := vput s.requestMarks c m }

/-- The active list of channel `c` at level `l` (R56). -/
def active (s : State) (c : ChanNo) (l : Level) : List FlowNo := vget (vget s.activeLists c) l

/-- Write the active list of channel `c` at level `l`. -/
def putActive (s : State) (c : ChanNo) (l : Level) (q : List FlowNo) : State :=
  { s with activeLists := vput s.activeLists c (vput (vget s.activeLists c) l q) }

/-! ## Calendar and contention (R84, R95) -/

/-- The calendar of channel `c`. -/
def calendar (s : State) (c : ChanNo) : Calendar := vget s.calendars c

/-- Write the calendar of channel `c`. -/
def putCalendar (s : State) (c : ChanNo) (x : Calendar) : State :=
  { s with calendars := vput s.calendars c x }

/-- The contention state of channel `c`. -/
def contentionOf (s : State) (c : ChanNo) : Contention := vget s.contention c

/-- Write the contention state of channel `c`. -/
def putContention (s : State) (c : ChanNo) (x : Contention) : State :=
  { s with contention := vput s.contention c x }

/-! ## Alignment (R108) -/

/-- The poll queue of channel `c`. -/
def pollQueue (s : State) (c : ChanNo) : List StationNo := vget s.pollQueues c

/-- Write the poll queue of channel `c`. -/
def putPollQueue (s : State) (c : ChanNo) (q : List StationNo) : State :=
  { s with pollQueues := vput s.pollQueues c q }

/-- SWEEP POINTER of channel `c`. -/
def sweepPointer (s : State) (c : ChanNo) : StationNo := vget s.sweepPointers c

/-- Write the SWEEP POINTER of channel `c`. -/
def putSweepPointer (s : State) (c : ChanNo) (n : StationNo) : State :=
  { s with sweepPointers := vput s.sweepPointers c n }

/-- Write the adjust queue. -/
def putAdjustQueue (s : State) (q : List AdjustEntry) : State := { s with adjustQueue := q }

/-! ## Builder and Plan Store (R60, R61, R122) -/

/-- Write the engine. -/
def putEngine (s : State) (e : Option BuildContext) : State := { s with engine := e }

/-- BUILD CONDITION of channel `c`. -/
def buildCondition (s : State) (c : ChanNo) : BuildCondition := vget s.buildConditions c

/-- Write the BUILD CONDITION of channel `c`. -/
def putBuildCondition (s : State) (c : ChanNo) (x : BuildCondition) : State :=
  { s with buildConditions := vput s.buildConditions c x }

/-- Write the build queue. -/
def putBuildQueue (s : State) (q : List BuildRequest) : State := { s with buildQueue := q }

/-- The Plan Store of channel `c`. -/
def planStore (s : State) (c : ChanNo) : PlanStore := vget s.planStores c

/-- Write the Plan Store of channel `c`. -/
def putPlanStore (s : State) (c : ChanNo) (x : PlanStore) : State :=
  { s with planStores := vput s.planStores c x }

/-- Write HOLD of the Plan Link (R126). -/
def putPlanLinkHold (s : State) (h : Bool) : State := { s with planLinkHold := h }

/-- Write the Plan Link's SENDING and its closed frames. -/
def putPlanLink (s : State) (l : OutLink) : State := { s with planLink := l }

/-! ## Intake (R138, R150, R152) -/

/-- The Expect Queue of channel `c`. -/
def expectQueue (s : State) (c : ChanNo) : List ExpectEntry := vget s.expectQueues c

/-- Write the Expect Queue of channel `c`. -/
def putExpectQueue (s : State) (c : ChanNo) (q : List ExpectEntry) : State :=
  { s with expectQueues := vput s.expectQueues c q }

/-- Write the stray ring with its OVERWRITES. -/
def putStrayRing (s : State) (q : List StrayEntry) (n : Nat) : State :=
  { s with strayRing := q, overwrites := n }

/-- Write the forward buffer. -/
def putForwardBuffer (s : State) (q : List ForwardUnit) : State := { s with forwardBuffer := q }

/-! ## Management (R153 to R156) -/

/-- Write the System Link's SENDING and its closed frames. -/
def putSystemLink (s : State) (l : OutLink) : State := { s with systemLink := l }

/-- Write the control queue. -/
def putControlQueue (s : State) (q : List RawFrame) : State := { s with controlQueue := q }

/-- Write the execution under way. -/
def putExecution (s : State) (e : Option Execution) : State := { s with execution := e }

/-- A response joins the tail of the response queue; INBOUND HOLD becomes yes when the queue reaches 30 (R155). -/
def pushResponse (s : State) (r : Response) : State :=
  { s with
    responseQueue := s.responseQueue ++ [r]
    inboundHold := s.inboundHold || decide (Config.inboundHoldAt ≤ s.responseQueue.length + 1) }

/-- The head of the response queue leaves it; INBOUND HOLD becomes no when that brings the queue below 30, and the
transfer the hold had let through is then over (R155). -/
def popResponse (s : State) : State :=
  { s with
    responseQueue := s.responseQueue.tail
    inboundHold := s.inboundHold && decide (Config.inboundHoldAt ≤ s.responseQueue.tail.length)
    heldArrival := s.heldArrival && (s.inboundHold && decide (Config.inboundHoldAt ≤ s.responseQueue.tail.length)) }

/-! ## Counters (R163) -/

/-- A counter raised by `n`: it saturates at 2^32 − 1 and does not wrap. -/
def saturate (v n : Nat) : Nat := min Config.maxCounter (v + n)

/-- Count `n` occurrences of `k` in the set of channel `c`. -/
def count (s : State) (c : ChanNo) (k : ChannelCounter) (n : Nat) : State :=
  { s with
    channelCounters :=
      vput s.channelCounters c
        (vput (vget s.channelCounters c) k.index (saturate (vget (vget s.channelCounters c) k.index) n)) }

/-- Count `n` occurrences of `k` in the device's set. -/
def countDevice (s : State) (k : DeviceCounter) (n : Nat) : State :=
  { s with deviceCounters := vput s.deviceCounters k.index (saturate (vget s.deviceCounters k.index) n) }

/-- A counter of channel `c`. -/
def counter (s : State) (c : ChanNo) (k : ChannelCounter) : Nat := vget (vget s.channelCounters c) k.index

/-- A counter of the device. -/
def deviceCounter (s : State) (k : DeviceCounter) : Nat := vget s.deviceCounters k.index

/-! ## Notices (R165, R166) -/

/-- The pending record of a kind. -/
def notice (s : State) (k : NoticeKind) : Option PendingNotice := vget s.notices k.index

/-- What a raise makes of a kind's pending record (R165): a new record, or one more occurrence of the first. -/
def raisedRecord (p : Option PendingNotice) (d : NoticeDetail) : PendingNotice :=
  match p with
  | none => ⟨d, 1⟩
  | some r => ⟨r.detail, min Config.maxNoticeCount (r.count + 1)⟩

/-- A rule raises a notice (R165); a raise of a DISABLED kind records nothing (R166). -/
def raise (s : State) (d : NoticeDetail) : State :=
  { s with
    notices :=
      if vget s.noticeEnable d.kind.index then
        vput s.notices d.kind.index (some (raisedRecord (vget s.notices d.kind.index) d))
      else s.notices }

/-- A write of NOTICE ENABLE (R166): DISABLED also discards the kind's pending record. -/
def putNoticeEnable (s : State) (k : NoticeKind) (enabled : Bool) : State :=
  { s with
    noticeEnable := vput s.noticeEnable k.index enabled
    notices := if enabled then s.notices else vput s.notices k.index none }

/-- The pending record of a kind leaves the Management Unit (R167). -/
def dropNotice (s : State) (k : NoticeKind) : State :=
  { s with notices := vput s.notices k.index none }

end State

/-- The kinds in order of priority (R165). -/
def NoticeKind.all : List NoticeKind :=
  [.stationLost, .planWithdrawn, .planCut, .newcomer, .stationTableFull, .stationOnline, .periodicMiss,
   .strayBurst, .forwardDrop, .adjustDrop, .channelStopped]

/-- One free value is drawn (assumption 3). -/
def State.drawn (s : State) : State := { s with freeDraws := s.freeDraws + 1 }

/-- The eight channels. -/
def allChannels : List ChanNo := [0, 1, 2, 3, 4, 5, 6, 7]

/-- The eight levels, 7 first (R70). -/
def levelsDown : List Level := [7, 6, 5, 4, 3, 2, 1, 0]

end Sys2Proof.Machine
end

