-- ==== Sys2Proof/Machine/Flags.lean ====
section
/-! DEFINITION. The yes/no conditions the rules test: page relations, flow and station eligibility, which deadline a
channel has reached, and which link can accept a frame. -/

namespace Sys2Proof.Machine

/-! ## Pages (R4) -/

/-- The relations CHANNEL-START requires of a page (R4). -/
def Params.relationsHold (p : Params) : Bool :=
  decide (p.lead + 1 ≤ p.planLength) && decide (p.lead + p.settle < p.planLength) &&
    decide (p.flightMargin + 1 ≤ p.lead) && decide (p.nmin ≤ p.nmax) &&
    decide (p.backoffFloor ≤ p.backoffCeiling)

namespace State

/-! ## Stations and flows -/

/-- Requests and alignment results reach a station that is ALIGNING, PARKED or ONLINE (R21). -/
def stationTakes (s : State) (n : StationNo) : Bool :=
  (s.station n).state == .aligning || (s.station n).state == .parked || (s.station n).state == .online

/-- The two conditions under which an alignment result of channel `c` reaches the record of station `n` (R29). -/
def resultReaches (s : State) (n : StationNo) (c : ChanNo) : Bool :=
  s.stationTakes n && (s.station n).channel == c

/-- The station of flow `f` is ONLINE. -/
def flowOnline (s : State) (f : FlowNo) : Bool :=
  match (s.flow f).station with
  | some n => (s.station n).state == .online
  | none => false

/-- The enlistment law (R56): ACTIVE, ELASTIC, of an ONLINE station, with BACKLOG above 0. -/
def meetsEnlistment (s : State) (f : FlowNo) : Bool :=
  (s.flow f).state == .active && (s.flow f).kind == .elastic && s.flowOnline f &&
    decide (0 < (s.flow f).backlog)

/-- Flow `f` stands in the calendar of channel `c` (R84). -/
def inCalendar (s : State) (c : ChanNo) (f : FlowNo) : Bool :=
  (s.calendar c).waiting.contains f || (s.calendar c).timed.contains f

/-- Station `n` is due for polling on channel `c`, for a plan beginning at `start` (R111). -/
def pollDue (s : State) (c : ChanNo) (start : Beat) (n : StationNo) : Bool :=
  (s.station n).channel == c &&
    ((s.station n).state == .aligning ||
      (((s.station n).state == .parked || (s.station n).state == .online) &&
        match (s.station n).lastGood with
        | none => true
        | some g => decide ((s.params c).maintenancePeriod ≤ (start - g).toNat)))

/-! ## Time and deadlines (R9) -/

/-- The channel's beats advance: RUNNING or DRAINING (R1). -/
def advancing (s : State) (c : ChanNo) : Bool := (s.context c).state != .stopped

/-- The emit time of the plan in the build half: NEXT START − LEAD (R1, R80). -/
def emitTimeOf (s : State) (c : ChanNo) : Beat := (s.context c).nextStart - beats32 (s.params c).lead

/-- The emit time is a deadline of the channel (R124). -/
def emitTimeStands (s : State) (c : ChanNo) : Bool :=
  (s.context c).state == .running ||
    ((s.context c).state == .draining && (s.context c).drainMark == .beforeFinalSwap)

/-- The channel has a plan awaiting departure (R122). -/
def awaits (s : State) (c : ChanNo) : Bool := (s.planStore c).emitCondition == .awaitingDeparture

/-- The channel stands at the emit time of its build half's plan (R80). -/
def emitTimeReached (s : State) (c : ChanNo) : Bool :=
  s.emitTimeStands c && (s.context c).currentBeat == s.emitTimeOf c

/-- The channel stands at the withdrawal deadline of its plan awaiting departure (R130). -/
def withdrawalReached (s : State) (c : ChanNo) : Bool :=
  s.advancing c && s.awaits c && (s.context c).currentBeat == (s.planStore c).withdrawalDeadline

/-- The channel stands at the EXPIRY of an entry of its Expect Queue (R148). -/
def expiryReached (s : State) (c : ChanNo) : Bool :=
  s.advancing c && (s.expectQueue c).any (fun e => e.expiry == (s.context c).currentBeat)

/-- The channel stands at a deadline that is still to be acted on (R9). -/
def deadlineReached (s : State) (c : ChanNo) : Bool :=
  s.emitTimeReached c || s.withdrawalReached c || s.expiryReached c

/-- The deadlines of a channel that lie ahead (R9). -/
def deadlines (s : State) (c : ChanNo) : List Beat :=
  (if s.emitTimeStands c then [s.emitTimeOf c] else []) ++
    (if s.awaits c then [(s.planStore c).withdrawalDeadline] else []) ++
    (s.expectQueue c).map (fun e => e.expiry)

/-- The reference units from now until channel `c` reaches beat `b` (R61, R127). The beats a reference count has
brought and the channel has not yet reached (assumption 6) are already past, so they count off. -/
def unitsUntil (s : State) (c : ChanNo) (b : Beat) : Int :=
  (((b - (s.context c).currentBeat).toNat : Int) - (s.context c).beatsToReach) * (s.params c).beatLength -
    (s.context c).beatPhase

/-- The reference units that have passed since channel `c` reached the beat it stands at. -/
def unitsBehind (s : State) (c : ChanNo) : Nat :=
  (s.context c).beatsToReach * (s.params c).beatLength + (s.context c).beatPhase

/-- The stopping conditions of a DRAINING channel (R13). -/
def stopsNow (s : State) (c : ChanNo) : Bool :=
  (s.context c).state == .draining && (s.context c).drainMark == .afterFinalSwap && !s.awaits c &&
    (s.expectQueue c).isEmpty

/-! ## Links -/

/-- The Plan Link can accept a frame (R126). -/
def planLinkAccepts (s : State) : Bool := !s.planLinkHold && s.planLink.sending.isNone

/-- The outbound System Link can accept a frame (R153). -/
def systemLinkAccepts (s : State) : Bool := s.systemLink.sending.isNone

/-- The kind the notice slot offers: the highest priority that has a pending record (R167). -/
def offeredNotice (s : State) : Option NoticeKind :=
  NoticeKind.all.find? (fun k => vget s.noticeEnable k.index && (s.notice k).isSome)

/-- The Management Unit may begin an execution (R156). -/
def executionMayBegin (s : State) : Bool :=
  s.execution.isNone && !s.inboundHold && !s.controlQueue.isEmpty

/-! ## Directed mode (R132) -/

/-- Management may write the channel's build half: RUNNING, or DRAINING before its final swap, in SOURCE MODE
DIRECTED (R132). -/
def directedWritable (s : State) (c : ChanNo) : Bool :=
  s.emitTimeStands c && (s.params c).sourceMode == .directed

end State

end Sys2Proof.Machine
end

