-- ==== Sys2Proof/Machine/Phases.lean ====
section
/-! DEFINITION. How far a build has come: which step of which group or stage is taken next (R68 to R75).

A group, a level or a stage that has nothing left to do ends at once, so each function here moves the context past
what is finished, as the lists and records stand at that moment (assumption 18). -/

namespace Sys2Proof.Machine

/-- STAGE of a build, read from how far it has come (R60). -/
def BuildPhase.stage : BuildPhase → Nat
  | .timing | .walk | .extras _ | .join | .polls _ _ | .sweep _ _ => 1
  | .openings _ => 2
  | .visits => 3
  | .closing | .holds _ _ => 4

namespace State

/-- The class of flow `f`, in the table its station's POLICY SELECT names, as it stands now (R48). -/
def classOf (s : State) (f : FlowNo) : PolicyClass :=
  match (s.flow f).station with
  | some n => s.policyClass (s.station n).policySelect (s.flow f).cls
  | none => s.policyClass .a (s.flow f).cls

/-- The nominal offset of flow `f` in a plan that begins at `start` (R90). -/
def nominalOffset (s : State) (start : Beat) (f : FlowNo) : Option Nat :=
  (s.flow f).nextNominal.map (fun n => (n - start).toNat)

/-- The head of the TIMED part, if its NEXT NOMINAL falls in the plan under build (R90). -/
def walkHead (s : State) (b : BuildContext) : Option FlowNo :=
  match (s.calendar b.channel).timed with
  | [] => none
  | f :: _ =>
    match s.nominalOffset b.start f with
    | some o => if o < (s.params b.channel).planLength then some f else none
    | none => none

/-- Group 2 places an extra for a TIMED flow that owes one (R93). -/
def owesExtra (s : State) (c : ChanNo) (f : FlowNo) : Bool :=
  (s.calendar c).timed.contains f && decide (0 < (s.flow f).extrasOwed)

/-- The build offers a join opening (R104). -/
def joinOffered (s : State) (b : BuildContext) : Bool :=
  (s.params b.channel).joinCadence != 0 &&
    b.cadenceSequence.toNat % (s.params b.channel).joinCadence == 0

/-- A flow reached by the reading receives a hold: FRESH yes and HOLDS ENABLED (R75). -/
def holdQualifies (s : State) (f : FlowNo) : Bool := (s.flow f).fresh && (s.classOf f).holdsEnabled

end State

/-- The first flow of a list, counted from index `i`, that receives a hold. -/
def scanForHold (s : State) (l : Level) (i : Nat) : List FlowNo → Option (Level × Nat × FlowNo)
  | [] => none
  | f :: r => if s.holdQualifies f then some (l, i, f) else scanForHold s l (i + 1) r

/-- The next flow of the reading for holds, from index `i` of level `l` downward (R59, R75). -/
def nextHold (s : State) (c : ChanNo) (l : Level) (i : Nat) : Option (Level × Nat × FlowNo) :=
  match scanForHold s l i ((s.active c l).drop i) with
  | some h => some h
  | none => (levelsDown.filter (fun m => m < l)).findSome? (fun m => scanForHold s m 0 (s.active c m))

namespace BuildContext

/-- A level is begun: a round over the flows then in it (R70). -/
def startLevel (b : BuildContext) (s : State) (l : Level) : BuildContext :=
  { b with
    phase := .visits, level := l
    roundRemaining := (s.active b.channel l).length
    roundPlaced := false }

/-- Stage 3 goes on with the first of the levels `ls` that holds a flow, and ends when there is none or no beat is
free (R70, R71). The manual gives LEVEL, ROUND REMAINING and ROUND PLACED in stage 3 only. Once it has ended they keep what
was last written, LEVEL staying 7 where every level was empty (assumption 32). -/
def enterVisits (b : BuildContext) (s : State) (ls : List Level) : BuildContext :=
  if b.freeSpans.isEmpty then { b with phase := .closing }
  else
    match ls.find? (fun l => !(s.active b.channel l).isEmpty) with
    | some l => b.startLevel s l
    | none => { b with phase := .closing }

/-- The levels below the one being visited, from the top (R70). -/
def levelsBelow (b : BuildContext) : List Level := levelsDown.filter (fun m => m < b.level)

/-- Stage 3 between two visits: a round, a level or the stage that is over ends (R70, R71). -/
def advanceVisits (b : BuildContext) (s : State) : BuildContext :=
  if b.freeSpans.isEmpty then { b with phase := .closing }
  else if (s.active b.channel b.level).isEmpty then b.enterVisits s b.levelsBelow
  else if b.roundRemaining = 0 then
    if b.roundPlaced then b.startLevel s b.level else b.enterVisits s b.levelsBelow
  else b

/-- Stage 2 begins with the target T (R69). -/
def enterOpenings (b : BuildContext) (s : State) : BuildContext :=
  if (s.contentionOf b.channel).target = 0 then b.enterVisits s levelsDown
  else { b with phase := .openings (s.contentionOf b.channel).target }

/-- The sweep begins, if fewer stations than POLL LIMIT have been chosen (R113). -/
def enterSweep (b : BuildContext) (s : State) (chosen : List StationNo) : BuildContext :=
  if chosen.length < (s.params b.channel).pollLimit then { b with phase := .sweep 0 chosen }
  else b.enterOpenings s

/-- Group 4 begins: at most POLL LIMIT of the stations now in the queue are taken (R112). -/
def enterPolls (b : BuildContext) (s : State) : BuildContext :=
  if min (s.params b.channel).pollLimit (s.pollQueue b.channel).length = 0 then b.enterSweep s []
  else { b with phase := .polls (min (s.params b.channel).pollLimit (s.pollQueue b.channel).length) [] }

/-- Group 3, when the cadence selects the plan (R104). -/
def enterJoin (b : BuildContext) (s : State) : BuildContext :=
  if s.joinOffered b then { b with phase := .join } else b.enterPolls s

/-- Group 2 goes on with the first of the flows `left` that owes an extra (R93). -/
def enterExtras (b : BuildContext) (s : State) (left : List FlowNo) : BuildContext :=
  match left.dropWhile (fun f => !s.owesExtra b.channel f) with
  | [] => b.enterJoin s
  | f :: r => { b with phase := .extras (f :: r) }

/-- Group 1 goes on while the head's nominal falls in the plan (R90). -/
def enterWalk (b : BuildContext) (s : State) : BuildContext :=
  match s.walkHead b with
  | some _ => { b with phase := .walk }
  | none => b.enterExtras s (s.calendar b.channel).timed

/-- The context moved past everything that is finished as the state stands. -/
def advance (b : BuildContext) (s : State) : BuildContext :=
  match b.phase with
  | .timing | .join | .closing | .holds _ _ => b
  | .walk => b.enterWalk s
  | .extras left => b.enterExtras s left
  | .polls left chosen =>
    if left = 0 ∨ (s.pollQueue b.channel).isEmpty then b.enterSweep s chosen else b
  | .sweep examined chosen =>
    if examined < Config.maxSweep ∧ chosen.length < (s.params b.channel).pollLimit then b
    else b.enterOpenings s
  | .openings left => if left = 0 then b.enterVisits s levelsDown else b
  | .visits => b.advanceVisits s

/-- What a flow's leaving its list does to the build under way: the reading for holds keeps its place among the flows that
remain (R75; assumption 28). `place` is the position the flow held. -/
def afterDelist (b : BuildContext) (c : ChanNo) (l : Level) (place : Nat) : BuildContext :=
  match b.phase with
  | .holds m i => if b.channel = c ∧ m = l ∧ place < i then { b with phase := .holds m (i - 1) } else b
  | _ => b

/-- The build under way once an event that takes flows out of the lists is over, `t` being what it leaves of `s`: the
level being visited, if the event has emptied it, ends at once (R70). The event is taken whole (R27, R78), so the next
level is begun over the flows that are then in it. -/
def afterEvent (b : BuildContext) (s t : State) : BuildContext :=
  if b.phase = .visits ∧ s.active b.channel b.level ≠ [] ∧ t.active b.channel b.level = [] then b.advanceVisits t
  else b

end BuildContext

end Sys2Proof.Machine
end

