-- ==== Sys2Proof/Machine/Lists.lean ====
section
/-! DEFINITION. The shared operations on the collections flows and stations stand in: the active lists (R57, R58), the
calendar (R86, R87), the poll queue (R110) and the adjust queue (R120, R121). -/

namespace Sys2Proof.Machine

namespace State

/-! ## Active lists -/

/-- A flow that meets the enlistment law and is not enlisted joins the tail of its level, the PRIORITY of its class
as it stands, captured as LIST LEVEL (R57). -/
def enlist (s : State) (f : FlowNo) : State :=
  if s.meetsEnlistment f && (s.flow f).listLevel.isNone then
    match (s.flow f).station with
    | some n =>
      (s.putActive (s.station n).channel (s.classOf f).priority
          (s.active (s.station n).channel (s.classOf f).priority ++ [f])).putFlow f
        { s.flow f with listLevel := some (s.classOf f).priority }
    | none => s
  else s

/-- An enlisted flow leaves its list on channel `c`: the flows behind it close up, LIST LEVEL is made absent and
DEFICIT is cleared (R58). A reading for holds keeps its place. -/
def delist (s : State) (c : ChanNo) (f : FlowNo) : State :=
  match (s.flow f).listLevel with
  | none => s
  | some l =>
    let t := (s.putActive c l ((s.active c l).erase f)).putFlow f
      { s.flow f with listLevel := none, deficit := 0 }
    t.putEngine (t.engine.map (fun b => b.afterDelist c l ((s.active c l).idxOf f)))

/-- `t` is what an event outside the build leaves of `s`: a level it has emptied under a round ends at once (R70, R78). -/
def levelEnded (s t : State) : State := t.putEngine (t.engine.map (fun b => b.afterEvent s t))

/-- A visited flow moves from the head of its level to the tail, keeping its DEFICIT (R59). -/
def moveToTail (s : State) (c : ChanNo) (l : Level) (f : FlowNo) : State :=
  s.putActive c l ((s.active c l).erase f ++ [f])

/-! ## Calendar -/

/-- The calendar of channel `c` holds 1,024 flows (R84). -/
def calendarFull (s : State) (c : ChanNo) : Bool :=
  decide (Config.maxCalendar ≤ (s.calendar c).waiting.length + (s.calendar c).timed.length)

/-- A flow joins the WAITING part of the calendar of channel `c` (R86). -/
def joinCalendar (s : State) (c : ChanNo) (f : FlowNo) : State :=
  if s.inCalendar c f then s
  else
    s.putCalendar c
      { s.calendar c with waiting := insertBy (fun a b => decide (a < b)) f (s.calendar c).waiting }

/-- `f` goes ahead of `g` in the TIMED part: an earlier NEXT NOMINAL, or an equal one and a lower number (R84). -/
def timedAhead (s : State) (f g : FlowNo) : Bool :=
  match (s.flow f).nextNominal, (s.flow g).nextNominal with
  | some a, some b => before a b || (a == b && decide (f < g))
  | _, _ => decide (f < g)

/-- The flows of `q` in the order of the TIMED part (R84). -/
def sortTimed (s : State) (q : List FlowNo) : List FlowNo :=
  q.foldr (fun f r => insertBy s.timedAhead f r) []

/-- A flow leaves its calendar: NEXT NOMINAL is made absent and EXTRAS OWED becomes 0 (R87). -/
def leaveCalendar (s : State) (c : ChanNo) (f : FlowNo) : State :=
  if s.inCalendar c f then
    (s.putCalendar c
        { waiting := (s.calendar c).waiting.erase f, timed := (s.calendar c).timed.erase f }).putFlow f
      { s.flow f with nextNominal := none, extrasOwed := 0 }
  else s

/-! ## Poll queue -/

/-- A station is enqueued on the poll queue of its CHANNEL (R110). -/
def pollEnqueue (s : State) (n : StationNo) : State :=
  if (s.station n).inPollQueue then s
  else if (s.pollQueue (s.station n).channel).length < Config.maxPollQueue then
    (s.putPollQueue (s.station n).channel (s.pollQueue (s.station n).channel ++ [n])).putStation n
      { s.station n with inPollQueue := true }
  else s.count (s.station n).channel .pollQueueFull 1

/-- A station is removed from the poll queue that holds it, if any (R110). -/
def pollRemove (s : State) (n : StationNo) : State :=
  (s.putPollQueue (s.station n).channel ((s.pollQueue (s.station n).channel).erase n)).putStation n
    { s.station n with inPollQueue := false }

/-! ## Adjust queue -/

/-- The steps of an offered adjustment merged into the entry that waits (R120). -/
def mergeAdjust (offered waiting : AdjustEntry) : AdjustEntry :=
  { waiting with
    channel := offered.channel
    timingStep := waiting.timingStep + offered.timingStep
    powerStep := waiting.powerStep + offered.powerStep
    aligned := waiting.aligned || offered.aligned }

/-- The adjust queue takes an offered adjustment rather than dropping it (R120). -/
def adjustTaken (s : State) (a : AdjustEntry) : Bool :=
  s.adjustQueue.any (fun e => e.station == a.station) || decide (s.adjustQueue.length < Config.maxAdjustQueue)

/-- An adjustment is offered to the adjust queue: merged, queued or dropped (R120). -/
def offerAdjust (s : State) (a : AdjustEntry) : State :=
  if s.adjustQueue.any (fun e => e.station == a.station) then
    (s.putAdjustQueue (replaceFirst (fun e => e.station == a.station) (mergeAdjust a) s.adjustQueue)).countDevice
      .adjustsMerged 1
  else if s.adjustQueue.length < Config.maxAdjustQueue then
    (s.putAdjustQueue (s.adjustQueue ++ [a])).countDevice .adjustsQueued 1
  else
    (((s.countDevice .adjustsDropped 1).raise
        (.adjustDrop a.station a.channel a.timingStep a.powerStep a.aligned))).pollEnqueue a.station

/-- A station's adjust entry is removed without a frame (R121). -/
def adjustRemove (s : State) (n : StationNo) : State :=
  s.putAdjustQueue (s.adjustQueue.filter (fun e => e.station != n))

end State

end Sys2Proof.Machine
end

