-- ==== Sys2Proof/Machine/Stations.lean ====
section
/-! DEFINITION. The lifecycle of a station (chapter 2) and of a flow (chapter 3): entering and leaving ONLINE, loss,
and the management operations on stations and flows. -/

namespace Sys2Proof.Machine

/-- What an operation answers: the state it leaves, the response code and the results (R155, R157). -/
structure Answer where
  state   : State
  code    : Code
  results : List Byte

/-- An answer with no results. -/
def State.answer (s : State) (c : Code) : Answer := ⟨s, c, []⟩

/-- An operand as an index below `k`, or none where it lies outside. -/
def asIndex (k n : Nat) : Option (Fin k) := if h : n < k then some ⟨n, h⟩ else none

namespace State

/-! ## Entering and leaving ONLINE -/

/-- One flow of a station that enters ONLINE on channel `c` (R28, R86). -/
def onlineFlow (s : State) (n : StationNo) (c : ChanNo) (f : FlowNo) : State :=
  match (s.flow f).state, (s.flow f).kind with
  | .active, .elastic => s.enlist f
  | .active, .periodic =>
    if s.calendarFull c then
      (s.count c .calendarFull 1).raise (.periodicMiss .calendarFull c f n none)
    else s.joinCalendar c f
  | _, _ => s

/-- A station enters ONLINE: its STATE, then its flows in FLOW LIST order (R28). -/
def enterOnline (s : State) (n : StationNo) : State :=
  (s.station n).flowList.foldl (fun t f => t.onlineFlow n (s.station n).channel f)
    (s.putStation n { s.station n with state := .online })

/-- One flow of a station that leaves ONLINE on channel `c` (R27). -/
def offlineFlow (s : State) (c : ChanNo) (f : FlowNo) : State := (s.delist c f).leaveCalendar c f

/-- The flows of a station leave the lists and the calendar of its channel, in FLOW LIST order (R27). -/
def flowsOffline (s : State) (n : StationNo) : State :=
  (s.station n).flowList.foldl (fun t f => t.offlineFlow (s.station n).channel f) s

/-- A station that is ONLINE leaves ONLINE (R27); the cause then writes its STATE. -/
def leaveOnline (s : State) (n : StationNo) : State :=
  if (s.station n).state = .online then s.flowsOffline n else s

/-- A station leaves ONLINE, by a move, a loss or a release (R32, R33, R34): all its flows leave in one event (R27), and a
level of the build under way that they leave empty then ends (R70). -/
def takenOffline (s : State) (n : StationNo) : State := s.levelEnded (s.leaveOnline n)

/-- Change every flow of a list by `g`. -/
def mapFlows (s : State) (q : List FlowNo) (g : Flow → Flow) : State :=
  q.foldl (fun t f => t.putFlow f (g (t.flow f))) s

/-- The transition of an alignment success of an ALIGNING, PARKED or ONLINE station (R28). -/
def successTransition (s : State) (n : StationNo) : State :=
  if (s.station n).state = .aligning then
    if (s.station n).admitted then
      (s.enterOnline n).raise (.stationOnline n (s.station n).channel)
    else s.putStation n { s.station n with state := .parked }
  else s

/-- BACKLOG and DEFICIT of a lost station's flow (R33). -/
def lostFlow (f : Flow) : Flow := { f with backlog := 0, deficit := 0 }

/-- A station is lost (R33). -/
def lose (s : State) (n : StationNo) : State :=
  let t := s.takenOffline n
  let t := t.putStation n { t.station n with state := .lost, missCount := 0 }
  let t := t.mapFlows (s.station n).flowList lostFlow
  let t := (t.pollRemove n).adjustRemove n
  t.raise (.stationLost n ((s.station n).hardwareId.getD 0) (s.station n).channel)

/-! ## Flow lifecycle -/

/-- An unbound flow (R44). -/
def unboundFlow (f : Flow) : Flow :=
  { f with
    state := .idle, station := none, backlog := 0, deficit := 0, residue := 0, extrasOwed := 0
    fresh := false, credit := f.credit.map (fun _ => 0), fillAnchor := none, nextNominal := none }

/-- FLOW-BIND (R41). -/
def flowBindOp (s : State) (flow station : Nat) : Answer :=
  match asIndex 16384 flow, asIndex 8192 station with
  | none, _ => s.answer .badIndex
  | some _, none => s.answer .badValue
  | some f, some n =>
    if (s.flow f).state ≠ .idle then s.answer .state
    else if (s.station n).state = .free then s.answer .state
    else if Config.maxFlowList ≤ (s.station n).flowList.length then s.answer .full
    else
      ((s.putFlow f { s.flow f with state := .held, station := some n, fillAnchor := none }).putStation n
        { s.station n with flowList := (s.station n).flowList ++ [f] }).answer .done

/-- A HELD flow becomes ACTIVE: it joins its list or its calendar when its station is ONLINE (R42). -/
def activateFlow (s : State) (f : FlowNo) (n : StationNo) : Answer :=
  if (s.station n).state ≠ .online then (s.putFlow f { s.flow f with state := .active }).answer .done
  else if (s.flow f).kind = .elastic then
    ((s.putFlow f { s.flow f with state := .active }).enlist f).answer .done
  else if s.calendarFull (s.station n).channel then
    (s.count (s.station n).channel .calendarFull 1).answer .full
  else
    ((s.putFlow f { s.flow f with state := .active }).joinCalendar (s.station n).channel f).answer .done

/-- FLOW-ACTIVATE (R42). -/
def flowActivateOp (s : State) (flow : Nat) : Answer :=
  match asIndex 16384 flow with
  | none => s.answer .badIndex
  | some f =>
    if (s.flow f).state ≠ .held then s.answer .state
    else
      match (s.flow f).station with
      | some n => s.activateFlow f n
      | none => (s.putFlow f { s.flow f with state := .active }).answer .done

/-- A flow leaves its list and its calendar on the channel of its station, wherever it stands; a level of the build under
way that it leaves empty ends (R70). -/
def withdrawFlow (s : State) (f : FlowNo) : State :=
  match (s.flow f).station with
  | some n => s.levelEnded (s.offlineFlow (s.station n).channel f)
  | none => s

/-- FLOW-HOLD (R43). -/
def flowHoldOp (s : State) (flow : Nat) : Answer :=
  match asIndex 16384 flow with
  | none => s.answer .badIndex
  | some f =>
    if (s.flow f).state ≠ .active then s.answer .state
    else ((s.putFlow f { s.flow f with state := .held }).withdrawFlow f).answer .done

/-- FLOW-UNBIND (R44). -/
def flowUnbindOp (s : State) (flow : Nat) : Answer :=
  match asIndex 16384 flow with
  | none => s.answer .badIndex
  | some f =>
    if (s.flow f).state ≠ .held then s.answer .state
    else
      let t := match (s.flow f).station with
        | some n => s.putStation n { s.station n with flowList := (s.station n).flowList.erase f }
        | none => s
      (t.putFlow f (unboundFlow (t.flow f))).answer .done

/-! ## Management operations on stations -/

/-- STATION-ADMIT (R31). -/
def stationAdmitOp (s : State) (station : Nat) : Answer :=
  match asIndex 8192 station with
  | none => s.answer .badIndex
  | some n =>
    match (s.station n).state with
    | .free | .lost => s.answer .state
    | .aligning => (s.putStation n { s.station n with admitted := true }).answer .done
    | .parked => ((s.putStation n { s.station n with admitted := true }).enterOnline n).answer .done
    | .online => s.answer .done

/-- The steps of a move (R32). -/
def moveStation (s : State) (n : StationNo) (c : ChanNo) : State :=
  let t := s.takenOffline n
  let t := t.mapFlows (s.station n).flowList (fun f => { f with fillAnchor := none })
  let t := t.pollRemove n
  let t := t.putStation n
    { t.station n with channel := c, state := .aligning, lastGood := none, missCount := 0 }
  t.pollEnqueue n

/-- STATION-MOVE (R32). -/
def stationMoveOp (s : State) (station channel : Nat) : Answer :=
  match asIndex 8192 station, asIndex 8 channel with
  | none, _ => s.answer .badIndex
  | some _, none => s.answer .badValue
  | some n, some c =>
    if !s.stationTakes n then s.answer .state
    else if (s.station n).channel = c then s.answer .badValue
    else (s.moveStation n c).answer .done

/-- The steps of a release (R34). -/
def releaseStation (s : State) (n : StationNo) : State :=
  let t := s.takenOffline n
  let t := t.mapFlows (s.station n).flowList unboundFlow
  let t := (t.pollRemove n).adjustRemove n
  let t := t.putIdentity (t.identity.filter (fun e => some e.1 != (s.station n).hardwareId))
  let t := t.putStation n Station.reset
  t.putFreeList (t.freeList ++ [n])

/-- STATION-RELEASE (R34). -/
def stationReleaseOp (s : State) (station : Nat) : Answer :=
  match asIndex 8192 station with
  | none => s.answer .badIndex
  | some n =>
    if (s.station n).state = .free then s.answer .state else (s.releaseStation n).answer .done

end State

end Sys2Proof.Machine
end

