-- ==== Sys2Proof/Machine/Alignment.lean ====
section
/-! DEFINITION. Judging measurements (R115 to R119), misses (R118) and join handoffs (R25, R26). -/

namespace Sys2Proof.Machine

/-- The timing axis is within tolerance (R116). -/
def Params.timingWithin (p : Params) (m : Measurement) : Bool := decide (m.timing.natAbs ≤ p.timingTolerance)

/-- The power axis is within tolerance (R116). -/
def Params.powerWithin (p : Params) (m : Measurement) : Bool := decide (m.power.natAbs ≤ p.powerTolerance)

/-- Both axes within tolerance (R117). -/
def Params.within (p : Params) (m : Measurement) : Bool := p.timingWithin m && p.powerWithin m

/-- The proposed timing total (R116). -/
def proposedTiming (p : Params) (total : Int) (m : Measurement) : Int :=
  if p.timingWithin m then total
  else clampInt (total - m.timing) (-Config.maxTimingTotal) Config.maxTimingTotal

/-- The proposed power total (R116). -/
def proposedPower (p : Params) (total : Int) (m : Measurement) : Int :=
  if p.powerWithin m then total
  else
    clampInt (total + clampInt (-m.power) (-(p.maxPowerStep : Int)) p.maxPowerStep)
      (-Config.maxPowerTotal) Config.maxPowerTotal

/-- The timing step (R116). -/
def timingStep (p : Params) (st : Station) (m : Measurement) : Int :=
  proposedTiming p st.timingTotal m - st.timingTotal

/-- The power step (R116). -/
def powerStep (p : Params) (st : Station) (m : Measurement) : Int :=
  proposedPower p st.powerTotal m - st.powerTotal

namespace State

/-- A miss of a station that R29 admits (R118). A MISS COUNT that would pass MISS LIMIT is a loss too
(assumption 27). -/
def missAdmitted (s : State) (n : StationNo) (c : ChanNo) : State :=
  let t := (s.putStation n { s.station n with missCount := (s.station n).missCount + 1 }).count c .misses 1
  if (s.params c).missLimit ≤ (s.station n).missCount + 1 then (t.lose n).count c .stationsLost 1
  else t.pollEnqueue n

/-- A miss of station `n` from channel `c` is handed to the Alignment Unit (R29, R115, R118). -/
def miss (s : State) (n : StationNo) (c : ChanNo) : State :=
  if s.resultReaches n c then s.missAdmitted n c else s

/-- A success (R117): a measurement within both tolerances. -/
def success (s : State) (n : StationNo) (c : ChanNo) (start : Beat) : State :=
  let t := (s.putStation n { s.station n with missCount := 0, lastGood := some start }).count c .alignSuccess 1
  let t := t.successTransition n
  if (s.station n).state = .aligning then
    t.offerAdjust { station := n, channel := c, timingStep := 0, powerStep := 0, aligned := true }
  else t

/-- The adjustment of a correctable measurement (R117). -/
def correction (s : State) (n : StationNo) (c : ChanNo) (m : Measurement) : AdjustEntry where
  station := n
  channel := c
  timingStep := Machine.timingStep (s.params c) (s.station n) m
  powerStep := Machine.powerStep (s.params c) (s.station n) m
  aligned := false

/-- A correctable measurement (R117): the totals change only if the adjustment is taken. -/
def correct (s : State) (n : StationNo) (c : ChanNo) (m : Measurement) : State :=
  let a := s.correction n c m
  let t := s.offerAdjust a
  let t :=
    if s.adjustTaken a then
      (t.putStation n
        { t.station n with
          timingTotal := proposedTiming (s.params c) (s.station n).timingTotal m
          powerTotal := proposedPower (s.params c) (s.station n).powerTotal m }).count c .alignCorrected 1
    else t
  t.pollEnqueue n

/-- A measurement that reaches the record, LAST MEASUREMENT set, judged by the first row of R117 that holds. -/
def judge (s : State) (n : StationNo) (c : ChanNo) (start : Beat) (m : Measurement) : State :=
  if (s.params c).within m then s.success n c start
  else if (s.correction n c m).timingStep = 0 ∧ (s.correction n c m).powerStep = 0 then
    (s.count c .alignLimited 1).missAdmitted n c
  else s.correct n c m

/-- Write LAST MEASUREMENT of a station (R115, R119). -/
def putMeasurement (s : State) (n : StationNo) (m : Measurement) : State :=
  s.putStation n { s.station n with lastMeasurement := some m }

/-- A poll or join measurement of station `n` from channel `c` (R115 to R117). -/
def pollMeasurement (s : State) (n : StationNo) (c : ChanNo) (start : Beat) (m : Measurement) : State :=
  if s.resultReaches n c then (s.putMeasurement n m).judge n c start m else s

/-- A maintenance measurement: from a data or periodic burst, for an ONLINE station on its channel (R119). -/
def maintenance (s : State) (n : StationNo) (c : ChanNo) (start : Beat) (m : Measurement) : State :=
  if (s.station n).state = .online ∧ (s.station n).channel = c then
    let t := s.putMeasurement n m
    if (s.params c).within m then
      (t.putStation n { t.station n with missCount := 0, lastGood := some start }).count c .maintained 1
    else (t.pollEnqueue n).count c .maintenanceFlagged 1
  else s

/-! ## Join handoffs -/

/-- A join handoff of a known station `n`, steps 1 to 4 (R25). -/
def rejoin (s : State) (n : StationNo) (c : ChanNo) : State :=
  let t := (s.leaveOnline n).adjustRemove n
  let t :=
    if (s.station n).channel = c then t
    else (t.pollRemove n).mapFlows (s.station n).flowList (fun f => { f with fillAnchor := none })
  t.putStation n
    { t.station n with
      state := .aligning, channel := c, missCount := 0, lastGood := none, lastMeasurement := none
      timingTotal := 0, powerTotal := 0 }

/-- The record of a newcomer (R26). -/
def newcomerRecord (h : HwId) (c : ChanNo) : Station :=
  { Station.reset with state := .aligning, hardwareId := some h, channel := c }

/-- A newcomer takes the number `n` at the head of the free list (R26). -/
def newcomer (s : State) (n : StationNo) (h : HwId) (c : ChanNo) : State :=
  (((s.putFreeList s.freeList.tail).putStation n (newcomerRecord h c)).putIdentity
      (s.identity ++ [(h, n)])).raise (.newcomer n h c)

/-- A join handoff: the hardware ID, the record's channel, its start beat and its measurement (R106, R25, R26). A known
station's flows may leave their lists and join them again in it: that the level being visited is judged empty or not once
the handoff is over is the model's choice (MODEL, assumption 16). -/
def joinHandoff (s : State) (h : HwId) (c : ChanNo) (start : Beat) (m : Option Measurement) : State :=
  match s.lookupIdentity h with
  | some n =>
    match m with
    | some m => s.levelEnded ((s.rejoin n c).pollMeasurement n c start m)
    | none => s.levelEnded (s.rejoin n c)
  | none =>
    match s.freeList with
    | [] => s.raise (.stationTableFull h c)
    | n :: _ =>
      match m with
      | some m => (s.newcomer n h c).pollMeasurement n c start m
      | none => s.newcomer n h c

end State

end Sys2Proof.Machine
end

