-- ==== Sys2Proof/Machine/Sizing.lean ====
section
/-! DEFINITION. The arithmetic of turns: the burst size of a payload, the capacity of a turn, the token bucket and the
charge (R17 to R19, R54), and the adaptation of the contention target (R102). -/

namespace Sys2Proof.Machine

/-- Coded bytes of a payload of `l` bytes (R17, step 1). -/
def codedBytes (p : Profile) (l : Nat) : Nat :=
  if p.parityBytes = 0 then l
  else if l % p.infoBytes = 0 then l / p.infoBytes * (p.infoBytes + p.parityBytes)
  else if p.shortenedAllowed then
    l / p.infoBytes * (p.infoBytes + p.parityBytes) + l % p.infoBytes + p.parityBytes
  else (l / p.infoBytes + 1) * (p.infoBytes + p.parityBytes)

/-- beats(L): the beats a burst of `l` payload bytes occupies (R17). -/
def burstBeats (p : Profile) (l : Nat) : Nat :=
  if l = 0 then 0
  else
    ceilDiv (p.preambleSymbols + ceilDiv (8 * codedBytes p l) p.bitsPerSymbol + p.guardSymbols) p.symbolsPerBeat

/-- The payload that `c` coded bytes hold (R18, step 3). -/
def codedPayload (p : Profile) (c : Nat) : Nat :=
  if p.parityBytes = 0 then c
  else
    c / (p.infoBytes + p.parityBytes) * p.infoBytes +
      (if p.shortenedAllowed ∧ p.parityBytes < c % (p.infoBytes + p.parityBytes) then
        c % (p.infoBytes + p.parityBytes) - p.parityBytes
      else 0)

/-- capacity(G): the largest payload whose burst fits in `g` beats (R18). -/
def capacity (p : Profile) (g : Nat) : Nat :=
  if g * p.symbolsPerBeat ≤ p.preambleSymbols + p.guardSymbols then 0
  else
    min Config.maxBacklog
      (codedPayload p ((g * p.symbolsPerBeat - p.preambleSymbols - p.guardSymbols) * p.bitsPerSymbol / 8))

/-- The bytes a visit can size its turn for: BACKLOG, or the lesser of BACKLOG and CREDIT with a bucket (R71). -/
def Flow.demand (f : Flow) : Nat :=
  match f.credit with
  | some k => min f.backlog k
  | none => f.backlog

/-- The charge of a data turn of `g` beats (R19). -/
def turnCharge (p : Profile) (f : Flow) (g : Nat) : Nat := min f.demand (capacity p g)

/-- A charge removed from BACKLOG and, with a bucket, from CREDIT (R19). -/
def Flow.charged (f : Flow) (n : Nat) : Flow :=
  { f with backlog := f.backlog - n, credit := f.credit.map (fun k => k - n) }

/-- A withdrawn charge given back (R131), each sum clamped (R53). -/
def Flow.restored (f : Flow) (n : Nat) : Flow :=
  { f with
    backlog := min Config.maxBacklog (f.backlog + n)
    credit := f.credit.map (fun k => min f.depth (k + n)) }

/-- The beats of a bucket update: from FILL ANCHOR to `now`, capped (R54, step 1). -/
def elapsedBeats (now anchor : Beat) : Nat := min Config.maxElapsed (now - anchor).toNat

/-- The bucket brought up to date at plan start `now` (R54). A flow without a bucket is not updated. -/
def Flow.bucketUpdate (f : Flow) (now : Beat) : Flow :=
  match f.credit, f.fillAnchor with
  | none, _ => f
  | some _, none => { f with fillAnchor := some now }
  | some k, some a =>
    { f with
      credit := some (min f.depth (k + (f.rate * elapsedBeats now a + f.residue) / 1024))
      residue := (f.rate * elapsedBeats now a + f.residue) % 1024
      fillAnchor := some now }

/-- The effect of a write of RATE on the bucket (R46). `f` already holds the DEPTH of the same write. -/
def Flow.rateChange (f : Flow) (rate : Nat) : Flow :=
  if f.rate = 0 then
    if rate = 0 then f
    else { f with rate := rate, credit := some f.depth, residue := 0, fillAnchor := none }
  else if rate = 0 then { f with rate := 0, credit := none, residue := 0, fillAnchor := none }
  else { f with rate := rate }

/-- The effect of a write of DEPTH (R45): a CREDIT above the new DEPTH is clamped to it. -/
def Flow.depthChange (f : Flow) (depth : Nat) : Flow :=
  { f with depth := depth, credit := f.credit.map (fun k => min depth k) }

/-- The three rows of the adaptation (R102). -/
inductive Adaptation where
  | raise | lower | hold
deriving DecidableEq, Repr

/-- Which row a tally in use meets first (R102). -/
def adaptation (t : LatestTally) : Adaptation :=
  if t.n < 4 * t.collided then .raise else if t.n < 2 * t.empty then .lower else .hold

/-- TARGET after an adaptation, clamped to NMIN … NMAX (R102). -/
def adaptedTarget (p : Params) (t : Nat) : Adaptation → Nat
  | .raise => clampNat ((t : Int) + (max 1 (ceilDiv t 2) : Nat)) p.nmin p.nmax
  | .lower => clampNat ((t : Int) - (max 1 (t / 4) : Nat)) p.nmin p.nmax
  | .hold => clampNat (t : Int) p.nmin p.nmax

/-- BACKOFF START after an adaptation, clamped to BACKOFF FLOOR … BACKOFF CEILING (R102). -/
def adaptedBackoff (p : Params) (b : Nat) : Adaptation → Nat
  | .raise => clampNat ((b : Int) + 1) p.backoffFloor p.backoffCeiling
  | .lower => clampNat ((b : Int) - 1) p.backoffFloor p.backoffCeiling
  | .hold => clampNat (b : Int) p.backoffFloor p.backoffCeiling

/-- The counter of an adaptation (R102). -/
def Adaptation.counter : Adaptation → ChannelCounter
  | .raise => .adaptRaise
  | .lower => .adaptLower
  | .hold => .adaptHold

end Sys2Proof.Machine
end

