-- ==== Sys2Proof/Machine/Tallies.lean ====
section
/-! DEFINITION. Contention Control: tallies (R97 to R100) and the adaptation of a build (R102). -/

namespace Sys2Proof.Machine

/-- Sequence `a` is later than sequence `b` (R100). -/
def laterSequence (a b : PlanSeq) : Bool := decide (1 ≤ (a - b).toNat) && decide ((a - b).toNat ≤ 32767)

/-- A finalized tally as LATEST TALLY takes it (R100). -/
def OpenTally.finalized (t : OpenTally) : LatestTally where
  planSequence := t.planSequence
  n := t.n
  empty := t.empty
  success := t.success
  collided := t.collided
  used := false

namespace State

/-- A tally whose OUTSTANDING is 0 is offered to LATEST TALLY (R100). It has left OPEN TALLIES. -/
def offerTally (s : State) (c : ChanNo) (t : OpenTally) : State :=
  match (s.contentionOf c).latest with
  | none =>
    (s.putContention c { s.contentionOf c with latest := some t.finalized }).count c .talliesFinalized 1
  | some l =>
    if laterSequence t.planSequence l.planSequence then
      let u := (s.putContention c { s.contentionOf c with latest := some t.finalized }).count c .talliesFinalized 1
      if l.used then u else u.count c .tallySuperseded 1
    else s.count c .tallyStale 1

/-- A departing plan opens its tally; with no REQUEST element it is finalized in the departure event (R97). -/
def openTally (s : State) (c : ChanNo) (q : PlanSeq) (n elements : Nat) : State :=
  let t : OpenTally :=
    { planSequence := q, n := n, outstanding := elements, empty := 0, success := 0, collided := 0 }
  if elements = 0 then s.offerTally c t
  else s.putContention c { s.contentionOf c with openTallies := (s.contentionOf c).openTallies ++ [t] }

/-- The open tally of plan `q` with a report added to it (R99). -/
def reported (t : OpenTally) (e su co : Nat) : OpenTally :=
  { t with
    empty := t.empty + e, success := t.success + su, collided := t.collided + co
    outstanding := t.outstanding - 1 }

/-- A tally report: the entry's PLAN SEQUENCE and its EMPTY or UNREPORTED, SUCCESS and COLLIDED openings (R99). -/
def reportTally (s : State) (c : ChanNo) (q : PlanSeq) (e su co : Nat) : State :=
  let s := ((s.count c .openingsEmpty e).count c .openingsSuccess su).count c .openingsCollided co
  match (s.contentionOf c).openTallies.find? (fun t => t.planSequence == q) with
  | none => s
  | some t =>
    if (reported t e su co).outstanding = 0 then
      (s.putContention c
        { s.contentionOf c with
          openTallies := (s.contentionOf c).openTallies.eraseP (fun u => u.planSequence == q) }).offerTally c
        (reported t e su co)
    else
      s.putContention c
        { s.contentionOf c with
          openTallies :=
            replaceFirst (fun u => u.planSequence == q) (fun u => reported u e su co)
              (s.contentionOf c).openTallies }

/-- The adaptation at the beginning of a build, from an unused LATEST TALLY (R102). -/
def adapt (s : State) (c : ChanNo) : State :=
  match (s.contentionOf c).latest with
  | none => s
  | some t =>
    if t.used then s
    else
      (s.putContention c
        { s.contentionOf c with
          target := adaptedTarget (s.params c) (s.contentionOf c).target (adaptation t)
          backoffStart := adaptedBackoff (s.params c) (s.contentionOf c).backoffStart (adaptation t)
          latest := some { t with used := true } }).count c (adaptation t).counter 1

/-- The restart at CHANNEL-START (R96). -/
def restartContention (s : State) (c : ChanNo) : State :=
  s.putContention c
    { s.contentionOf c with
      target := (s.params c).nmin, backoffStart := (s.params c).backoffFloor, latest := none }

end State

end Sys2Proof.Machine
end

