-- ==== Sys2Proof/Machine/Builder.lean ====
section
/-! DEFINITION. The Plan Builder: the build queue, the timeline and the steps of a build (chapters 4 to 7). -/

namespace Sys2Proof.Machine

/-! ## The timeline (R65 to R67) -/

/-- First-fit placement of `n` beats: the offset taken and the spans left (R65). -/
def firstFit (n : Nat) : List Span → Option (Nat × List Span)
  | [] => none
  | p :: r =>
    if n ≤ p.length then
      some (p.offset, if p.length = n then r else { offset := p.offset + n, length := p.length - n } :: r)
    else
      match firstFit n r with
      | some (o, q) => some (o, p :: q)
      | none => none

/-- A span of `length` beats from `offset`, or none of zero length (R65). -/
def spanIf (offset length : Nat) : List Span := if length = 0 then [] else [{ offset := offset, length := length }]

/-- Windowed placement of `[o, o + n)`, which must lie wholly within one span: the spans left (R65). -/
def cutWindow (o n : Nat) : List Span → Option (List Span)
  | [] => none
  | p :: r =>
    if p.offset ≤ o ∧ o + n ≤ p.offset + p.length then
      some (spanIf p.offset (o - p.offset) ++ spanIf (o + n) (p.offset + p.length - (o + n)) ++ r)
    else (cutWindow o n r).map (fun q => p :: q)

/-- The length of the longest free span, or 0 (R65). -/
def largestSpan (q : List Span) : Nat := q.foldl (fun m p => max m p.length) 0

/-- Two touching REQUEST elements as one (R67). -/
def mergeTwo (a b : Element) : Option Element :=
  match a.body, b.body with
  | .request m, .request n =>
    if a.offset + a.length = b.offset then
      some { offset := a.offset, length := a.length + b.length, body := .request (m + n) }
    else none
  | _, _ => none

/-- An element list in which every run of touching REQUEST elements is one element (R67). -/
def mergeRequests (q : List Element) : List Element :=
  q.foldr
    (fun e r =>
      match r with
      | [] => [e]
      | f :: t =>
        match mergeTwo e f with
        | some g => g :: t
        | none => e :: f :: t)
    []

/-- HOLD elements stand after every timed element (section 4.2). -/
def Element.isHold (e : Element) : Bool :=
  match e.body with
  | .hold _ _ => true
  | _ => false

/-- A timed element at its place by rising OFFSET, ahead of the holds, REQUEST elements merged (R64, R67). -/
def addElement (e : Element) (q : List Element) : List Element :=
  mergeRequests (insertBy (fun a b => b.isHold || decide (a.offset < b.offset)) e q)

/-- The budget of R66, with the counts as they stand after the placement. -/
def withinBudget (elements : List Element) (spans : List Span) : Bool :=
  decide (elements.length + 2 * spans.length ≤ Config.maxElements)

/-- The REQUEST and IDLE elements that closing makes of a span (R74). -/
def closeSpan (rb : Nat) (p : Span) : List Element :=
  (if p.length / rb = 0 then []
    else [{ offset := p.offset, length := p.length / rb * rb, body := .request (p.length / rb) }]) ++
    (if p.length % rb = 0 then []
    else [{ offset := p.offset + p.length / rb * rb, length := p.length % rb, body := .idle }])

/-- The span conversion of closing: every free span, in ascending order, turned into elements (R74). -/
def closeSpans (rb : Nat) (spans : List Span) (q : List Element) : List Element :=
  spans.foldl (fun r p => (closeSpan rb p).foldl (fun t e => addElement e t) r) q

/-! ## Plan halves (R122) -/

/-- The other half. -/
def HalfName.other : HalfName → HalfName
  | .h0 => .h1
  | .h1 => .h0

/-- The half of a name. -/
def PlanStore.half (p : PlanStore) : HalfName → PlanRecord
  | .h0 => p.h0
  | .h1 => p.h1

/-- Write the half of a name. -/
def PlanStore.putHalf (p : PlanStore) (h : HalfName) (x : PlanRecord) : PlanStore :=
  match h with
  | .h0 => { p with h0 := x }
  | .h1 => { p with h1 := x }

/-- The emit half's plan (R122). -/
def PlanStore.emitPlan (p : PlanStore) : PlanRecord := p.half p.emitHalf

/-- The build half's plan (R122). -/
def PlanStore.buildPlan (p : PlanStore) : PlanRecord := p.half p.emitHalf.other

namespace State

/-- The build half of channel `c` (R122). -/
def buildHalf (s : State) (c : ChanNo) : PlanRecord := (s.planStore c).buildPlan

/-- Write the build half of channel `c`. -/
def putBuildHalf (s : State) (c : ChanNo) (x : PlanRecord) : State :=
  s.putPlanStore c ((s.planStore c).putHalf (s.planStore c).emitHalf.other x)

/-- The emit half of channel `c`. -/
def emitHalfPlan (s : State) (c : ChanNo) : PlanRecord := (s.planStore c).emitPlan

/-! ## The build queue (R61, R62) -/

/-- A request that joins goes ahead of `r`: `r` has more units remaining, or as many and a higher channel (R61). -/
def requestAhead (s : State) (x r : BuildRequest) : Bool :=
  decide (s.unitsUntil x.channel x.emitTime < s.unitsUntil r.channel r.emitTime) ||
    (s.unitsUntil x.channel x.emitTime == s.unitsUntil r.channel r.emitTime && decide (x.channel < r.channel))

/-- A build request joins the queue and the BUILD CONDITION becomes QUEUED (R61). -/
def queueBuild (s : State) (x : BuildRequest) : State :=
  (s.putBuildQueue (insertBy s.requestAhead x s.buildQueue)).putBuildCondition x.channel .queued

/-- The request of channel `c`, if any, is removed from the queue. -/
def unqueueBuild (s : State) (c : ChanNo) : State :=
  s.putBuildQueue (s.buildQueue.filter (fun r => r.channel != c))

/-! ## Beginning a build (R63) -/

/-- An ARMED PROFILE is applied (R16). -/
def applyProfile (s : State) (c : ChanNo) : State :=
  match (s.context c).armedProfile with
  | none => s
  | some p =>
    s.putContext c
      { s.context c with
        activePage := { (s.context c).activePage with profile := p }
        armedProfile := none
        profileNumber := (s.context c).profileNumber + 1 }

/-- The header of R63, step 3, over the elements `q` with READY `r`: an AUTOMATIC half has been emptied, a DIRECTED
half keeps what it holds. -/
def begunHeader (s : State) (c : ChanNo) (q : List Element) (r : Bool) : PlanRecord where
  start := (s.context c).nextStart
  planSequence := none
  profileNumber := (s.context c).profileNumber
  requestMark := vget s.requestMarks c
  backoffStart := (s.contentionOf c).backoffStart
  backoffEnd := (s.params c).backoffCeiling
  cut := false
  fallback := false
  idle := false
  elements := q
  ready := r

/-- The build context at the beginning of a build (R63, step 4). LEVEL, ROUND REMAINING and ROUND PLACED, which the manual
gives only in stage 3, begin as 7, 0 and no (assumption 32). -/
def begunContext (s : State) (c : ChanNo) : BuildContext where
  channel := c
  start := (s.context c).nextStart
  cadenceSequence := (s.context c).planSequence
  freeSpans := [{ offset := 0, length := (s.params c).planLength }]
  level := 7
  roundRemaining := 0
  roundPlaced := false
  phase := .timing

/-- The steps that begin the build of channel `c` (R63). A DIRECTED build ends at once. -/
def beginBuild (s : State) (c : ChanNo) : State :=
  let t := (s.applyProfile c).adapt c
  match (t.params c).sourceMode with
  | .automatic =>
    ((t.putBuildHalf c (t.begunHeader c [] false)).putBuildCondition c .underBuild).putEngine
      (some (t.begunContext c))
  | .directed =>
    (t.putBuildHalf c (t.begunHeader c (t.buildHalf c).elements (t.buildHalf c).ready)).putBuildCondition c .none

/-- An IDLE engine takes the request at the head of the build queue (R62). -/
def takeRequest (s : State) : State :=
  match s.engine, s.buildQueue with
  | none, r :: q => (s.putBuildQueue q).beginBuild r.channel
  | _, _ => s

/-- The engine takes requests until it is BUILDING or none is left (R62): a DIRECTED build ends at once, so it may
take several. At most eight wait (R61). -/
def takeRequests : Nat → State → State
  | 0, s => s
  | k + 1, s => if s.engine.isNone && !s.buildQueue.isEmpty then takeRequests k s.takeRequest else s

/-! ## Ends of a build -/

/-- The build of `b` is complete (R75). -/
def completeBuild (s : State) (b : BuildContext) : State :=
  ((s.putEngine none).putBuildCondition b.channel .complete).count b.channel .plansBuilt 1

/-- The reading for holds has come to its end, or the plan holds 240 elements (R75). -/
def holdsOver (s : State) (b : BuildContext) : Bool :=
  match b.phase with
  | .holds l i =>
    decide (Config.maxElements ≤ (s.buildHalf b.channel).elements.length) || (nextHold s b.channel l i).isNone
  | _ => false

/-- The build moved past everything that is finished as the state stands; complete when nothing is left. -/
def advanceBuild (s : State) : State :=
  match s.engine with
  | none => s
  | some b => if s.holdsOver (b.advance s) then s.completeBuild (b.advance s) else s.putEngine (some (b.advance s))

/-- Write the context of the build under way. -/
def putBuild (s : State) (b : BuildContext) : State := s.putEngine (some b)

/-! ## Placement -/

/-- A placement into the plan under build: its element and the spans left. -/
def place (s : State) (b : BuildContext) (e : Element) (spans : List Span) : State :=
  (s.putBuildHalf b.channel
      { s.buildHalf b.channel with elements := addElement e (s.buildHalf b.channel).elements }).putBuild
    { b with freeSpans := spans }

/-- First-fit placement of an element of `n` beats under the budget: none where it does not fit (R65, R66). The
context written is `b` with the spans left. -/
def placeFirstFit (s : State) (b : BuildContext) (n : Nat) (body : ElementBody) : Option State :=
  match firstFit n b.freeSpans with
  | none => none
  | some (o, spans) =>
    if withinBudget
        (addElement { offset := o, length := n, body := body } (s.buildHalf b.channel).elements) spans then
      some (s.place b { offset := o, length := n, body := body } spans)
    else none

/-- The first position of a regular periodic turn, from `p` on and at most `k` beats later (R90). -/
def searchWindow (s : State) (b : BuildContext) (n : Nat) (body : ElementBody) (p : Nat) : Nat → Option State
  | 0 => tryAt p
  | k + 1 =>
    match tryAt p with
    | some t => some t
    | none => searchWindow s b n body (p + 1) k
where
  /-- The placement at one position: within the plan, within one free span, and within the budget. -/
  tryAt (p : Nat) : Option State :=
    if p + n ≤ (s.params b.channel).planLength then
      match cutWindow p n b.freeSpans with
      | none => none
      | some spans =>
        if withinBudget
            (addElement { offset := p, length := n, body := body } (s.buildHalf b.channel).elements) spans then
          some (s.place b { offset := p, length := n, body := body } spans)
        else none
    else none

/-! ## Stage 1, groups 1 and 2 (chapter 5) -/

/-- A waiting flow is timed (R88). -/
def timeFlow (s : State) (start : Beat) (f : FlowNo) : State :=
  s.putFlow f { s.flow f with nextNominal := some (start + beats32 (s.flow f).phase) }

/-- The periods by which a nominal before `start` is brought forward (R89); 0 for any other. -/
def lapsedPeriods (f : Flow) (start : Beat) : Nat :=
  match f.nextNominal with
  | some n => if before n start then ceilDiv (start - n).toNat f.period else 0
  | none => 0

/-- A flow with its NEXT NOMINAL advanced by `k` periods (R89, R90). -/
def advancedNominal (f : Flow) (k : Nat) : Flow :=
  { f with nextNominal := f.nextNominal.map (fun n => n + beats32 (k * f.period)) }

/-- A TIMED flow is brought forward to the plan's START or after (R89). -/
def bringForward (s : State) (c : ChanNo) (start : Beat) (f : FlowNo) : State :=
  (s.putFlow f (advancedNominal (s.flow f) (lapsedPeriods (s.flow f) start))).count c .periodicLapsed
    (lapsedPeriods (s.flow f) start)

/-- The beginning of group 1: waiting flows are timed, nominals left behind are brought forward (R88, R89). -/
def timeCalendar (s : State) (c : ChanNo) (start : Beat) : State :=
  let t := (s.calendar c).waiting.foldl (fun t f => t.timeFlow start f) s
  let q := (s.calendar c).timed ++ (s.calendar c).waiting
  let u := q.foldl (fun u f => u.bringForward c start f) t
  u.putCalendar c { waiting := [], timed := u.sortTimed q }

/-- PERIODIC_TIMING. -/
def periodicTimingStep (s : State) : State :=
  match s.engine with
  | none => s
  | some b =>
    if b.phase = .timing then
      ((s.timeCalendar b.channel b.start).putBuild { b with phase := .walk }).advanceBuild
    else s

/-- The examined flow's nominal advances by its PERIOD and the flow takes its new position (R90). -/
def advanceHead (s : State) (c : ChanNo) (f : FlowNo) : State :=
  let t := s.putFlow f (advancedNominal (s.flow f) 1)
  t.putCalendar c
    { t.calendar c with timed := insertBy t.timedAhead f ((t.calendar c).timed.erase f) }

/-- The STATION a flow's element names: the flow's STATION at the moment of placement (R64). -/
def stationOf (s : State) (f : FlowNo) : StationNo := (s.flow f).station.getD 0

/-- One step of the walk over the flow `f` at the head (R90, R91). -/
def walkStep (s : State) (b : BuildContext) (f : FlowNo) : State :=
  match s.searchWindow b (s.flow f).turnBeats (.periodic (s.stationOf f) f)
      ((s.nominalOffset b.start f).getD 0) (s.flow f).jitter with
  | some t => (t.count b.channel .periodicPlaced 1).advanceHead b.channel f
  | none =>
    ((s.count b.channel .periodicMiss 1).raise
        (.periodicMiss .noRoom b.channel f (s.stationOf f) (s.flow f).nextNominal)).advanceHead b.channel f

/-- PERIODIC_WALK. -/
def periodicWalkStep (s : State) : State :=
  let s := s.advanceBuild
  match s.engine with
  | none => s
  | some b =>
    if b.phase = .walk then
      match s.walkHead b with
      | some f => (s.walkStep b f).advanceBuild
      | none => s
    else s

/-- EXTRA_TURN: the first flow left to examine that owes an extra (R93). -/
def extraTurnStep (s : State) : State :=
  let s := s.advanceBuild
  match s.engine with
  | none => s
  | some b =>
    match b.phase with
    | .extras (f :: r) =>
      (match s.placeFirstFit { b with phase := .extras r } (s.flow f).turnBeats (.periodic (s.stationOf f) f) with
      | some t =>
        (t.putFlow f { t.flow f with extrasOwed := (t.flow f).extrasOwed - 1 }).count b.channel .periodicPlaced 1
      | none => (s.putBuild { b with phase := .extras r }).count b.channel .extraDeferred 1).advanceBuild
    | _ => s

/-! ## Stage 1, groups 3 and 4 (chapters 6 and 7) -/

/-- JOIN_OPENING (R104). -/
def joinOpeningStep (s : State) : State :=
  let s := s.advanceBuild
  match s.engine with
  | none => s
  | some b =>
    if b.phase = .join then
      match s.placeFirstFit b (s.params b.channel).joinLength .join with
      | some t =>
        let u := t.count b.channel .joinOffered 1
        (u.putEngine (u.engine.map (fun b => b.enterPolls u))).advanceBuild
      | none =>
        let u := s.count b.channel .joinDropped 1
        (u.putBuild (b.enterPolls u)).advanceBuild
    else s

/-- A station's POLL element is placed first-fit (R112, step 3). -/
def placePoll (s : State) (b : BuildContext) (n : StationNo) : Option State :=
  s.placeFirstFit b (s.params b.channel).pollLength (.poll n)

/-- The station at the head of the poll queue of channel `c` leaves it, and IN POLL QUEUE becomes no (R112, step 1). `q` is
the queue behind it. -/
def takePolled (s : State) (c : ChanNo) (n : StationNo) (q : List StationNo) : State :=
  (s.putPollQueue c q).putStation n { s.station n with inPollQueue := false }

/-- POLL_QUEUE_TAKE: one station from the head of the poll queue (R112). A station taken in this group and enqueued again by
an event during it can come to the head once more, where a station ahead of it is removed. R112 gives the taking of the
head, and says that the group never meets a station twice: that the model then takes the station again, without looking at
those already chosen, is a DESIGN CHOICE (assumption 34). -/
def pollQueueTakeStep (s : State) : State :=
  let s := s.advanceBuild
  match s.engine with
  | none => s
  | some b =>
    match b.phase, s.pollQueue b.channel with
    | .polls left chosen, n :: q =>
      let t := s.takePolled b.channel n q
      (match t.placePoll { b with phase := .polls (left - 1) (n :: chosen) } n with
      | some u => u.count b.channel .pollsPlaced 1
      | none =>
        let u := (t.pollEnqueue n).count b.channel .pollsDeferred 1
        u.putBuild (b.enterOpenings u)).advanceBuild
    | _, _ => s

/-- The station number after `n`, modulo 8,192 (R113). -/
def nextStation (n : StationNo) : StationNo := n + 1

/-- The sweep chooses the station it examines (R113). -/
def sweepChooses (s : State) (b : BuildContext) (n : StationNo) (chosen : List StationNo) : Bool :=
  s.pollDue b.channel b.start n && !(s.station n).inPollQueue && !chosen.contains n

/-- SWEEP: one record examined, the SWEEP POINTER then after it (R113). That the pointer moves with each record, and so
stays moved when an abrupt stop abandons the build in mid-sweep, is the model's choice (assumption 33). -/
def sweepStep (s : State) : State :=
  let s := s.advanceBuild
  match s.engine with
  | none => s
  | some b =>
    match b.phase with
    | .sweep examined chosen =>
      let n := s.sweepPointer b.channel
      let t := s.putSweepPointer b.channel (nextStation n)
      (if s.sweepChooses b n chosen then
        match t.placePoll { b with phase := .sweep (examined + 1) (n :: chosen) } n with
        | some u => u.count b.channel .pollsPlaced 1
        | none =>
          let u := t.count b.channel .pollsDeferred 1
          u.putBuild (b.enterOpenings u)
      else t.putBuild { b with phase := .sweep (examined + 1) chosen }).advanceBuild
    | _ => s

/-! ## Stages 2 to 4 (chapter 4) -/

/-- REQUEST_OPENING_PLACE: one opening of stage 2 (R69). -/
def requestOpeningStep (s : State) : State :=
  let s := s.advanceBuild
  match s.engine with
  | none => s
  | some b =>
    match b.phase with
    | .openings left =>
      (match s.placeFirstFit { b with phase := .openings (left - 1) } (s.params b.channel).requestLength (.request 1) with
      | some t => t
      | none => s.putBuild (b.enterVisits s levelsDown)).advanceBuild
    | _ => s

/-- The flow at a visit, its bucket brought up to date and its DEFICIT raised (R71, steps 1 and 2). -/
def visitedFlow (s : State) (b : BuildContext) (f : FlowNo) : Flow :=
  let x := (s.flow f).bucketUpdate b.start
  { x with
    deficit := min Config.maxDeficit (x.deficit + (s.classOf f).weight * (s.params b.channel).quantum) }

/-- The need of a visited flow in beats (R71, step 3). -/
def visitNeed (s : State) (b : BuildContext) (f : FlowNo) : Nat :=
  burstBeats (s.profile b.channel) (s.visitedFlow b f).demand

/-- The turn g of a visit (R71, step 4). -/
def visitTurn (s : State) (b : BuildContext) (f : FlowNo) : Nat :=
  min (min (s.visitNeed b f) (min (s.classOf f).maxTurn (s.params b.channel).maxBurst))
    (min (s.visitedFlow b f).deficit (largestSpan b.freeSpans))

/-- The visit places a turn (R72). -/
def visitPlaces (s : State) (b : BuildContext) (f : FlowNo) : Bool :=
  decide (1 ≤ s.visitTurn b f) &&
    (s.visitTurn b f == s.visitNeed b f || decide ((s.classOf f).minTurn ≤ s.visitTurn b f))

/-- After a visit the flow leaves its list if its BACKLOG is 0 and otherwise moves to the tail (R59, R72). -/
def endVisit (s : State) (c : ChanNo) (l : Level) (f : FlowNo) : State :=
  if (s.flow f).backlog = 0 then s.delist c f else s.moveToTail c l f

/-- The flow after a data turn of the visit (R72, steps 1 to 3). -/
def servedFlow (s : State) (b : BuildContext) (f : FlowNo) : Flow :=
  let x := (s.visitedFlow b f).charged (turnCharge (s.profile b.channel) (s.visitedFlow b f) (s.visitTurn b f))
  { x with deficit := x.deficit - s.visitTurn b f, fresh := false }

/-- The DATA element of a visit (R72). -/
def visitElement (s : State) (b : BuildContext) (f : FlowNo) : ElementBody :=
  .data (s.stationOf f) f
    (some (turnCharge (s.profile b.channel) (s.visitedFlow b f) (s.visitTurn b f)))

/-- The context after a visit, whatever its outcome: ROUND REMAINING is lower by one (R70). -/
def visitCounted (b : BuildContext) : BuildContext := { b with roundRemaining := b.roundRemaining - 1 }

/-- One visit of stage 3 to the flow `f` at the head of LEVEL (R70 to R73). A turn that the budget refuses is a visit
too; it ends stage 3 (R73). -/
def visit (s : State) (b : BuildContext) (f : FlowNo) : State :=
  let skipped := s.putFlow f (s.visitedFlow b f)
  if s.visitPlaces b f then
    match s.placeFirstFit { visitCounted b with roundPlaced := true } (s.visitTurn b f) (s.visitElement b f) with
    | some t => (t.putFlow f (s.servedFlow b f)).endVisit b.channel b.level f
    | none => (skipped.putBuild { visitCounted b with phase := .closing }).moveToTail b.channel b.level f
  else (skipped.putBuild (visitCounted b)).endVisit b.channel b.level f

/-- FLOW_VISIT. -/
def flowVisitStep (s : State) : State :=
  let s := s.advanceBuild
  match s.engine with
  | none => s
  | some b =>
    match b.phase, s.active b.channel b.level with
    | .visits, f :: _ => (s.visit b f).advanceBuild
    | _, _ => s

/-- CLOSING: the span conversion; the reading for holds then begins at level 7 (R74, R75). -/
def closingStep (s : State) : State :=
  let s := s.advanceBuild
  match s.engine with
  | none => s
  | some b =>
    if b.phase = .closing then
      ((s.putBuildHalf b.channel
          { s.buildHalf b.channel with
            elements :=
              closeSpans (s.params b.channel).requestLength b.freeSpans (s.buildHalf b.channel).elements }).putBuild
        { b with freeSpans := [], phase := .holds 7 0 }).advanceBuild
    else s

/-- A HOLD element for flow `f` at the end of the plan under build, FRESH becoming no (R75). -/
def appendHold (s : State) (c : ChanNo) (f : FlowNo) : State :=
  (s.putBuildHalf c
      { s.buildHalf c with
        elements := (s.buildHalf c).elements ++ [{ offset := 0, length := 0, body := .hold (s.stationOf f) f }] }).putFlow
    f { s.flow f with fresh := false }

/-- HOLD_APPEND: one hold (R75). -/
def holdAppendStep (s : State) : State :=
  let s := s.advanceBuild
  match s.engine with
  | none => s
  | some b =>
    match b.phase with
    | .holds l i =>
      match nextHold s b.channel l i with
      | some (m, j, f) =>
        ((s.appendHold b.channel f).putBuild { b with phase := .holds m (j + 1) }).advanceBuild
      | none => s
    | _ => s

end State

end Sys2Proof.Machine
end

