-- ==== Sys2Proof/Machine/Operands.lean ====
section
/-! DEFINITION. The link formats (chapter 11): how fields become bytes, the frames the part sends, the record images
READ returns, and how burst records and control frames are read. -/

namespace Sys2Proof.Machine

/-! ## Bytes (R170) -/

/-- One byte taken into the CRC, most significant bit first (R170). -/
def crcByte (c : BitVec 16) (b : Byte) : BitVec 16 :=
  Nat.repeat (fun x => if x.msb then (x <<< 1) ^^^ 0x1021#16 else x <<< 1) 8 (c ^^^ (b.setWidth 16 <<< 8))

/-- The CRC of section 11.1: polynomial x^16 + x^12 + x^5 + 1, initial value all ones, no final inversion. -/
def crc16 (q : List Byte) : BitVec 16 := q.foldl crcByte 0xffff#16

/-- `v` in `n` bytes, most significant first. -/
def be : Nat → Nat → List Byte
  | 0, _ => []
  | n + 1, v => BitVec.ofNat 8 (v / 2 ^ (8 * n)) :: be n v

/-- A signed quantity in `n` bytes, two's complement. -/
def beInt (n : Nat) (v : Int) : List Byte := be n (v % (2 ^ (8 * n) : Nat)).toNat

/-- The number some bytes hold, most significant first. -/
def ofBe (q : List Byte) : Nat := q.foldl (fun a b => a * 256 + b.toNat) 0

/-- The signed number of `n` bytes, two's complement. -/
def signed (n v : Nat) : Int := if v < 2 ^ (8 * n - 1) then (v : Int) else (v : Int) - (2 ^ (8 * n) : Nat)

/-- A beat in its four bytes. -/
def beBeat (b : Beat) : List Byte := be 4 b.toNat

/-- no and yes as 0 and 1. -/
def boolCode (b : Bool) : Nat := if b then 1 else 0

/-- Presence or flag bits, the first at the least significant bit. -/
def bitsLow : List Bool → Nat
  | [] => 0
  | b :: r => boolCode b + 2 * bitsLow r

/-- An optional field of `n` bytes: an absent field is sent as 0. -/
def beOpt (n : Nat) (v : Option Nat) : List Byte := be n (v.getD 0)

/-- The envelope: TYPE, LENGTH, BODY and CHECK (section 11.1). -/
def envelope (type : Nat) (body : List Byte) : List Byte :=
  let q := be 1 type ++ be 2 body.length ++ body
  q ++ be 2 (crc16 q).toNat

/-! ## Enumerations (R170): 0, 1, 2 … in the order of their tables -/

def ChannelState.code : ChannelState → Nat
  | .stopped => 0
  | .running => 1
  | .draining => 2

def DrainMark.code : DrainMark → Nat
  | .none => 0
  | .beforeFinalSwap => 1
  | .afterFinalSwap => 2

def SourceMode.code : SourceMode → Nat
  | .automatic => 0
  | .directed => 1

def StationState.code : StationState → Nat
  | .free => 0
  | .aligning => 1
  | .parked => 2
  | .online => 3
  | .lost => 4

def PolicySelect.code : PolicySelect → Nat
  | .a => 0
  | .b => 1

def FlowState.code : FlowState → Nat
  | .idle => 0
  | .held => 1
  | .active => 2

def FlowKind.code : FlowKind → Nat
  | .elastic => 0
  | .periodic => 1

def BurstOutcome.code : BurstOutcome → Nat
  | .clean => 0
  | .repaired => 1
  | .collided => 2
  | .damaged => 3
  | .empty => 4

def StrayCause.code : StrayCause → Nat
  | .noEntry => 0
  | .misaligned => 1
  | .reported => 2
  | .misplaced => 3

def PeriodicCause.code : PeriodicCause → Nat
  | .noRoom => 0
  | .calendarFull => 1

def StopMode.code : StopMode → Nat
  | .orderly => 0
  | .abrupt => 1

/-- The response codes, DONE 0 … TOO-LATE 11 (section 11.4). -/
def Code.code : Code → Nat
  | .done => 0
  | .busy => 1
  | .malformed => 2
  | .unknownOp => 3
  | .badTable => 4
  | .badIndex => 5
  | .badField => 6
  | .badValue => 7
  | .state => 8
  | .full => 9
  | .layout => 10
  | .tooLate => 11

/-! ## Frames the part sends (sections 11.3 and 11.4) -/

/-- The KIND byte, and the two pairs of bytes for STATION or OPENINGS and for FLOW. -/
def ElementBody.codes : ElementBody → Nat × Nat × Nat
  | .data n f _ => (0, n.val, f.val)
  | .periodic n f => (1, n.val, f.val)
  | .poll n => (2, n.val, 0)
  | .join => (3, 0, 0)
  | .request k => (4, k, 0)
  | .idle => (5, 0, 0)
  | .hold n f => (6, n.val, f.val)

/-- An element in its 9 bytes; the CHARGE is not sent (R128). -/
def Element.bytes (e : Element) : List Byte :=
  be 1 e.body.codes.1 ++ be 2 e.offset ++ be 2 e.length ++ be 2 e.body.codes.2.1 ++ be 2 e.body.codes.2.2

/-- The plan frame of channel `c` (section 11.3); READY is not sent (R128). -/
def planFrame (c : ChanNo) (p : PlanRecord) : List Byte :=
  envelope 2
    (be 1 c.val ++ beBeat p.start ++ be 2 ((p.planSequence.map (fun q => q.toNat)).getD 0) ++
      be 1 p.profileNumber.toNat ++ be 1 (bitsLow [p.cut, p.fallback, p.idle, p.requestMark.isSome]) ++
      beOpt 4 (p.requestMark.map (fun b => b.toNat)) ++ be 1 p.backoffStart ++ be 1 p.backoffEnd ++
      be 1 p.elements.length ++ p.elements.flatMap Element.bytes)

/-- The adjust frame of an entry (section 11.3). -/
def adjustFrame (a : AdjustEntry) : List Byte :=
  envelope 3
    (be 2 a.station.val ++ be 1 a.channel.val ++ beInt 3 a.timingStep ++ beInt 2 a.powerStep ++
      be 1 (boolCode a.aligned))

/-- The upstream data unit frame (section 11.4). -/
def forwardFrame (u : ForwardUnit) : List Byte :=
  envelope 4
    (be 1 u.channel.val ++ beBeat u.start ++ be 2 u.station.val ++ be 1 (bitsLow [u.flow.isSome]) ++
      beOpt 2 (u.flow.map (fun f => f.val)) ++ be 2 u.data.length ++ u.data)

/-- The details of an occurrence, opened by a PRESENCE byte when the kind has an optional detail (section 11.4). -/
def NoticeDetail.bytes : NoticeDetail → List Byte
  | .stationLost n h c => be 2 n.val ++ be 6 h.toNat ++ be 1 c.val
  | .planWithdrawn c q b r f => be 1 c.val ++ be 2 q.toNat ++ beBeat b ++ be 1 r ++ be 1 f
  | .planCut c b stage => be 1 c.val ++ beBeat b ++ beOpt 1 stage
  | .newcomer n h c => be 2 n.val ++ be 6 h.toNat ++ be 1 c.val
  | .stationTableFull h c => be 6 h.toNat ++ be 1 c.val
  | .stationOnline n c => be 2 n.val ++ be 1 c.val
  | .periodicMiss cause c f n nominal =>
    be 1 (bitsLow [nominal.isSome]) ++ be 1 cause.code ++ be 1 c.val ++ be 2 f.val ++ be 2 n.val ++
      beOpt 4 (nominal.map (fun b => b.toNat))
  | .strayBurst c b o n cause =>
    be 1 (bitsLow [n.isSome]) ++ be 1 c.val ++ beBeat b ++ be 1 o.code ++
      beOpt 2 (n.map (fun x => x.toNat)) ++ be 1 cause.code
  | .forwardDrop c b n f =>
    be 1 (bitsLow [f.isSome]) ++ be 1 c.val ++ beBeat b ++ be 2 n.val ++ beOpt 2 (f.map (fun x => x.val))
  | .adjustDrop n c t p a =>
    be 2 n.val ++ be 1 c.val ++ beInt 3 t ++ beInt 2 p ++ be 1 (boolCode a)
  | .channelStopped c m => be 1 c.val ++ be 1 m.code

/-- The notice frame of a pending record: KIND by its priority, COUNT, details (section 11.4). -/
def noticeFrame (p : PendingNotice) : List Byte :=
  envelope 5 (be 1 (p.detail.kind.index.val + 1) ++ be 2 p.count ++ p.detail.bytes)

/-- The response frame (section 11.4). -/
def responseFrame (r : Response) : List Byte :=
  envelope 6 (be 2 r.tag.toNat ++ [r.operation] ++ be 1 r.code.code ++ r.results)

/-! ## Record images (section 11.1) -/

/-- A measurement, inline. -/
def Measurement.bytes (m : Measurement) : List Byte := beInt 2 m.timing ++ beInt 1 m.power ++ be 1 m.quality

/-- The station record's image, with the fields of R20. -/
def stationImage (n : StationNo) (x : Station) : List Byte :=
  be 1 (bitsLow [x.hardwareId.isSome, x.lastGood.isSome, x.lastMeasurement.isSome]) ++
    be 2 n.val ++ be 1 x.state.code ++ be 1 (boolCode x.admitted) ++
    beOpt 6 (x.hardwareId.map (fun h => h.toNat)) ++ be 1 x.channel.val ++ be 1 x.policySelect.code ++
    be 1 x.flowList.length ++ x.flowList.flatMap (fun f => be 2 f.val) ++ be 1 x.missCount ++
    beOpt 4 (x.lastGood.map (fun b => b.toNat)) ++ beInt 3 x.timingTotal ++ beInt 1 x.powerTotal ++
    ((x.lastMeasurement.map Measurement.bytes).getD (be 4 0)) ++ be 1 (boolCode x.inPollQueue)

/-- The flow record's image, with the fields of R38. -/
def flowImage (f : FlowNo) (x : Flow) : List Byte :=
  be 1 (bitsLow [x.station.isSome, x.credit.isSome, x.fillAnchor.isSome, x.listLevel.isSome, x.nextNominal.isSome]) ++
    be 2 f.val ++ be 1 x.state.code ++ beOpt 2 (x.station.map (fun n => n.val)) ++ be 1 x.kind.code ++
    be 1 x.cls.val ++ be 3 x.rate ++ be 3 x.depth ++ beOpt 3 x.credit ++ be 2 x.residue ++
    beOpt 4 (x.fillAnchor.map (fun b => b.toNat)) ++ be 3 x.backlog ++ be 2 x.deficit ++
    beOpt 1 (x.listLevel.map (fun l => l.val)) ++ be 1 (boolCode x.fresh) ++ be 1 x.turnBeats ++
    be 2 x.period ++ be 1 x.jitter ++ be 2 x.phase ++ beOpt 4 (x.nextNominal.map (fun b => b.toNat)) ++
    be 1 x.extrasOwed

/-- The policy class's image, with the fields of R47. -/
def classImage (x : PolicyClass) : List Byte :=
  be 1 x.priority.val ++ be 1 x.weight ++ be 2 x.maxTurn ++ be 1 x.minTurn ++ be 1 (boolCode (!x.holdsEnabled))

/-- The CHANNEL-PENDING image: the parameters of R3, then the profile of R5. -/
def pageImage (x : Page) : List Byte :=
  be 2 x.params.beatLength ++ be 2 x.params.planLength ++ be 2 x.params.lead ++ be 2 x.params.settle ++
    be 2 x.params.flightMargin ++ be 1 x.params.sourceMode.code ++ be 1 x.params.quantum ++
    be 2 x.params.maxBurst ++ be 1 x.params.requestLength ++ be 1 x.params.joinLength ++
    be 1 x.params.joinCadence ++ be 1 x.params.pollLength ++ be 1 x.params.pollLimit ++
    be 4 x.params.maintenancePeriod ++ be 1 x.params.missLimit ++ be 1 x.params.nmin ++ be 1 x.params.nmax ++
    be 1 x.params.backoffFloor ++ be 1 x.params.backoffCeiling ++ be 2 x.params.timingTolerance ++
    be 1 x.params.powerTolerance ++ be 1 x.params.maxPowerStep ++
    be 2 x.profile.symbolsPerBeat ++ be 1 x.profile.bitsPerSymbol ++ be 1 x.profile.infoBytes ++
    be 1 x.profile.parityBytes ++ be 1 (boolCode (!x.profile.shortenedAllowed)) ++
    be 2 x.profile.preambleSymbols ++ be 2 x.profile.guardSymbols

/-- A tally record, inline: PLAN SEQUENCE, N, E, S, C and USED (R170). -/
def LatestTally.bytes (t : LatestTally) : List Byte :=
  be 2 t.planSequence.toNat ++ be 2 t.n ++ be 2 t.empty ++ be 2 t.success ++ be 2 t.collided ++
    be 1 (boolCode t.used)

/-- The CHANNEL-ACTIVE image: the fields of R1 it returns, then the contention fields (R1, R95). -/
def channelImage (x : ChannelContext) (k : Contention) : List Byte :=
  be 1 (bitsLow [k.latest.isSome]) ++
    be 1 x.state.code ++ be 1 x.drainMark.code ++ be 4 x.epoch.toNat ++ beBeat x.currentBeat ++
    be 2 x.beatPhase ++ beBeat x.nextStart ++ be 2 x.planSequence.toNat ++ be 1 x.profileNumber.toNat ++
    pageImage x.activePage ++ be 1 (boolCode x.armedProfile.isSome) ++ be 1 k.target ++ be 1 k.backoffStart ++
    be 1 x.activePage.params.backoffCeiling ++ ((k.latest.map LatestTally.bytes).getD (be 11 0))

/-- A stray ring entry's image (R150). -/
def strayImage (x : StrayEntry) : List Byte :=
  be 1 (bitsLow [x.stationNamed.isSome, x.stationExpected.isSome]) ++
    be 1 x.channel.val ++ beBeat x.start ++ be 1 x.outcome.code ++
    beOpt 2 (x.stationNamed.map (fun n => n.toNat)) ++ beOpt 2 (x.stationExpected.map (fun n => n.val)) ++
    be 1 x.cause.code ++ be 1 x.units

/-- The DEVICE record's image, with the fields of R162 (assumption 12). -/
def deviceImage (s : State) : List Byte :=
  be 2 (bitsLow (NoticeKind.all.map (fun k => (s.notice k).isSome))) ++
    NoticeKind.all.flatMap (fun k => be 1 (boolCode (!vget s.noticeEnable k.index))) ++
    NoticeKind.all.flatMap (fun k => beOpt 2 ((s.notice k).map (fun p => p.count))) ++
    be 1 s.controlQueue.length ++ be 1 s.responseQueue.length

/-! ## Burst records (sections 11.2, R171) -/

/-- A unit of a burst record (R140). -/
inductive BurstUnit where
  | data (bytes : List Byte)
  | request (flow : FlowNo) (amount : Nat) (station : Option NamedStation)
  | join (hardwareId : HwId)
  | behind
deriving DecidableEq, Repr

/-- A burst record (R140). STATION is what the record says (assumption 10). -/
structure BurstRecord where
  channel     : ChanNo
  start       : Beat
  outcome     : BurstOutcome
  station     : Option NamedStation
  measurement : Option Measurement
  units       : List BurstUnit
deriving DecidableEq, Repr

end Sys2Proof.Machine

namespace Sys2Proof

open Machine

/-- The declared LENGTH of a frame. -/
def RawFrame.declared (f : RawFrame) : Nat := ofBe ((f.bytes.drop 1).take 2)

/-- The BODY bytes received: what stands between LENGTH and CHECK; of a frame broken off, what stands after LENGTH, no
more than LENGTH declares (assumption 17). -/
def RawFrame.body (f : RawFrame) : List Byte :=
  match f.close with
  | .frameEnd => (f.bytes.drop 3).take (f.bytes.length - 5)
  | .frameAbort => (f.bytes.drop 3).take f.declared

/-- CHECK is correct: the last two bytes are the CRC of those before them (section 11.1). -/
def RawFrame.checkHolds (f : RawFrame) : Bool :=
  decide (5 ≤ f.bytes.length) &&
    be 2 (crc16 (f.bytes.take (f.bytes.length - 2))).toNat == f.bytes.drop (f.bytes.length - 2)

/-- The header of a burst record is sound, but for CHANNEL and OUTCOME, which are read with it (R171). -/
def RawFrame.headerSound (f : RawFrame) : Bool :=
  f.bytes.head? == some 1#8 && f.close == .frameEnd && decide (16 ≤ f.body.length) &&
    be 2 (crc16 (f.bytes.take 16)).toNat == (f.bytes.drop 16).take 2

end Sys2Proof

namespace Sys2Proof.Machine

/-- An OUTCOME by its code. -/
def outcomeOf : Nat → Option BurstOutcome
  | 0 => some .clean
  | 1 => some .repaired
  | 2 => some .collided
  | 3 => some .damaged
  | 4 => some .empty
  | _ => none

/-- The data unit at the head of some bytes, after its KIND (section 11.2, R171). -/
def readDataUnit : List Byte → Option (BurstUnit × List Byte)
  | l1 :: l0 :: r =>
    if 1 ≤ ofBe [l1, l0] ∧ ofBe [l1, l0] ≤ 2048 ∧ ofBe [l1, l0] ≤ r.length then
      some (.data (r.take (ofBe [l1, l0])), r.drop (ofBe [l1, l0]))
    else none
  | _ => none

/-- The request unit at the head of some bytes, after its KIND (section 11.2, R171). -/
def readRequestUnit : List Byte → Option (BurstUnit × List Byte)
  | f1 :: f0 :: a2 :: a1 :: a0 :: p :: s1 :: s0 :: r =>
    match asIndex 16384 (ofBe [f1, f0]) with
    | some f =>
      if ofBe [a2, a1, a0] ≤ Config.maxBacklog then
        some (.request f (ofBe [a2, a1, a0])
          (if p.getLsbD 0 then some (BitVec.ofNat 16 (ofBe [s1, s0])) else none), r)
      else none
    | none => none
  | _ => none

/-- The unit at the head of some bytes (section 11.2); none where the body fails (R171). -/
def readUnit : List Byte → Option (BurstUnit × List Byte)
  | [] => none
  | k :: r =>
    match k.toNat with
    | 0 => readDataUnit r
    | 1 => readRequestUnit r
    | 2 => if 6 ≤ r.length then some (.join (BitVec.ofNat 48 (ofBe (r.take 6))), r.drop 6) else none
    | 3 => some (.behind, r)
    | _ => none

/-- Exactly `n` units that fill some bytes exactly (R171). -/
def readUnits : Nat → List Byte → Option (List BurstUnit)
  | 0, [] => some []
  | 0, _ :: _ => none
  | n + 1, q =>
    match readUnit q with
    | none => none
    | some (u, r) => (readUnits n r).map (fun us => u :: us)

/-- The measurement of a record, from BODY offsets 9 to 12. -/
def readMeasurement (body : List Byte) : Measurement where
  timing := signed 2 (ofBe ((body.drop 9).take 2))
  power := signed 1 (ofBe ((body.drop 11).take 1))
  quality := ofBe ((body.drop 12).take 1)

end Sys2Proof.Machine

namespace Sys2Proof

open Machine

/-- The units of a CLEAN or REPAIRED record whose body holds; none where it fails (R171). -/
def RawFrame.bodyUnits (f : RawFrame) : Option (List BurstUnit) :=
  if f.checkHolds ∧ f.declared = f.body.length ∧ (ofBe ((f.body.drop 6).take 1)).testBit 1 then
    readUnits (ofBe ((f.body.drop 15).take 1)) (f.body.drop 16)
  else none

end Sys2Proof

namespace Sys2Proof.Machine

/-- A burst record whose body failed (R171): DAMAGED, with no STATION, no MEASUREMENT and no units. -/
def damagedRecord (c : ChanNo) (b : Beat) : BurstRecord where
  channel := c
  start := b
  outcome := .damaged
  station := none
  measurement := none
  units := []

end Sys2Proof.Machine

namespace Sys2Proof

open Machine

/-- The burst record a frame is taken as; none where its header is not sound and it is discarded (R171). -/
def RawFrame.burstRecord (f : RawFrame) : Option BurstRecord :=
  if f.headerSound then
    match asIndex 8 (ofBe (f.body.take 1)), outcomeOf (ofBe ((f.body.drop 5).take 1)) with
    | some c, some o =>
      let start : Beat := BitVec.ofNat 32 (ofBe ((f.body.drop 1).take 4))
      let station : Option NamedStation :=
        if (ofBe ((f.body.drop 6).take 1)).testBit 0 then some (BitVec.ofNat 16 (ofBe ((f.body.drop 7).take 2)))
        else none
      match o with
      | .clean | .repaired =>
        match f.bodyUnits with
        | some us => some ⟨c, start, o, station, some (readMeasurement f.body), us⟩
        | none => some (damagedRecord c start)
      | .collided | .damaged | .empty => some ⟨c, start, o, station, none, []⟩
    | _, _ => none
  else none

end Sys2Proof

namespace Sys2Proof.Machine

/-! ## Tables and their fields (R158, section 11.1) -/

/-- The size of a field's value. -/
inductive FieldSize where
  | bytes (n : Nat)
  | flowList
deriving DecidableEq, Repr

/-- A field of a table: its size, and its range where WRITE can write it. -/
structure FieldSpec where
  size  : FieldSize
  range : Option (Nat × Nat)
deriving DecidableEq, Repr

/-- A field WRITE cannot write. -/
def fixedField (n : Nat) : FieldSpec := ⟨.bytes n, none⟩

/-- A field WRITE can write, with its range. -/
def openField (n lo hi : Nat) : FieldSpec := ⟨.bytes n, some (lo, hi)⟩

/-- The fields of a table in the order of its rule, which is the order of the MASK (section 11.1). -/
def TableId.fields : TableId → List FieldSpec
  | .station =>
    [fixedField 2, fixedField 1, fixedField 1, fixedField 6, fixedField 1, openField 1 0 1, ⟨.flowList, none⟩,
     fixedField 1, fixedField 4, fixedField 3, fixedField 1, fixedField 4, fixedField 1]
  | .flow =>
    [fixedField 2, fixedField 1, fixedField 2, openField 1 0 1, openField 1 0 7, openField 3 0 1048575,
     openField 3 1 16777215, fixedField 3, fixedField 2, fixedField 4, fixedField 3, fixedField 2, fixedField 1,
     fixedField 1, openField 1 1 255, openField 2 1 65535, openField 1 0 255, openField 2 0 65535, fixedField 4,
     fixedField 1]
  | .policyA | .policyB =>
    [openField 1 0 7, openField 1 1 255, openField 2 1 1023, openField 1 1 255, openField 1 0 1]
  | .channelActive =>
    [fixedField 1, fixedField 1, fixedField 4, fixedField 4, fixedField 2, fixedField 4, fixedField 2, fixedField 1,
     fixedField 42, fixedField 1, fixedField 1, fixedField 1, fixedField 1, fixedField 11]
  | .channelPending =>
    [openField 2 1 4096, openField 2 32 4096, openField 2 2 4095, openField 2 0 4094, openField 2 1 4094,
     openField 1 0 1, openField 1 1 64, openField 2 1 1023, openField 1 1 16, openField 1 1 255, openField 1 0 255,
     openField 1 1 64, openField 1 0 32, openField 4 1024 16777216, openField 1 1 16, openField 1 0 240,
     openField 1 0 240, openField 1 0 15, openField 1 0 15, openField 2 1 32767, openField 1 1 127,
     openField 1 1 96, openField 2 16 1024, openField 1 1 12, openField 1 16 255, openField 1 0 32,
     openField 1 0 1, openField 2 0 1024, openField 2 0 256]
  | .identity => []
  | .stray =>
    [fixedField 1, fixedField 4, fixedField 1, fixedField 2, fixedField 2, fixedField 1, fixedField 1]
  | .device =>
    List.replicate 11 (openField 1 0 1) ++ List.replicate 11 (fixedField 2) ++ [fixedField 1, fixedField 1]

/-- A TABLE by its code (R172). -/
def tableOf : Nat → Option TableId
  | 0 => some .station
  | 1 => some .flow
  | 2 => some .policyA
  | 3 => some .policyB
  | 4 => some .channelActive
  | 5 => some .channelPending
  | 6 => some .identity
  | 7 => some .stray
  | 8 => some .device
  | _ => none

/-! ## Control frames (R172, R173) -/

/-- An element as PLAN-WRITE carries it (R172). -/
structure RawElement where
  kind    : Nat
  offset  : Nat
  length  : Nat
  station : Nat
  flow    : Nat
deriving DecidableEq, Repr

/-- Which of READ, WRITE and FILL names a TABLE that does not exist. -/
inductive TableOp where
  | read | write | fill
deriving DecidableEq, Repr

/-- An operation with its operands, as a control frame carries them (R172). Values are as sent; the operation's own
checks judge them. -/
inductive Op where
  | channelStart (channel : Nat) (epoch : RefCount) (firstStart : Beat)
  | channelStop (channel mode : Nat)
  | profileCommit (channel : Nat)
  | stationAdmit (station : Nat)
  | stationMove (station channel : Nat)
  | stationRelease (station : Nat)
  | flowBind (flow station : Nat)
  | flowActivate (flow : Nat)
  | flowHold (flow : Nat)
  | flowUnbind (flow : Nat)
  | planWrite (channel : Nat) (elements : List RawElement)
  | planReady (channel : Nat)
  | planDiscard (channel : Nat)
  | read (table : TableId) (first count : Nat)
  | readIdentity (hardwareId : HwId) (count : Nat)
  | write (table : TableId) (index : Nat) (values : List (Nat × Nat))
  | fill (table : TableId) (first count : Nat) (values : List (Nat × Nat))
  | noTable (op : TableOp)
  | counters (set clear : Nat)
  | clear
deriving DecidableEq, Repr

/-- What a control frame is at its execution (R156). -/
inductive Parsed where
  | malformed
  | unknown
  | op (o : Op)
deriving DecidableEq, Repr

/-- The elements of a PLAN-WRITE, 9 bytes each. -/
def readElements : Nat → List Byte → Option (List RawElement)
  | 0, [] => some []
  | 0, _ :: _ => none
  | n + 1, k :: o1 :: o0 :: l1 :: l0 :: s1 :: s0 :: f1 :: f0 :: r =>
    (readElements n r).map (fun q =>
      { kind := k.toNat, offset := ofBe [o1, o0], length := ofBe [l1, l0], station := ofBe [s1, s0],
        flow := ofBe [f1, f0] } :: q)
  | _ + 1, _ => none

/-- The size in bytes of a field's value at the head of some bytes. -/
def valueSize : FieldSize → List Byte → Nat
  | .bytes n, _ => n
  | .flowList, q => 1 + 2 * ofBe (q.take 1)

/-- The values of the masked fields, in field order, filling some bytes exactly (R173). A MASK bit past the table's
last field names no field and carries no bytes (assumption 11). -/
def readValues (t : TableId) : List Nat → List Byte → Option (List (Nat × Nat))
  | [], [] => some []
  | [], _ :: _ => none
  | i :: r, q =>
    match t.fields[i]? with
    | some f =>
      if valueSize f.size q ≤ q.length then
        (readValues t r (q.drop (valueSize f.size q))).map (fun vs => (i, ofBe (q.take (valueSize f.size q))) :: vs)
      else none
    | none => (readValues t r q).map (fun vs => (i, 0) :: vs)

/-- The fields a MASK names, in field order (section 11.1). -/
def maskedFields (mask : Nat) : List Nat := (List.range 32).filter (fun i => mask.testBit i)

/-- The operands of READ after OPERATION (R172). -/
def readRead : List Byte → Option Op
  | [] => none
  | t :: r =>
    match tableOf t.toNat with
    | none => some (.noTable .read)
    | some .identity =>
      if r.length = 7 then
        some (.readIdentity (BitVec.ofNat 48 (ofBe (r.take 6))) (ofBe (r.drop 6)))
      else none
    | some t =>
      match r with
      | [i1, i0, n] => some (.read t (ofBe [i1, i0]) n.toNat)
      | _ => none

/-- The operands of WRITE after OPERATION (R172). -/
def readWrite : List Byte → Option Op
  | [] => none
  | t :: r =>
    match tableOf t.toNat with
    | none => some (.noTable .write)
    | some t =>
      match r with
      | i1 :: i0 :: m3 :: m2 :: m1 :: m0 :: q =>
        (readValues t (maskedFields (ofBe [m3, m2, m1, m0])) q).map (fun vs => .write t (ofBe [i1, i0]) vs)
      | _ => none

/-- The operands of FILL after OPERATION (R172). FIRST of IDENTITY is a 6-byte hardware ID. -/
def readFill : List Byte → Option Op
  | [] => none
  | t :: r =>
    match tableOf t.toNat with
    | none => some (.noTable .fill)
    | some t =>
      match (if t = .identity then r.drop 4 else r) with
      | i1 :: i0 :: n :: m3 :: m2 :: m1 :: m0 :: q =>
        (readValues t (maskedFields (ofBe [m3, m2, m1, m0])) q).map (fun vs => .fill t (ofBe [i1, i0]) n.toNat vs)
      | _ => none

/-- The operands of an operation, which must fill the rest of the BODY exactly (R172, R173). -/
def readOperands (operation : Nat) (q : List Byte) : Option Op :=
  match operation, q with
  | 1, [c, e3, e2, e1, e0, f3, f2, f1, f0] =>
    some (.channelStart c.toNat (BitVec.ofNat 32 (ofBe [e3, e2, e1, e0])) (BitVec.ofNat 32 (ofBe [f3, f2, f1, f0])))
  | 2, [c, m] => some (.channelStop c.toNat m.toNat)
  | 3, [c] => some (.profileCommit c.toNat)
  | 4, [n1, n0] => some (.stationAdmit (ofBe [n1, n0]))
  | 5, [n1, n0, c] => some (.stationMove (ofBe [n1, n0]) c.toNat)
  | 6, [n1, n0] => some (.stationRelease (ofBe [n1, n0]))
  | 7, [f1, f0, n1, n0] => some (.flowBind (ofBe [f1, f0]) (ofBe [n1, n0]))
  | 8, [f1, f0] => some (.flowActivate (ofBe [f1, f0]))
  | 9, [f1, f0] => some (.flowHold (ofBe [f1, f0]))
  | 10, [f1, f0] => some (.flowUnbind (ofBe [f1, f0]))
  | 11, c :: n :: r => (readElements n.toNat r).map (fun es => .planWrite c.toNat es)
  | 12, [c] => some (.planReady c.toNat)
  | 13, [c] => some (.planDiscard c.toNat)
  | 14, r => readRead r
  | 15, r => readWrite r
  | 16, r => readFill r
  | 17, [set, clr] => some (.counters set.toNat clr.toNat)
  | 18, [] => some .clear
  | _, _ => none

end Sys2Proof.Machine

namespace Sys2Proof

open Machine

/-- TAG of a control frame: BODY bytes 0 and 1 as they arrived, or 0 (R173). -/
def RawFrame.tag (f : RawFrame) : BitVec 16 :=
  if 2 ≤ f.body.length then BitVec.ofNat 16 (ofBe (f.body.take 2)) else 0

/-- OPERATION of a control frame: BODY byte 2 as it arrived, or 0 (R173). -/
def RawFrame.operation (f : RawFrame) : Byte := (f.body[2]?).getD 0

/-- The format check of R173, but for the length of the operands. -/
def RawFrame.formatHolds (f : RawFrame) : Bool :=
  f.close == .frameEnd && f.bytes.head? == some 7#8 && f.checkHolds && f.declared == f.body.length &&
    decide (3 ≤ f.body.length) && decide (f.body.length ≤ Config.maxControlBody)

/-- A control frame at its execution: the format check first, then the OPERATION (R156, R173). -/
def RawFrame.parsed (f : RawFrame) : Parsed :=
  if f.formatHolds then
    if 1 ≤ f.operation.toNat ∧ f.operation.toNat ≤ 18 then
      match readOperands f.operation.toNat (f.body.drop 3) with
      | some o => .op o
      | none => .malformed
    else .unknown
  else .malformed

end Sys2Proof
end

