-- ==== Sys2Proof/Machine/PlanStore.lean ====
section
/-! DEFINITION. The Plan Store and the Plan Link (chapter 8): the swap, the departures, withdrawal and the operations
of DIRECTED mode; and the stopping conditions of Channel Control (R13). -/

namespace Sys2Proof.Machine

namespace State

/-! ## Beats reached (R8, R9) -/

/-- The beats from where channel `c` stands to the nearest deadline ahead, at most `limit`. -/
def beatsToDeadline (s : State) (c : ChanNo) (limit : Nat) : Nat :=
  (s.deadlines c).foldl (fun m d => min m (d - (s.context c).currentBeat).toNat) limit

/-- Channel `c` reaches its beats in ascending order, as far as the next deadline (R8). It stays where it stands
while a deadline of that beat is still to be acted on (assumption 6). -/
def runBeats (s : State) (c : ChanNo) : State :=
  if s.deadlineReached c then s
  else
    let n := s.beatsToDeadline c (s.context c).beatsToReach
    s.putContext c
      { s.context c with
        currentBeat := (s.context c).currentBeat + beats32 n
        beatsToReach := (s.context c).beatsToReach - n }

/-! ## Stopping (R13) -/

/-- A channel becomes STOPPED (R13, R14): the mark is NONE, no profile is armed, the beat position is kept. Where the
channel stops in the middle of an advance, the beats it has not reached are dropped and BEAT PHASE stays that of the
whole advance (assumption 6). -/
def stopContext (x : ChannelContext) : ChannelContext :=
  { x with state := .stopped, drainMark := .none, armedProfile := none, beatsToReach := 0 }

/-- Channel Control tests the stopping conditions of a DRAINING channel (R13). -/
def testStop (s : State) (c : ChanNo) : State :=
  if s.stopsNow c then (s.putContext c (stopContext (s.context c))).raise (.channelStopped c .orderly) else s

/-! ## The emit time (R80 to R82) -/

/-- The station that a cut in group 4 may find taken from the poll queue and not yet offered its placement: the next one
to be taken, while one is still to be taken (R112, R114). -/
def nextTaken (s : State) (b : BuildContext) : Option StationNo :=
  match b.phase with
  | .polls left _ => if left = 0 then none else (s.pollQueue b.channel).head?
  | _ => none

/-- A station taken from the poll queue and not yet offered its placement when a cut comes is enqueued again at the tail
(R114). Whether the cut finds one is a free value (assumption 19). -/
def requeueTaken (s : State) (b : BuildContext) : State :=
  match s.nextTaken b with
  | some n =>
    if Config.stationInHand s.freeDraws then
      (s.drawn.takePolled b.channel n (s.pollQueue b.channel).tail).pollEnqueue n
    else s.drawn
  | none => s

/-- The build under way is cut at whatever stage it has reached (R81). The engine takes its next request before the
swap (assumption 24). -/
def cutBuild (s : State) (b : BuildContext) : State :=
  let h := s.buildHalf b.channel
  let s := s.requeueTaken b
  let t := s.putBuildHalf b.channel
    { h with elements := closeSpans (s.params b.channel).requestLength b.freeSpans h.elements, cut := true }
  let t := (t.count b.channel .planCut 1).raise (.planCut b.channel h.start (some b.phase.stage))
  takeRequests 8 ((t.putBuildCondition b.channel .none).putEngine none)

/-- The header a half takes at the swap where no build wrote it (R82, R136): the values current there. -/
def swapHeader (s : State) (c : ChanNo) : PlanRecord where
  start := (s.context c).nextStart
  planSequence := none
  profileNumber := (s.context c).profileNumber
  requestMark := vget s.requestMarks c
  backoffStart := (s.contentionOf c).backoffStart
  backoffEnd := (s.params c).backoffCeiling
  cut := false
  fallback := false
  idle := false
  elements := []
  ready := false

/-- The fallback plan: the span conversion of closing over [0, Lp) (R82). -/
def fallbackPlan (s : State) (c : ChanNo) : PlanRecord :=
  { s.swapHeader c with
    cut := true, fallback := true
    elements := closeSpans (s.params c).requestLength [{ offset := 0, length := (s.params c).planLength }] [] }

/-- A build request still queued at its emit time is removed; an AUTOMATIC channel gets a fallback plan (R82). -/
def fallBack (s : State) (c : ChanNo) : State :=
  let t := s.unqueueBuild c
  match (s.params c).sourceMode with
  | .automatic =>
    (((t.putBuildHalf c (s.fallbackPlan c)).count c .planCut 1).count c .fallback 1).raise
      (.planCut c (s.context c).nextStart none)
  | .directed => t

/-- The Plan Builder's act on the build half at its emit time (R80). -/
def builderAct (s : State) (c : ChanNo) : State :=
  match s.buildCondition c with
  | .none | .complete => s
  | .queued => s.fallBack c
  | .underBuild =>
    match s.engine with
    | some b => s.cutBuild b
    | none => s

/-- A ready DIRECTED half as it is swapped (R136); `began` says whether its build began. -/
def readyHalf (s : State) (c : ChanNo) (began : Bool) : PlanRecord :=
  let h := s.buildHalf c
  let w := { h with start := (s.context c).nextStart, requestMark := vget s.requestMarks c }
  if began then w
  else
    { w with
      profileNumber := (s.context c).profileNumber
      backoffStart := (s.contentionOf c).backoffStart
      backoffEnd := (s.params c).backoffCeiling }

/-- The idle plan (R136). -/
def idlePlan (s : State) (c : ChanNo) : PlanRecord :=
  { s.swapHeader c with
    idle := true
    elements := [{ offset := 0, length := (s.params c).planLength, body := .idle }] }

/-- A DIRECTED half is judged at the swap (R124, step 1, R136). -/
def judgeHalf (s : State) (c : ChanNo) (began : Bool) : State :=
  match (s.params c).sourceMode with
  | .automatic => s
  | .directed =>
    if (s.buildHalf c).ready then s.putBuildHalf c (s.readyHalf c began)
    else (s.putBuildHalf c (s.idlePlan c)).count c .idlePlans 1

/-- The Plan Store after the swap of channel `c` (R124, steps 2 to 4). -/
def swappedStore (s : State) (c : ChanNo) : PlanStore :=
  let p := s.planStore c
  let h := { p.buildPlan with planSequence := some (s.context c).planSequence }
  { (p.putHalf p.emitHalf.other h).putHalf p.emitHalf PlanRecord.empty with
    emitHalf := p.emitHalf.other
    emitCondition := .awaitingDeparture
    withdrawalDeadline := h.start - beats32 (s.params c).flightMargin }

/-- The plan timeline carried forward at the swap (R11). -/
def advanceTimeline (p : Params) (x : ChannelContext) : ChannelContext :=
  { x with
    planSequence := x.planSequence + 1
    nextStart := x.nextStart + beats32 p.planLength
    drainMark := if x.drainMark = .beforeFinalSwap then .afterFinalSwap else x.drainMark }

/-- The swap proper: sequence, timeline, halves, and the next build of a RUNNING channel (R11, R124). -/
def swap (s : State) (c : ChanNo) : State :=
  let t := (s.putPlanStore c (s.swappedStore c)).putContext c (advanceTimeline (s.params c) (s.context c))
  let t := t.putBuildCondition c .none
  if (s.context c).drainMark = .beforeFinalSwap then t
  else t.queueBuild { channel := c, emitTime := t.emitTimeOf c }

/-- The deadline event of an emit time: the Plan Builder's act, the judging of a DIRECTED half, the swap (R80,
R124). -/
def emitEvent (s : State) (c : ChanNo) : State :=
  ((s.builderAct c).judgeHalf c (s.buildCondition c != .queued)).swap c

end State

/-! ## Departure (R127 to R129, R139) -/

/-- What an element grants, or none for IDLE and HOLD (R138, R139). -/
def ElementBody.grant (rb : Nat) (q : PlanSeq) : ElementBody → Option Grant
  | .data n f _ => some (.data n f)
  | .periodic n f => some (.periodic n f)
  | .poll n => some (.poll n)
  | .join => some .join
  | .request k => some (.request rb (List.replicate k .unreported) q)
  | .idle | .hold _ _ => none

/-- The expect entry of an element, if it makes one (R139). -/
def Element.entry (p : Params) (start : Beat) (q : PlanSeq) (e : Element) : Option ExpectEntry :=
  (e.body.grant p.requestLength q).map (fun g =>
    { start := start + beats32 e.offset
      length := e.length
      expiry := start + beats32 e.offset + beats32 e.length + beats32 p.settle
      grant := g })

/-- The request openings of an element: its OPENINGS for REQUEST (R97). -/
def Element.openings (e : Element) : Nat :=
  match e.body with
  | .request k => k
  | _ => 0

/-- The element is a REQUEST element. -/
def Element.isRequest (e : Element) : Bool :=
  match e.body with
  | .request _ => true
  | _ => false

/-- N of a plan: its request openings (R97). -/
def PlanRecord.openings (p : PlanRecord) : Nat := (p.elements.map Element.openings).sum

/-- The number of a plan's REQUEST elements (R97). -/
def PlanRecord.requestElements (p : PlanRecord) : Nat := (p.elements.filter Element.isRequest).length

/-- The sequence a swapped plan carries (R11). -/
def PlanRecord.sequence (p : PlanRecord) : PlanSeq := p.planSequence.getD 0

/-- The expect entries a departing plan makes (R139). -/
def PlanRecord.entries (x : Params) (p : PlanRecord) : List ExpectEntry :=
  p.elements.filterMap (Element.entry x p.start p.sequence)

namespace State

/-- No plan awaits departure and the emit half is emptied (R128, R130). -/
def vacateEmitHalf (s : State) (c : ChanNo) : State :=
  s.putPlanStore c
    { (s.planStore c).putHalf (s.planStore c).emitHalf PlanRecord.empty with emitCondition := .none }

/-- The Plan Link accepts a frame (R126). -/
def sendPlanLink (s : State) (frame : List Byte) : State :=
  s.putPlanLink { s.planLink with sending := some frame }

/-- The plan of channel `c` departs (R128). -/
def departPlan (s : State) (c : ChanNo) : State :=
  let p := s.emitHalfPlan c
  let t := s.putExpectQueue c (s.expectQueue c ++ p.entries (s.params c))
  let t := t.openTally c p.sequence p.openings p.requestElements
  let t := ((t.vacateEmitHalf c).count c .plansSent 1).sendPlanLink (planFrame c p)
  t.testStop c

/-- The units until the WITHDRAWAL DEADLINE of the plan that channel `c` has awaiting departure (R127). -/
def departureUnits (s : State) (c : ChanNo) : Int := s.unitsUntil c (s.planStore c).withdrawalDeadline

/-- The plan to depart: of those awaiting, the one with the fewest units until its withdrawal deadline, the lower
channel of two that are equal (R127). -/
def nextDeparture (s : State) : Option ChanNo :=
  (allChannels.filter (fun c => s.awaits c)).foldl
    (fun best c =>
      match best with
      | none => some c
      | some d => if s.departureUnits c < s.departureUnits d then some c else some d)
    none

/-- Every channel reaches its beats as far as its next deadline (R8). -/
def runAllBeats (s : State) : State := allChannels.foldl runBeats s

/-- PLAN_DEPARTURE. A channel that stood at its emit time until its plan had departed then goes on with its beats. -/
def planDepartureStep (s : State) : State :=
  if s.planLinkAccepts then
    match s.nextDeparture with
    | some c => (s.departPlan c).runAllBeats
    | none => s
  else s

/-- The plan that channel `c` has swapped departs at once: the Plan Link can accept it and no other plan goes ahead of it
(R124, step 6, R127). -/
def departsAtOnce (s : State) (c : ChanNo) : Bool := s.planLinkAccepts && s.nextDeparture == some c

/-- EMIT_TIME of channel `c`. A plan that departs at once departs in the event of its emit time (R124, step 6), so the
channel reaches no later beat before it (assumptions 6 and 22). -/
def emitTimeStep (s : State) (c : ChanNo) : State :=
  if s.emitTimeReached c then
    if (s.emitEvent c).departsAtOnce c then s.emitEvent c else (s.emitEvent c).runBeats c
  else s

/-- The adjust entry that departs: the head of the queue, when no plan awaits departure (R127). -/
def adjustDeparture (s : State) : Option AdjustEntry :=
  if s.planLinkAccepts && s.nextDeparture.isNone then s.adjustQueue.head? else none

/-- ADJUST_FRAME_DEPARTURE (R121, R129). -/
def adjustDepartureStep (s : State) : State :=
  match s.adjustDeparture with
  | some a =>
    ((s.putAdjustQueue s.adjustQueue.tail).countDevice .adjustFramesSent 1).sendPlanLink (adjustFrame a)
  | none => s

/-- The frame being sent reaches its frame end (R126). -/
def planLinkEnd (s : State) : State :=
  match s.planLink.sending with
  | some f => s.putPlanLink { sending := none, sent := s.planLink.sent ++ [{ bytes := f, close := .frameEnd }] }
  | none => s

/-! ## Withdrawal (R130, R131) -/

/-- The four conditions under which a charge is restored (R131). -/
def chargeReturns (s : State) (c : ChanNo) (n : StationNo) (f : FlowNo) : Bool :=
  (s.flow f).state == .active && (s.flow f).station == some n && (s.station n).state == .online &&
    (s.station n).channel == c

/-- One charge restored (R131). -/
def restoreCharge (s : State) (c : ChanNo) (f : FlowNo) (k : Nat) : State :=
  ((s.putFlow f ((s.flow f).restored k)).count c .chargesRestored 1).enlist f

/-- What a withdrawal has done so far: the state, and the charges restored and forfeited. -/
structure Restoration where
  state     : State
  restored  : Nat
  forfeited : Nat

/-- One element of a withdrawn plan: the charge of a DATA element is restored or forfeited (R131). -/
def restoreElement (c : ChanNo) (r : Restoration) (e : Element) : Restoration :=
  match e.body with
  | .data n f (some k) =>
    if r.state.chargeReturns c n f then { r with state := r.state.restoreCharge c f k, restored := r.restored + 1 }
    else { r with state := r.state.count c .chargesForfeited 1, forfeited := r.forfeited + 1 }
  | _ => r

/-- The charges of a plan's DATA elements, one at a time in the order of the elements (R131). -/
def restoreCharges (s : State) (c : ChanNo) (q : List Element) : Restoration :=
  q.foldl (restoreElement c) ⟨s, 0, 0⟩

/-- A plan awaiting departure is withdrawn (R130, steps 1 to 5). -/
def withdrawPlan (s : State) (c : ChanNo) : State :=
  let p := s.emitHalfPlan c
  let r := s.restoreCharges c p.elements
  ((r.state.vacateEmitHalf c).count c .plansWithdrawn 1).raise
    (.planWithdrawn c p.sequence p.start r.restored r.forfeited)

/-- WITHDRAWAL_DEADLINE of channel `c` (R130). -/
def withdrawalStep (s : State) (c : ChanNo) : State :=
  if s.withdrawalReached c then ((s.withdrawPlan c).testStop c).runBeats c else s

/-! ## DIRECTED mode (R132 to R135) -/

/-- An operation on a DIRECTED half, after the checks of R132. -/
def onDirectedHalf (s : State) (channel : Nat) (op : ChanNo → Answer) : Answer :=
  match asIndex 8 channel with
  | none => s.answer .badIndex
  | some c => if s.directedWritable c then op c else s.answer .state

end State

/-- STATION and FLOW of an element that management writes, within their ranges (R133). -/
def RawElement.target (e : RawElement) : Option (StationNo × FlowNo) :=
  match asIndex 8192 e.station, asIndex 16384 e.flow with
  | some n, some f => some (n, f)
  | _, _ => none

/-- What an element that management writes is, when it is valid for its kind (R133). -/
def RawElement.body (p : Params) (e : RawElement) : Option ElementBody :=
  match e.kind with
  | 0 => if 1 ≤ e.length ∧ e.length ≤ 1023 then e.target.map (fun t => .data t.1 t.2 none) else none
  | 1 => if 1 ≤ e.length ∧ e.length ≤ 255 then e.target.map (fun t => .periodic t.1 t.2) else none
  | 2 => if e.length = p.pollLength then (asIndex 8192 e.station).map (fun n => .poll n) else none
  | 3 => if e.length = p.joinLength then some .join else none
  | 4 =>
    if p.requestLength ≤ e.length ∧ e.length % p.requestLength = 0 then
      some (.request (e.length / p.requestLength))
    else none
  | 5 => if 1 ≤ e.length ∧ e.length ≤ p.planLength then some .idle else none
  | 6 => if e.offset = 0 ∧ e.length = 0 then e.target.map (fun t => .hold t.1 t.2) else none
  | _ => none

/-- An element of PLAN-WRITE, or none where it is not valid (R133). -/
def RawElement.element (p : Params) (e : RawElement) : Option Element :=
  if e.offset < p.planLength then (e.body p).map (fun b => { offset := e.offset, length := e.length, body := b })
  else none

/-- The elements of PLAN-WRITE, or none where one is not valid (R133). -/
def validElements (p : Params) : List RawElement → Option (List Element)
  | [] => some []
  | e :: r =>
    match e.element p, validElements p r with
    | some x, some q => some (x :: q)
    | _, _ => none

/-- The position at which the layout check of R134 fails, from element `i` on: the timed elements so far end at `o`,
the last of them is element `last`, and `held` says whether a HOLD has been seen. R134 says only that the
timed elements stand before every HOLD: that the timed element behind a HOLD is named, and not the HOLD, is a DESIGN CHOICE
(assumption 23). That a last timed element which runs past Lp is named is DEDUCED (assumption 23). -/
def layoutFailure (lp : Nat) (i o last : Nat) (held : Bool) : List Element → Option Nat
  | [] => if o = lp then none else if o < lp then some i else some last
  | e :: r =>
    if e.isHold then layoutFailure lp (i + 1) o last true r
    else if held || e.offset != o then some i
    else layoutFailure lp (i + 1) (o + e.length) i held r

namespace State

/-- The elements are appended to the build half (R133). -/
def appendElements (s : State) (c : ChanNo) (q : List Element) : Answer :=
  if Config.maxElements < (s.buildHalf c).elements.length + q.length then s.answer .full
  else
    { state := s.putBuildHalf c { s.buildHalf c with elements := (s.buildHalf c).elements ++ q }
      code := .done
      results := be 1 ((s.buildHalf c).elements.length + q.length) }

/-- PLAN-WRITE (R133). -/
def planWriteOp (s : State) (channel : Nat) (q : List RawElement) : Answer :=
  s.onDirectedHalf channel (fun c =>
    if (s.buildHalf c).ready then s.answer .state
    else if q.length < 1 ∨ 16 < q.length then s.answer .badValue
    else
      match validElements (s.params c) q with
      | none => s.answer .badValue
      | some es => s.appendElements c es)

/-- PLAN-READY (R134). -/
def planReadyOp (s : State) (channel : Nat) : Answer :=
  s.onDirectedHalf channel (fun c =>
    if (s.buildHalf c).ready then s.answer .done
    else
      match layoutFailure (s.params c).planLength 0 0 0 false (s.buildHalf c).elements with
      | some i => { state := s, code := .layout, results := be 1 i }
      | none => (s.putBuildHalf c { s.buildHalf c with ready := true }).answer .done)

/-- PLAN-DISCARD (R135). -/
def planDiscardOp (s : State) (channel : Nat) : Answer :=
  s.onDirectedHalf channel (fun c =>
    (s.putBuildHalf c { s.buildHalf c with elements := [], ready := false }).answer .done)

end State

end Sys2Proof.Machine
end

