-- ==== Sys2Proof/Machine/Intake.lean ====
section
/-! DEFINITION. Burst Intake (chapter 9): matching a burst record, settling it, dispatching its units, strays, expiry and
the forward buffer; and the handoffs to the Flow Table (R49 to R52) and the Periodic Calendar (R92). -/

namespace Sys2Proof.Machine

/-! ## Matching (R141) -/

/-- What a record finds in the Expect Queue (R141). -/
inductive Finding where
  | entry (e : ExpectEntry)
  | opening (e : ExpectEntry) (i : Nat)
  | stray (cause : StrayCause)
deriving DecidableEq, Repr

/-- The position of a record `d` beats into a REQUEST entry (R141). -/
def judgeOpening (e : ExpectEntry) (openingLength : Nat) (marks : List Mark) (d : Nat) : Finding :=
  if openingLength = 0 ∨ d % openingLength ≠ 0 then .stray .misaligned
  else
    match marks[d / openingLength]? with
    | some .unreported => .opening e (d / openingLength)
    | some _ => .stray .reported
    | none => .stray .misaligned

/-- The entry whose range holds a beat (R141). -/
def holdingEntry (q : List ExpectEntry) (b : Beat) : Option ExpectEntry :=
  q.find? (fun e => decide ((b - e.start).toNat < e.length))

/-- A record that starts at `b` judged against an Expect Queue (R141). -/
def findingOf (q : List ExpectEntry) (b : Beat) : Finding :=
  match holdingEntry q b with
  | none => .stray .noEntry
  | some e =>
    match e.grant with
    | .request ol marks _ => judgeOpening e ol marks (b - e.start).toNat
    | .data _ _ | .periodic _ _ | .poll _ | .join => if e.start = b then .entry e else .stray .misaligned

/-- STATION of an entry: present for DATA, PERIODIC and POLL (R138). -/
def Grant.station : Grant → Option StationNo
  | .data n _ | .periodic n _ | .poll n => some n
  | .join | .request _ _ _ => none

/-- FLOW of an entry: present for DATA and PERIODIC (R138). -/
def Grant.flow : Grant → Option FlowNo
  | .data _ f | .periodic _ f => some f
  | .poll _ | .join | .request _ _ _ => none

/-- A record of one of the two outcomes that carry contents (R140). -/
def BurstOutcome.decoded : BurstOutcome → Bool
  | .clean | .repaired => true
  | .collided | .damaged | .empty => false

/-- A named station is the station `n`. -/
def names (x : NamedStation) (n : StationNo) : Bool := x.toNat == n.val

/-- A record matched to an entry of one station is misplaced (R142). -/
def misplaces (r : BurstRecord) (e : ExpectEntry) : Bool :=
  r.outcome.decoded &&
    match e.grant.station, r.station with
    | some n, some x => !names x n
    | _, _ => false

namespace State

/-! ## Strays (R150) -/

/-- A ring entry joins the stray ring as the newest (R150). -/
def pushStray (s : State) (x : StrayEntry) : State :=
  if s.strayRing.length < Config.maxStrayRing then s.putStrayRing (s.strayRing ++ [x]) s.overwrites
  else s.putStrayRing (s.strayRing.tail ++ [x]) (min Config.maxCounter (s.overwrites + 1))

/-- The ring entry and the STRAY BURST notice of a record that was not taken (R142, R150). -/
def recordStray (s : State) (r : BurstRecord) (expected : Option StationNo) (cause : StrayCause) : State :=
  (s.pushStray
      { channel := r.channel, start := r.start, outcome := r.outcome, stationNamed := r.station
        stationExpected := expected, cause := cause, units := r.units.length }).raise
    (.strayBurst r.channel r.start r.outcome r.station cause)

/-- A stray record (R150). -/
def strayRecord (s : State) (r : BurstRecord) (cause : StrayCause) : State :=
  (s.count r.channel .stray 1).recordStray r none cause

/-! ## Handoffs of units (R147) -/

/-- A request handoff passes the second check: its flow is HELD or ACTIVE, its station ALIGNING, PARKED or ONLINE
(R50). -/
def requestReaches (s : State) (f : FlowNo) : Bool :=
  (s.flow f).state != .idle &&
    match (s.flow f).station with
    | some n => s.stationTakes n
    | none => false

/-- A request handoff passes the third check: STATION is absent or the flow's (R50). -/
def requestNames (s : State) (f : FlowNo) (x : Option NamedStation) : Bool :=
  match x, (s.flow f).station with
  | none, _ => true
  | some x, some n => names x n
  | some _, none => false

/-- An accepted request is taken into backlog and sets the REQUEST MARK of its channel (R51, R52). -/
def acceptRequest (s : State) (c : ChanNo) (start : Beat) (f : FlowNo) (amount : Nat) : State :=
  let t := s.putRequestMark c (some start)
  let t := if Config.maxBacklog < (s.flow f).backlog + amount then t.count c .requestClamp 1 else t
  (t.putFlow f
      { s.flow f with backlog := min Config.maxBacklog ((s.flow f).backlog + amount), fresh := true }).enlist f

/-- A request handoff (R49, R50). -/
def requestHandoff (s : State) (c : ChanNo) (start : Beat) (f : FlowNo) (amount : Nat)
    (x : Option NamedStation) : State :=
  if amount = 0 then s
  else if !s.requestReaches f then s.count c .requestIgnored 1
  else if !s.requestNames f x then s.count c .requestMismatch 1
  else s.acceptRequest c start f amount

/-- A behind handoff (R92). -/
def behindHandoff (s : State) (c : ChanNo) (g : Grant) : State :=
  match g with
  | .periodic _ f =>
    if s.inCalendar c f then s.putFlow f { s.flow f with extrasOwed := min 3 ((s.flow f).extrasOwed + 1) }
    else s.count c .behindIgnored 1
  | .data _ _ | .poll _ | .join | .request _ _ _ => s.count c .behindIgnored 1

/-- A data unit joins the forward buffer or is dropped (R152). -/
def forward (s : State) (u : ForwardUnit) : State :=
  if s.forwardBuffer.length < Config.maxForward then s.putForwardBuffer (s.forwardBuffer ++ [u])
  else (s.countDevice .forwardDrop 1).raise (.forwardDrop u.channel u.start u.station u.flow)

/-- A data unit of a record matched to an entry (R147). -/
def takeDataUnit (s : State) (r : BurstRecord) (g : Grant) (data : List Byte) : State :=
  match g.station with
  | some n => s.forward { channel := r.channel, start := r.start, station := n, flow := g.flow, data := data }
  | none => s.count r.channel .unitsDiscarded 1

/-- A request unit of a record matched to an entry (R147). -/
def takeRequestUnit (s : State) (r : BurstRecord) (g : Grant) (f : FlowNo) (amount : Nat)
    (x : Option NamedStation) : State :=
  match g with
  | .request _ _ _ => s.requestHandoff r.channel r.start f amount x
  | .data _ _ | .periodic _ _ | .poll _ => s.requestHandoff r.channel r.start f amount r.station
  | .join => s.count r.channel .unitsDiscarded 1

/-- A join unit, but for the first of a record matched to a JOIN entry (R147). -/
def takeJoinUnit (s : State) (r : BurstRecord) (g : Grant) : State :=
  match g with
  | .join => s.count r.channel .joinUnitDiscarded 1
  | .data _ _ | .periodic _ _ | .poll _ | .request _ _ _ => s.count r.channel .unitsDiscarded 1

/-- One unit dispatched (R147). -/
def dispatchUnit (s : State) (r : BurstRecord) (g : Grant) : BurstUnit → State
  | .data q => s.takeDataUnit r g q
  | .request f a x => s.takeRequestUnit r g f a x
  | .join _ => s.takeJoinUnit r g
  | .behind => s.behindHandoff r.channel g

end State

/-- A unit is a join unit. -/
def BurstUnit.isJoin : BurstUnit → Bool
  | .join _ => true
  | .data _ | .request _ _ _ | .behind => false

/-- The hardware ID of a record's first join unit (R106). -/
def firstJoin (us : List BurstUnit) : Option HwId :=
  us.findSome? (fun u =>
    match u with
    | .join h => some h
    | .data _ | .request _ _ _ | .behind => none)

/-- The units of a record left to dispatch by kind: for a JOIN entry, all but the first join unit (R146). -/
def unitsToDispatch (g : Grant) (us : List BurstUnit) : List BurstUnit :=
  match g with
  | .join => us.eraseP BurstUnit.isJoin
  | .data _ _ | .periodic _ _ | .poll _ | .request _ _ _ => us

/-- The mark that an outcome sets (R98). -/
def BurstOutcome.mark : BurstOutcome → Mark
  | .clean | .repaired => .success
  | .collided | .damaged => .collided
  | .empty => .empty

/-- The report of an entry's marks: EMPTY and UNREPORTED, SUCCESS, COLLIDED (R99, R145, R148). -/
def markReport (marks : List Mark) : Nat × Nat × Nat :=
  (marks.count .empty + marks.count .unreported, marks.count .success, marks.count .collided)

namespace State

/-- The units of a decoded record, one at a time in their order (R147). -/
def dispatchUnits (s : State) (r : BurstRecord) (g : Grant) : State :=
  (unitsToDispatch g r.units).foldl (fun t u => t.dispatchUnit r g u) s

/-! ## Outcomes by entry kind (R142 to R146) -/

/-- A record matched to a turn, not misplaced (R143). -/
def settleTurn (s : State) (r : BurstRecord) (n : StationNo) : State :=
  match r.outcome with
  | .clean | .repaired =>
    let t := s.count r.channel .turnsAnswered 1
    match r.measurement with
    | some m => t.maintenance n r.channel r.start m
    | none => t
  | .collided | .damaged => s.count r.channel .turnsDamaged 1
  | .empty => s.count r.channel .noShow 1

/-- A record matched to a POLL entry, not misplaced (R144). -/
def settlePoll (s : State) (r : BurstRecord) (n : StationNo) : State :=
  match r.outcome with
  | .clean | .repaired =>
    match r.measurement with
    | some m => s.pollMeasurement n r.channel r.start m
    | none => s
  | .collided | .damaged | .empty => s.miss n r.channel

/-- A record matched to a JOIN entry (R105, R106, R146). -/
def settleJoin (s : State) (r : BurstRecord) : State :=
  match r.outcome with
  | .clean | .repaired =>
    match firstJoin r.units with
    | some h => (s.joinHandoff h r.channel r.start r.measurement).count r.channel .joinTaken 1
    | none => s.count r.channel .joinEmpty 1
  | .collided | .damaged => s.count r.channel .joinCollided 1
  | .empty => s.count r.channel .joinEmpty 1

/-- The outcome of a matched entry of one burst, and its measurement (R143, R144, R146). -/
def settleEntry (s : State) (r : BurstRecord) (g : Grant) : State :=
  match g with
  | .data n _ | .periodic n _ => s.settleTurn r n
  | .poll n => s.settlePoll r n
  | .join => s.settleJoin r
  | .request _ _ _ => s

/-- An expected station treated as absent (R142, R148): NO-SHOW for a turn, a miss for a poll. -/
def absent (s : State) (c : ChanNo) (g : Grant) : State :=
  match g with
  | .data _ _ | .periodic _ _ => s.count c .noShow 1
  | .poll n => s.miss n c
  | .join | .request _ _ _ => s

/-- An entry leaves the Expect Queue of channel `c`. -/
def removeEntry (s : State) (c : ChanNo) (e : ExpectEntry) : State :=
  s.putExpectQueue c ((s.expectQueue c).erase e)

/-- A misplaced record (R142). -/
def misplacedRecord (s : State) (r : BurstRecord) (e : ExpectEntry) : State :=
  ((((s.removeEntry r.channel e).count r.channel .misplaced 1).absent r.channel e.grant).recordStray r
      e.grant.station .misplaced)

/-- A record matched to an entry of one burst and not misplaced (R143, R144, R146). -/
def matchedRecord (s : State) (r : BurstRecord) (e : ExpectEntry) : State :=
  let t := (s.removeEntry r.channel e).settleEntry r e.grant
  if r.outcome.decoded then t.dispatchUnits r e.grant else t

/-- Opening `i` of a REQUEST entry takes its mark; the entry is finalized when that was its last (R145). -/
def markOpening (s : State) (r : BurstRecord) (e : ExpectEntry) (i : Nat) : State :=
  match e.grant with
  | .request ol marks q =>
    let ms := marks.set i r.outcome.mark
    if ms.contains .unreported then
      s.putExpectQueue r.channel
        (replaceFirst (fun x => x == e) (fun x => { x with grant := .request ol ms q }) (s.expectQueue r.channel))
    else
      (s.removeEntry r.channel e).reportTally r.channel q (markReport ms).1 (markReport ms).2.1 (markReport ms).2.2
  | .data _ _ | .periodic _ _ | .poll _ | .join => s

/-- A record matched to opening `i` of a REQUEST entry (R145). -/
def openingRecord (s : State) (r : BurstRecord) (e : ExpectEntry) (i : Nat) : State :=
  let t := s.markOpening r e i
  if r.outcome.decoded then t.dispatchUnits r e.grant else t

/-- A burst record taken whole (R140 to R150). -/
def takeRecord (s : State) (r : BurstRecord) : State :=
  match findingOf (s.expectQueue r.channel) r.start with
  | .stray cause => s.strayRecord r cause
  | .opening e i => (s.openingRecord r e i).testStop r.channel
  | .entry e =>
    (if misplaces r e then s.misplacedRecord r e else s.matchedRecord r e).testStop r.channel

/-- A frame arrives on the Burst Link: a record, or discarded (R171). -/
def takeBurstFrame (s : State) (f : RawFrame) : State :=
  match f.burstRecord with
  | some r => s.takeRecord r
  | none => s

/-! ## Expiry (R148) -/

/-- An entry closed at its EXPIRY (R148). -/
def closeExpired (s : State) (c : ChanNo) (g : Grant) : State :=
  match g with
  | .data _ _ | .periodic _ _ | .poll _ => s.absent c g
  | .join => s.count c .joinEmpty 1
  | .request _ marks q =>
    s.reportTally c q (markReport marks).1 (markReport marks).2.1 (markReport marks).2.2

/-- The entry of channel `c` whose EXPIRY is the beat it stands at. -/
def expiringEntry (s : State) (c : ChanNo) : Option ExpectEntry :=
  if s.advancing c then (s.expectQueue c).find? (fun e => e.expiry == (s.context c).currentBeat) else none

/-- EXPIRY on channel `c` (R148, R149). -/
def expiryStep (s : State) (c : ChanNo) : State :=
  match s.expiringEntry c with
  | some e => (((s.removeEntry c e).closeExpired c e.grant).testStop c).runBeats c
  | none => s

/-! ## The outbound System Link (R153) -/

/-- The System Link accepts a frame (R153). -/
def sendSystemLink (s : State) (frame : List Byte) : State :=
  s.putSystemLink { s.systemLink with sending := some frame }

/-- RESPONSE_DEPARTURE: a response ahead of every other source (R153, R155). -/
def responseDepartureStep (s : State) : State :=
  if s.systemLinkAccepts then
    match s.responseQueue with
    | r :: _ => s.popResponse.sendSystemLink (responseFrame r)
    | [] => s
  else s

/-- The kind and the pending record the notice slot gives the arbiter: only when no response waits (R153, R167). -/
def noticeChosen (s : State) : Option (NoticeKind × PendingNotice) :=
  if s.systemLinkAccepts && s.responseQueue.isEmpty then
    s.offeredNotice.bind (fun k => (s.notice k).map (fun p => (k, p)))
  else none

/-- NOTICE_DEPARTURE (R167). -/
def noticeDepartureStep (s : State) : State :=
  match s.noticeChosen with
  | some (k, p) => ((s.dropNotice k).countDevice .noticesSent 1).sendSystemLink (noticeFrame p)
  | none => s

/-- The data unit the arbiter chooses: only when no response waits and no notice is offered (R153). -/
def unitChosen (s : State) : Option ForwardUnit :=
  if s.systemLinkAccepts && s.responseQueue.isEmpty && s.offeredNotice.isNone then s.forwardBuffer.head? else none

/-- FORWARD_DEPARTURE (R152). -/
def forwardDepartureStep (s : State) : State :=
  match s.unitChosen with
  | some u =>
    ((s.putForwardBuffer s.forwardBuffer.tail).countDevice .unitsForwarded 1).sendSystemLink (forwardFrame u)
  | none => s

/-- The frame being sent on the outbound System Link reaches its frame end (R153). -/
def systemLinkEnd (s : State) : State :=
  match s.systemLink.sending with
  | some f =>
    s.putSystemLink { sending := none, sent := s.systemLink.sent ++ [{ bytes := f, close := .frameEnd }] }
  | none => s

end State

end Sys2Proof.Machine
end

