-- ==== Sys2Proof/Machine/Channels.lean ====
section
/-! DEFINITION. Channel Control (chapter 1): the reference count, and starting, stopping and re-profiling a channel. -/

namespace Sys2Proof.Machine

/-! ## The reference count (R8) -/

/-- The advance of a reference count (R8). -/
def advanceOf (last r : RefCount) : Nat := (r - last).toNat

/-- The position of an advancing channel after `units` more reference units (R8). -/
def advancedContext (p : Params) (x : ChannelContext) (units : Nat) : ChannelContext :=
  { x with
    beatPhase := (x.beatPhase + units) % p.beatLength
    beatsToReach := x.beatsToReach + (x.beatPhase + units) / p.beatLength }

namespace State

/-- Channel `c`, if it is RUNNING or DRAINING, advances by `units` and reaches its beats (R8). -/
def advanceChannel (s : State) (units : Nat) (c : ChanNo) : State :=
  if s.advancing c then
    (s.putContext c (advancedContext (s.params c) (s.context c) units)).runBeats c
  else s

/-- An accepted advance (R8). -/
def advanceAll (s : State) (r : RefCount) (units : Nat) : State :=
  allChannels.foldl (fun t c => t.advanceChannel units c) { s with lastReference := r }

/-- A reference count arrives on the Reference Line (R8). -/
def takeReference (s : State) (r : RefCount) : State :=
  if !s.referenceSeen then { s with lastReference := r, referenceSeen := true }
  else if advanceOf s.lastReference r = 0 then s
  else if advanceOf s.lastReference r < 2147483648 then s.advanceAll r (advanceOf s.lastReference r)
  else s.countDevice .referenceBackstep 1

/-! ## CHANNEL-START (R10) -/

/-- MISS COUNT of a station of the started channel, brought below MISS LIMIT (R109). -/
def capMisses (c : ChanNo) (limit : Nat) (x : Station) : Station :=
  if x.channel = c ∧ limit ≤ x.missCount then { x with missCount := limit - 1 } else x

/-- The Alignment Unit at a channel start (R109). Records that are not listed hold MISS COUNT 0. -/
def capMissCounts (s : State) (c : ChanNo) (limit : Nat) : State :=
  { s with
    stations :=
      (s.stations.map (fun e => (e.1, capMisses c limit e.2))).filter (fun e => e.2 != Station.reset) }

/-- The beat position R7 gives from LAST REFERENCE, an epoch and a page. -/
def startDistance (s : State) (epoch : RefCount) : Nat := (s.lastReference - epoch).toNat

/-- The current beat of a start (R7, step 2). -/
def startBeat (s : State) (page : Page) (epoch : RefCount) : Beat :=
  beats32 (s.startDistance epoch / page.params.beatLength)

/-- The context of a started channel (R10, steps 1 to 7). -/
def startedContext (s : State) (c : ChanNo) (epoch : RefCount) (first : Beat) : ChannelContext :=
  { s.context c with
    state := .running
    drainMark := .none
    epoch := epoch
    currentBeat := s.startBeat (s.context c).pendingPage epoch
    beatPhase := s.startDistance epoch % (s.context c).pendingPage.params.beatLength
    nextStart := first
    planSequence := 0
    profileNumber := (s.context c).profileNumber + 1
    activePage := (s.context c).pendingPage
    armedProfile := none
    beatsToReach := 0 }

/-- The flows of a channel's TIMED part move to its WAITING part, NEXT NOMINAL absent (R85). -/
def retimeCalendar (s : State) (c : ChanNo) : State :=
  let t := s.mapFlows (s.calendar c).timed (fun f => { f with nextNominal := none })
  t.putCalendar c
    { waiting :=
        (s.calendar c).timed.foldl (fun q f => insertBy (fun a b => decide (a < b)) f q) (s.calendar c).waiting
      timed := [] }

/-- A channel's halves restarted (R123). -/
def restartHalves (s : State) (c : ChanNo) : State :=
  s.putPlanStore c
    { s.planStore c with h0 := PlanRecord.empty, h1 := PlanRecord.empty, emitHalf := .h0, emitCondition := .none }

/-- The steps of a start (R10). -/
def startChannel (s : State) (c : ChanNo) (epoch : RefCount) (first : Beat) : State :=
  let t := s.putContext c (s.startedContext c epoch first)
  let t := t.capMissCounts c (t.params c).missLimit
  let t := t.restartContention c
  let t := (t.restartHalves c).retimeCalendar c
  t.queueBuild { channel := c, emitTime := t.emitTimeOf c }

/-- CHANNEL-START: the checks of R10 in order, then its steps. -/
def channelStartOp (s : State) (channel : Nat) (epoch : RefCount) (first : Beat) : Answer :=
  match asIndex 8 channel with
  | none => s.answer .badIndex
  | some c =>
    let page := (s.context c).pendingPage
    if (s.context c).state ≠ .stopped then s.answer .state
    else if !page.params.relationsHold then s.answer .badValue
    else if !before (s.startBeat page epoch) (first - beats32 page.params.lead) then s.answer .tooLate
    else (s.startChannel c epoch first).answer .done

/-! ## CHANNEL-STOP (R12, R14) -/

/-- An orderly stop of a channel that is not STOPPED (R12). -/
def orderlyStop (s : State) (c : ChanNo) : State :=
  if (s.context c).state = .running then
    s.putContext c { s.context c with state := .draining, drainMark := .beforeFinalSwap }
  else s

/-- The build of a channel is abandoned, or its request removed (R14, step 1, R83). -/
def abandonBuild (s : State) (c : ChanNo) : State :=
  let t := (s.unqueueBuild c).putBuildCondition c .none
  match s.engine with
  | some b => if b.channel = c then takeRequests 8 (t.putEngine none) else t
  | none => t

/-- The build half is discarded, its charges restored (R14, step 2, R83; counted as R131 counts, assumption 15). -/
def discardBuildHalf (s : State) (c : ChanNo) : State :=
  (s.restoreCharges c (s.buildHalf c).elements).state.putBuildHalf c PlanRecord.empty

/-- The Expect Queue is emptied and the open tallies are discarded (R14, step 4, R101). -/
def dropExpectations (s : State) (c : ChanNo) : State :=
  (s.putExpectQueue c []).putContention c { s.contentionOf c with openTallies := [] }

/-- The eight steps of an abrupt stop (R14). -/
def abruptStop (s : State) (c : ChanNo) : State :=
  let t := (s.abandonBuild c).discardBuildHalf c
  let t := if t.awaits c then t.withdrawPlan c else t
  let t := t.dropExpectations c
  (t.putContext c (stopContext (t.context c))).raise (.channelStopped c .abrupt)

/-- CHANNEL-STOP: CHANNEL, then MODE, then the channel's state (section 1.4). -/
def channelStopOp (s : State) (channel mode : Nat) : Answer :=
  match asIndex 8 channel with
  | none => s.answer .badIndex
  | some c =>
    if 1 < mode then s.answer .badValue
    else if (s.context c).state = .stopped then s.answer .state
    else if mode = 0 then (s.orderlyStop c).answer .done
    else (s.abruptStop c).answer .done

/-! ## PROFILE-COMMIT (R15) -/

/-- PROFILE-COMMIT (R15). -/
def profileCommitOp (s : State) (channel : Nat) : Answer :=
  match asIndex 8 channel with
  | none => s.answer .badIndex
  | some c =>
    if (s.context c).state ≠ .running then s.answer .state
    else
      (s.putContext c { s.context c with armedProfile := some (s.context c).pendingPage.profile }).answer .done

end State

end Sys2Proof.Machine
end

