-- ==== Sys2Proof/Machine/Tables.lean ====
section
/-! DEFINITION. The tables as READ, WRITE and FILL reach them (R35, R36, R45 to R47, R151, R158 to R162): index ranges,
record images, the checks and the effects of a write. -/

namespace Sys2Proof.Machine

/-! ## Ranges (R158) -/

/-- The number of indices of a table that WRITE or FILL names (R158). -/
def TableId.size : TableId → Nat
  | .station => 8192
  | .flow => 16384
  | .policyA | .policyB | .channelActive | .channelPending => 8
  | .device => 1
  | .identity | .stray => 0

/-- WRITE is taken by the table (R158). -/
def TableId.takesWrite : TableId → Bool
  | .station | .flow | .policyA | .policyB | .channelPending | .device => true
  | .channelActive | .identity | .stray => false

/-- FILL is taken by the table (R158). -/
def TableId.takesFill : TableId → Bool
  | .station | .flow | .policyA | .policyB | .channelPending => true
  | .channelActive | .identity | .stray | .device => false

/-- The most records of one READ (R158). -/
def TableId.readLimit : TableId → Nat
  | .station | .flow | .stray => 16
  | .policyA | .policyB | .channelActive | .channelPending => 8
  | .identity | .device => 1

namespace State

/-- The number of indices READ may name: for STRAY, the entries held (R151, R158). -/
def readSize (s : State) : TableId → Nat
  | .stray => s.strayRing.length
  | t => t.size

/-! ## Reading (R159) -/

/-- The image of record `i` of a table as it stands; `ring` is the stray ring of the READ. -/
def recordImage (s : State) (ring : List StrayEntry) (t : TableId) (i : Nat) : List Byte :=
  match t with
  | .station => stationImage (Fin.ofNat 8192 i) (s.station (Fin.ofNat 8192 i))
  | .flow => flowImage (Fin.ofNat 16384 i) (s.flow (Fin.ofNat 16384 i))
  | .policyA => classImage (s.policyClass .a (Fin.ofNat 8 i))
  | .policyB => classImage (s.policyClass .b (Fin.ofNat 8 i))
  | .channelActive => channelImage (s.context (Fin.ofNat 8 i)) (s.contentionOf (Fin.ofNat 8 i))
  | .channelPending => pageImage (s.context (Fin.ofNat 8 i)).pendingPage
  | .stray => ((ring[i]?).map strayImage).getD []
  | .device => deviceImage s
  | .identity => []

/-- What stands before the record images in the results: for STRAY the entry count and OVERWRITES (R151, R172). -/
def readOpening (s : State) : TableId → List Byte
  | .stray => be 1 s.strayRing.length ++ be 4 s.overwrites
  | _ => []

/-- The results of a READ of IDENTITY: FOUND and a station number (R23, R172). -/
def identityResults (s : State) (h : HwId) : List Byte :=
  match s.lookupIdentity h with
  | some n => be 1 1 ++ be 2 n.val
  | none => be 1 0 ++ be 2 0

/-- The checks of READ, in order (R159): the code of the first that fails. -/
def readCheck (s : State) (t : TableId) (first count : Nat) : Code :=
  if s.readSize t ≤ first then .badIndex
  else if count < 1 ∨ t.readLimit < count then .badValue
  else if s.readSize t < first + count then .badIndex
  else .done

end State

/-! ## Writing (R160, R161) -/

/-- Every masked field is one WRITE can write (R160). -/
def fieldsOpen (t : TableId) (vs : List (Nat × Nat)) : Bool :=
  vs.all (fun v =>
    match t.fields[v.1]? with
    | some f => f.range.isSome
    | none => false)

/-- Every masked value lies in its field's range (R160). -/
def valuesInRange (t : TableId) (vs : List (Nat × Nat)) : Bool :=
  vs.all (fun v =>
    match (t.fields[v.1]?).bind (fun f => f.range) with
    | some (lo, hi) => decide (lo ≤ v.2) && decide (v.2 ≤ hi)
    | none => false)

/-- KIND and the periodic fields of a flow, by their place in R38: they can change only while the flow is not ACTIVE
(R45). -/
def heldFlowField (i : Nat) : Bool := i == 3 || (decide (14 ≤ i) && decide (i ≤ 17))

namespace State

/-- The record's state allows the masked fields (R35, R45); a FILL skips a record whose state does not (R158, R161). -/
def stateAllows (s : State) (t : TableId) (i : Nat) (vs : List (Nat × Nat)) : Bool :=
  match t with
  | .station => (s.station (Fin.ofNat 8192 i)).state != .free
  | .flow => !(vs.any (fun v => heldFlowField v.1)) || (s.flow (Fin.ofNat 16384 i)).state != .active
  | .policyA | .policyB | .channelActive | .channelPending | .identity | .stray | .device => true

/-- A WRITE passes the check of the record's state; one whose mask names no field passes every check (R160). -/
def writeAllows (s : State) (t : TableId) (i : Nat) (vs : List (Nat × Nat)) : Bool :=
  vs.isEmpty || s.stateAllows t i vs

end State

/-- One parameter field of a flow, but for RATE, takes its value (R45). -/
def setFlowField (x : Flow) (v : Nat × Nat) : Flow :=
  match v.1 with
  | 3 => { x with kind := if v.2 = 0 then .elastic else .periodic }
  | 4 => { x with cls := Fin.ofNat 8 v.2 }
  | 6 => x.depthChange v.2
  | 14 => { x with turnBeats := v.2 }
  | 15 => { x with period := v.2 }
  | 16 => { x with jitter := v.2 }
  | 17 => { x with phase := v.2 }
  | _ => x

/-- RATE, where it is masked, takes its value after any DEPTH of the same write (R46). -/
def setRate (x : Flow) (vs : List (Nat × Nat)) : Flow :=
  match vs.find? (fun v => v.1 == 5) with
  | some v => x.rateChange v.2
  | none => x

/-- A flow with its masked fields written (R45, R46). -/
def writeFlow (x : Flow) (vs : List (Nat × Nat)) : Flow := setRate (vs.foldl setFlowField x) vs

/-- POLICY SELECT of a station written (R35). -/
def setStationField (x : Station) (v : Nat × Nat) : Station :=
  match v.1 with
  | 5 => { x with policySelect := if v.2 = 0 then .a else .b }
  | _ => x

/-- A field of a class record written (R47). -/
def setClassField (x : PolicyClass) (v : Nat × Nat) : PolicyClass :=
  match v.1 with
  | 0 => { x with priority := Fin.ofNat 8 v.2 }
  | 1 => { x with weight := v.2 }
  | 2 => { x with maxTurn := v.2 }
  | 3 => { x with minTurn := v.2 }
  | 4 => { x with holdsEnabled := v.2 = 0 }
  | _ => x

/-- A channel parameter written (R3). -/
def setParam (x : Params) (v : Nat × Nat) : Params :=
  match v.1 with
  | 0 => { x with beatLength := v.2 }
  | 1 => { x with planLength := v.2 }
  | 2 => { x with lead := v.2 }
  | 3 => { x with settle := v.2 }
  | 4 => { x with flightMargin := v.2 }
  | 5 => { x with sourceMode := if v.2 = 0 then .automatic else .directed }
  | 6 => { x with quantum := v.2 }
  | 7 => { x with maxBurst := v.2 }
  | 8 => { x with requestLength := v.2 }
  | 9 => { x with joinLength := v.2 }
  | 10 => { x with joinCadence := v.2 }
  | 11 => { x with pollLength := v.2 }
  | 12 => { x with pollLimit := v.2 }
  | 13 => { x with maintenancePeriod := v.2 }
  | 14 => { x with missLimit := v.2 }
  | 15 => { x with nmin := v.2 }
  | 16 => { x with nmax := v.2 }
  | 17 => { x with backoffFloor := v.2 }
  | 18 => { x with backoffCeiling := v.2 }
  | 19 => { x with timingTolerance := v.2 }
  | 20 => { x with powerTolerance := v.2 }
  | 21 => { x with maxPowerStep := v.2 }
  | _ => x

/-- A profile field written (R5). -/
def setProfileField (x : Profile) (v : Nat × Nat) : Profile :=
  match v.1 with
  | 22 => { x with symbolsPerBeat := v.2 }
  | 23 => { x with bitsPerSymbol := v.2 }
  | 24 => { x with infoBytes := v.2 }
  | 25 => { x with parityBytes := v.2 }
  | 26 => { x with shortenedAllowed := v.2 = 0 }
  | 27 => { x with preambleSymbols := v.2 }
  | 28 => { x with guardSymbols := v.2 }
  | _ => x

/-- A field of the PENDING page written (R3, R5). -/
def setPageField (x : Page) (v : Nat × Nat) : Page :=
  { params := setParam x.params v, profile := setProfileField x.profile v }

namespace State

/-- NOTICE ENABLE of a kind, by its place in the DEVICE record, written (R162, R166). -/
def setNoticeField (s : State) (v : Nat × Nat) : State :=
  match NoticeKind.all[v.1]? with
  | some k => s.putNoticeEnable k (v.2 == 0)
  | none => s

/-- The masked fields of a record take their values, with the further effects of the table's rule (R160). -/
def writeRecord (s : State) (t : TableId) (i : Nat) (vs : List (Nat × Nat)) : State :=
  match t with
  | .station =>
    s.putStation (Fin.ofNat 8192 i) (vs.foldl setStationField (s.station (Fin.ofNat 8192 i)))
  | .flow => s.putFlow (Fin.ofNat 16384 i) (writeFlow (s.flow (Fin.ofNat 16384 i)) vs)
  | .policyA =>
    s.putPolicyClass .a (Fin.ofNat 8 i) (vs.foldl setClassField (s.policyClass .a (Fin.ofNat 8 i)))
  | .policyB =>
    s.putPolicyClass .b (Fin.ofNat 8 i) (vs.foldl setClassField (s.policyClass .b (Fin.ofNat 8 i)))
  | .channelPending =>
    s.putContext (Fin.ofNat 8 i)
      { s.context (Fin.ofNat 8 i) with
        pendingPage := vs.foldl setPageField (s.context (Fin.ofNat 8 i)).pendingPage }
  | .device => vs.foldl setNoticeField s
  | .channelActive | .identity | .stray => s

/-- The checks of WRITE, in order (R158, R160). R160 says that a WRITE whose mask names no field passes the checks, and not
whether that waives the check of INDEX: that an INDEX out of range is then BAD-INDEX all the same is a DESIGN CHOICE
(assumption 35). -/
def writeCheck (s : State) (t : TableId) (i : Nat) (vs : List (Nat × Nat)) : Code :=
  if !t.takesWrite then .badTable
  else if t.size ≤ i then .badIndex
  else if !fieldsOpen t vs then .badField
  else if !valuesInRange t vs then .badValue
  else if !s.writeAllows t i vs then .state
  else .done

end State

/-- The checks of FILL, in order (R158, R161). -/
def fillCheck (t : TableId) (first count : Nat) (vs : List (Nat × Nat)) : Code :=
  if !t.takesFill then .badTable
  else if t.size ≤ first then .badIndex
  else if count < 1 then .badValue
  else if t.size < first + count then .badIndex
  else if !fieldsOpen t vs then .badField
  else if !valuesInRange t vs then .badValue
  else .done

end Sys2Proof.Machine
end

