-- ==== Sys2Proof/Machine/Management.lean ====
section
/-! DEFINITION. The Management Unit (chapter 10): the control queue, executions and their responses, READ and FILL record
by record, COUNTERS, CLEAR and the two resets. -/

namespace Sys2Proof.Machine

/-! ## The control queue (R154) -/

namespace State

/-- A BUSY response to a frame that is not queued (R154). -/
def refuseBusy (s : State) (f : RawFrame) : State :=
  (s.pushResponse { tag := f.tag, operation := f.operation, code := .busy, results := [] }).countDevice .framesBusy 1

/-- A frame joins the tail of the control queue, or is refused BUSY (R154). -/
def queueFrame (s : State) (f : RawFrame) : State :=
  if s.controlQueue.length < Config.maxControlQueue then s.putControlQueue (s.controlQueue ++ [f])
  else s.refuseBusy f

/-- A control frame arrives (R154). While INBOUND HOLD is yes the sender holds its next frame, so nothing arrives but
the one frame whose transfer had begun (R155, assumption 9). -/
def takeControlFrame (s : State) (f : RawFrame) : State :=
  if s.inboundHold then
    if s.heldArrival then s else { s.queueFrame f with heldArrival := true }
  else s.queueFrame f

/-! ## COUNTERS (R164) -/

/-- COUNTERS (R164): the set in order, 4 bytes each, and the clear. -/
def countersOp (s : State) (set clear : Nat) : Answer :=
  if 8 < set then s.answer .badIndex
  else if 1 < clear then s.answer .badValue
  else
    match asIndex 8 set with
    | some c =>
      { state :=
          if clear = 1 then { s with channelCounters := vput s.channelCounters c (Vector.replicate 48 0) } else s
        code := .done
        results := (vget s.channelCounters c).toList.flatMap (fun n => be 4 n) }
    | none =>
      { state := if clear = 1 then { s with deviceCounters := Vector.replicate 11 0 } else s
        code := .done
        results := s.deviceCounters.toList.flatMap (fun n => be 4 n) }

end State

/-! ## CLEAR (R169) -/

/-- A channel context after CLEAR: both pages and PROFILE NUMBER are kept (R2). -/
def clearedContext (x : ChannelContext) : ChannelContext :=
  { ChannelContext.reset with
    profileNumber := x.profileNumber, activePage := x.activePage, pendingPage := x.pendingPage }

namespace State

/-- The part after CLEAR (R169): every block's operational state at its value for CLEAR, the configuration, the links
and the two management queues kept. -/
def cleared (s : State) : State :=
  { State.reset with
    pending := s.pending
    lastReference := s.lastReference
    referenceSeen := s.referenceSeen
    channels := s.channels.map clearedContext
    policyA := s.policyA
    policyB := s.policyB
    planLinkHold := s.planLinkHold
    planLink := s.planLink
    systemLink := s.systemLink
    controlQueue := s.controlQueue
    inboundHold := s.inboundHold
    heldArrival := s.heldArrival
    responseQueue := s.responseQueue
    noticeEnable := s.noticeEnable
    freeDraws := s.freeDraws }

/-- CLEAR (R169). -/
def clearOp (s : State) : Answer := s.cleared.answer .done

end State

/-! ## READ and FILL (R159, R161) -/

/-- What taking an operation gives: its answer, or an execution that goes on record by record (R156). -/
inductive Taken where
  | ends (a : Answer)
  | goesOn (e : Execution)

namespace State

/-- READ of a table (R158, R159): one record is read whole, several are reached one at a time. -/
def readOp (s : State) (tag : BitVec 16) (t : TableId) (first count : Nat) : Taken :=
  match s.readCheck t first count with
  | .done =>
    if count = 1 then
      .ends { state := s, code := .done, results := s.readOpening t ++ s.recordImage s.strayRing t first }
    else
      .goesOn (.reading
        { tag := tag, table := t, next := first, remaining := count, results := s.readOpening t
          ring := if t = .stray then s.strayRing else [] })
  | code => .ends (s.answer code)

/-- READ of IDENTITY (R23). -/
def readIdentityOp (s : State) (h : HwId) (count : Nat) : Answer :=
  if count ≠ 1 then s.answer .badValue else { state := s, code := .done, results := s.identityResults h }

/-- WRITE (R160). -/
def writeOp (s : State) (t : TableId) (i : Nat) (vs : List (Nat × Nat)) : Answer :=
  match s.writeCheck t i vs with
  | .done => (s.writeRecord t i vs).answer .done
  | code => s.answer code

/-- FILL: its check (R161). -/
def fillOp (s : State) (tag : BitVec 16) (t : TableId) (first count : Nat) (vs : List (Nat × Nat)) : Taken :=
  match fillCheck t first count vs with
  | .done =>
    .goesOn (.filling
      { tag := tag, table := t, next := first, remaining := count, writes := vs, written := 0, skipped := 0 })
  | code => .ends (s.answer code)

/-! ## Executions (R156) -/

/-- An operation taken: every one whole, but for READ of several records and FILL (R156). -/
def operate (s : State) (tag : BitVec 16) : Op → Taken
  | .channelStart c e f => .ends (s.channelStartOp c e f)
  | .channelStop c m => .ends (s.channelStopOp c m)
  | .profileCommit c => .ends (s.profileCommitOp c)
  | .stationAdmit n => .ends (s.stationAdmitOp n)
  | .stationMove n c => .ends (s.stationMoveOp n c)
  | .stationRelease n => .ends (s.stationReleaseOp n)
  | .flowBind f n => .ends (s.flowBindOp f n)
  | .flowActivate f => .ends (s.flowActivateOp f)
  | .flowHold f => .ends (s.flowHoldOp f)
  | .flowUnbind f => .ends (s.flowUnbindOp f)
  | .planWrite c es => .ends (s.planWriteOp c es)
  | .planReady c => .ends (s.planReadyOp c)
  | .planDiscard c => .ends (s.planDiscardOp c)
  | .read t i n => s.readOp tag t i n
  | .readIdentity h n => .ends (s.readIdentityOp h n)
  | .write t i vs => .ends (s.writeOp t i vs)
  | .fill t i n vs => s.fillOp tag t i n vs
  | .noTable _ => .ends (s.answer .badTable)
  | .counters k x => .ends (s.countersOp k x)
  | .clear => .ends s.clearOp

/-- The execution of a frame ends: its response joins the response queue, and FRAMES REFUSED counts one that is not
DONE (R156). -/
def finish (s : State) (tag : BitVec 16) (operation : Byte) (code : Code) (results : List Byte) : State :=
  let t := s.pushResponse { tag := tag, operation := operation, code := code, results := results }
  if code = .done then t else t.countDevice .framesRefused 1

/-- A frame leaves the control queue as its execution begins (R156). -/
def beginFrame (s : State) (q : List RawFrame) : State := (s.putControlQueue q).countDevice .framesTaken 1

/-- The frame `f` at the head of the control queue is executed; `q` is the queue behind it (R156). -/
def executeFrame (s : State) (f : RawFrame) (q : List RawFrame) : State :=
  match f.parsed with
  | .malformed => (s.beginFrame q).finish f.tag f.operation .malformed []
  | .unknown => (s.beginFrame q).finish f.tag f.operation .unknownOp []
  | .op o =>
    match (s.beginFrame q).operate f.tag o with
    | .ends a => a.state.finish f.tag f.operation a.code a.results
    | .goesOn e => (s.beginFrame q).putExecution (some e)

end State

/-- The row of the opcode table that a frame's execution is. A CHANNEL-STOP whose MODE is neither ORDERLY nor ABRUPT
stands under the orderly row (assumption 5). -/
def Parsed.row : Parsed → Instr
  | .malformed | .unknown => .unknownOp
  | .op (.channelStart _ _ _) => .channelStart
  | .op (.channelStop _ m) => if m = 1 then .channelStopAbrupt else .channelStopOrderly
  | .op (.profileCommit _) => .profileCommit
  | .op (.stationAdmit _) => .stationAdmit
  | .op (.stationMove _ _) => .stationMove
  | .op (.stationRelease _) => .stationRelease
  | .op (.flowBind _ _) => .flowBind
  | .op (.flowActivate _) => .flowActivate
  | .op (.flowHold _) => .flowHold
  | .op (.flowUnbind _) => .flowUnbind
  | .op (.planWrite _ _) => .planWrite
  | .op (.planReady _) => .planReady
  | .op (.planDiscard _) => .planDiscard
  | .op (.read _ _ _) | .op (.readIdentity _ _) | .op (.noTable .read) => .read
  | .op (.write _ _ _) | .op (.noTable .write) => .write
  | .op (.fill _ _ _ _) | .op (.noTable .fill) => .fill
  | .op (.counters _ _) => .counters
  | .op .clear => .clear

namespace State

/-- The execution of the head frame, where the Management Unit may begin one and the frame's row is `row` (R156). -/
def executeRow (s : State) (row : Instr) : State :=
  if s.executionMayBegin then
    match s.controlQueue with
    | f :: q => if f.parsed.row = row then s.executeFrame f q else s
    | [] => s
  else s

/-- The execution of the head frame, whatever its operation. -/
def executeHead (s : State) : State :=
  if s.executionMayBegin then
    match s.controlQueue with
    | f :: q => s.executeFrame f q
    | [] => s
  else s

/-! ## Records of a READ and of a FILL -/

/-- A READ reaches its next record, read whole as it stands (R159). -/
def readNext (s : State) (j : ReadJob) : State :=
  if j.remaining ≤ 1 then
    (s.putExecution none).finish j.tag 14 .done (j.results ++ s.recordImage j.ring j.table j.next)
  else
    s.putExecution (some (.reading
      { j with
        next := j.next + 1, remaining := j.remaining - 1
        results := j.results ++ s.recordImage j.ring j.table j.next }))

/-- READ_RECORD. -/
def readRecordStep (s : State) : State :=
  match s.execution with
  | some (.reading j) => s.readNext j
  | some (.filling _) | none => s

/-- The FILL with the record it reaches written or skipped (R161). -/
def fillReached (s : State) (j : FillJob) : FillJob :=
  if s.stateAllows j.table j.next j.writes then
    { j with next := j.next + 1, remaining := j.remaining - 1, written := j.written + 1 }
  else { j with next := j.next + 1, remaining := j.remaining - 1, skipped := j.skipped + 1 }

/-- A FILL reaches its next record (R161). -/
def fillNext (s : State) (j : FillJob) : State :=
  let t := if s.stateAllows j.table j.next j.writes then s.writeRecord j.table j.next j.writes else s
  if j.remaining ≤ 1 then
    (t.putExecution none).finish j.tag 16 .done
      (be 2 (s.fillReached j).written ++ be 2 (s.fillReached j).skipped)
  else t.putExecution (some (.filling (s.fillReached j)))

/-- FILL_RECORD. -/
def fillRecordStep (s : State) : State :=
  match s.execution with
  | some (.filling j) => s.fillNext j
  | some (.reading _) | none => s

/-! ## Resets (R168, R174) -/

/-- A link when a reset is taken: a frame being sent is closed with frame-abort where it stood, fewer BODY bytes than
LENGTH declares having gone out (R174). How many is a free value, the draw `k` (assumption 3). -/
def abortLink (l : OutLink) (k : Nat) : OutLink :=
  match l.sending with
  | none => l
  | some f =>
    { sending := none
      sent := l.sent ++ [{ bytes := f.take (min (Config.abortPoint k) (f.length - 3)), close := .frameAbort }] }

/-- Power-on reset and line reset (R168): every piece of state at its reset value, HOLD at the framer's present
indication (R126). -/
def afterReset (s : State) (hold : Bool) : State :=
  { State.reset with
    pending := s.pending
    planLinkHold := hold
    planLink := abortLink s.planLink s.freeDraws
    systemLink := abortLink s.systemLink (s.freeDraws + 1)
    freeDraws := s.freeDraws + 2 }

end State

end Sys2Proof.Machine
end

