-- ==== Sys2Proof/Machine/Settle.lean ====
section
/-! DEFINITION. What the part does at once. Several rules take a step "at once" in the event that makes its condition true
(R62, R127, R153, R156), and a deadline is acted on when its beat is reached (R8, R9). Each such step is a row of its
own; before the next event from outside is taken, and before the next step of work that takes time, whatever is still
due is done (assumption 2). -/

namespace Sys2Proof.Machine

/-- A step that is due: its condition holds. -/
inductive Due where
  | buildBegin
  | planDeparture
  | adjustDeparture
  | responseDeparture
  | noticeDeparture
  | forwardDeparture
  | execution
  | expiry (c : ChanNo)
  | withdrawal (c : ChanNo)
  | emitTime (c : ChanNo)
deriving DecidableEq, Repr

namespace State

/-- The engine can take a request (R62). -/
def buildMayBegin (s : State) : Bool := s.engine.isNone && !s.buildQueue.isEmpty

/-- A deadline of the beat channel `c` stands at: expiries first, then the withdrawal, then the emit time
(assumption 21). -/
def dueOn (s : State) (c : ChanNo) : Option Due :=
  if s.expiryReached c then some (.expiry c)
  else if s.withdrawalReached c then some (.withdrawal c)
  else if s.emitTimeReached c then some (.emitTime c)
  else none

/-- The channel whose reached deadline lies furthest back in reference units, the lower number of two that are equal:
deadlines of several channels are acted on in the order the reference count reached them (assumption 21). -/
def lateChannel (s : State) : Option ChanNo :=
  (allChannels.filter (fun c => s.deadlineReached c)).foldl
    (fun best c =>
      match best with
      | none => some c
      | some d => if s.unitsBehind d < s.unitsBehind c then some c else some d)
    none

/-- The next step that is due (assumption 2). -/
def nextDue (s : State) : Option Due :=
  if s.buildMayBegin then some .buildBegin
  else if s.planLinkAccepts && s.nextDeparture.isSome then some .planDeparture
  else if s.adjustDeparture.isSome then some .adjustDeparture
  else if s.systemLinkAccepts && !s.responseQueue.isEmpty then some .responseDeparture
  else if s.noticeChosen.isSome then some .noticeDeparture
  else if s.unitChosen.isSome then some .forwardDeparture
  else if s.executionMayBegin then some .execution
  else s.lateChannel.bind s.dueOn

/-- The step taken. -/
def act (s : State) : Due → State
  | .buildBegin => s.takeRequest
  | .planDeparture => s.planDepartureStep
  | .adjustDeparture => s.adjustDepartureStep
  | .responseDeparture => s.responseDepartureStep
  | .noticeDeparture => s.noticeDepartureStep
  | .forwardDeparture => s.forwardDepartureStep
  | .execution => s.executeHead
  | .expiry c => s.expiryStep c
  | .withdrawal c => s.withdrawalStep c
  | .emitTime c => s.emitTimeStep c

/-- At most `k` steps that are due, one after another, until none is. -/
def settleWithin : Nat → State → State
  | 0, s => s
  | k + 1, s =>
    match s.nextDue with
    | none => s
    | some d => settleWithin k (s.act d)

/-- Everything due is done. The bound is never reached: one reference count brings fewer than 2^32 beats, and a beat
has few deadlines. -/
def settle (s : State) : State := settleWithin 1099511627776 s

end State

end Sys2Proof.Machine
end

