-- ==== Sys2Proof/Machine/Events.lean ====
section
/-! DEFINITION. The meaning of each command, one definition per row of the opcode table.

A step from outside, and a step of work that takes time, is taken after everything due has been done (State.settle,
assumption 2). A step that is itself due acts only where its own condition holds; elsewhere the manual has no such
event, and nothing changes (assumption 1). -/

namespace Sys2Proof.Machine

/-! ## Resets (R168) -/

/-- POWER_ON_RESET (R168). -/
def execPowerOnReset (hold : Bool) (s : State) : Host.Outcome State Fault Refusal := .next (s.afterReset hold)

/-- LINE_RESET (R168): taken whatever the part is doing, it acts exactly as power-on reset. -/
def execLineReset (hold : Bool) (s : State) : Host.Outcome State Fault Refusal := .next (s.afterReset hold)

/-! ## Time (R8, R9) -/

/-- REFERENCE_COUNT (R8). -/
def execReferenceCount (r : RefCount) (s : State) : Host.Outcome State Fault Refusal := .next (s.settle.takeReference r)

/-- EMIT_TIME of channel `c` (R80 to R82, R124, R136). -/
def execEmitTime (c : ChanNo) (s : State) : Host.Outcome State Fault Refusal := .next (s.emitTimeStep c)

/-- WITHDRAWAL_DEADLINE of channel `c` (R130). -/
def execWithdrawalDeadline (c : ChanNo) (s : State) : Host.Outcome State Fault Refusal := .next (s.withdrawalStep c)

/-- EXPIRY on channel `c` (R148). -/
def execExpiry (c : ChanNo) (s : State) : Host.Outcome State Fault Refusal := .next (s.expiryStep c)

/-! ## The build (chapters 4 to 7) -/

/-- BUILD_BEGIN (R62, R63). -/
def execBuildBegin (s : State) : Host.Outcome State Fault Refusal := .next (s.takeRequest)

/-- PERIODIC_TIMING (R88, R89). -/
def execPeriodicTiming (s : State) : Host.Outcome State Fault Refusal := .next (s.settle.periodicTimingStep)

/-- PERIODIC_WALK (R90, R91). -/
def execPeriodicWalk (s : State) : Host.Outcome State Fault Refusal := .next (s.settle.periodicWalkStep)

/-- EXTRA_TURN (R93). -/
def execExtraTurn (s : State) : Host.Outcome State Fault Refusal := .next (s.settle.extraTurnStep)

/-- JOIN_OPENING (R104). -/
def execJoinOpening (s : State) : Host.Outcome State Fault Refusal := .next (s.settle.joinOpeningStep)

/-- POLL_QUEUE_TAKE (R112). -/
def execPollQueueTake (s : State) : Host.Outcome State Fault Refusal := .next (s.settle.pollQueueTakeStep)

/-- SWEEP (R113). -/
def execSweep (s : State) : Host.Outcome State Fault Refusal := .next (s.settle.sweepStep)

/-- REQUEST_OPENING_PLACE (R69). -/
def execRequestOpeningPlace (s : State) : Host.Outcome State Fault Refusal := .next (s.settle.requestOpeningStep)

/-- FLOW_VISIT (R71 to R73). -/
def execFlowVisit (s : State) : Host.Outcome State Fault Refusal := .next (s.settle.flowVisitStep)

/-- CLOSING (R74). -/
def execClosing (s : State) : Host.Outcome State Fault Refusal := .next (s.settle.closingStep)

/-- HOLD_APPEND (R75). -/
def execHoldAppend (s : State) : Host.Outcome State Fault Refusal := .next (s.settle.holdAppendStep)

/-! ## The Plan Link (R126 to R129) -/

/-- PLAN_DEPARTURE (R127, R128). -/
def execPlanDeparture (s : State) : Host.Outcome State Fault Refusal := .next (s.planDepartureStep)

/-- ADJUST_FRAME_DEPARTURE (R127, R129). -/
def execAdjustFrameDeparture (s : State) : Host.Outcome State Fault Refusal := .next (s.adjustDepartureStep)

/-- PLAN_LINK_HOLD (R126). -/
def execPlanLinkHold (s : State) : Host.Outcome State Fault Refusal := .next (s.settle.putPlanLinkHold true)

/-- PLAN_LINK_RELEASE (R126). -/
def execPlanLinkRelease (s : State) : Host.Outcome State Fault Refusal := .next (s.settle.putPlanLinkHold false)

/-- PLAN_LINK_FRAME_END (R126). -/
def execPlanLinkFrameEnd (s : State) : Host.Outcome State Fault Refusal := .next (s.settle.planLinkEnd)

/-! ## Burst Intake and the System Link (R141, R153, R154) -/

/-- BURST_RECORD (R140 to R150, R171). -/
def execBurstRecord (f : RawFrame) (s : State) : Host.Outcome State Fault Refusal := .next (s.settle.takeBurstFrame f)

/-- CONTROL_FRAME (R154). -/
def execControlFrame (f : RawFrame) (s : State) : Host.Outcome State Fault Refusal := .next (s.settle.takeControlFrame f)

/-- SYSTEM_LINK_FRAME_END (R153). -/
def execSystemLinkFrameEnd (s : State) : Host.Outcome State Fault Refusal := .next (s.settle.systemLinkEnd)

/-- RESPONSE_DEPARTURE (R153, R155). -/
def execResponseDeparture (s : State) : Host.Outcome State Fault Refusal := .next (s.responseDepartureStep)

/-- NOTICE_DEPARTURE (R153, R167). -/
def execNoticeDeparture (s : State) : Host.Outcome State Fault Refusal := .next (s.noticeDepartureStep)

/-- FORWARD_DEPARTURE (R152, R153). -/
def execForwardDeparture (s : State) : Host.Outcome State Fault Refusal := .next (s.forwardDepartureStep)

/-! ## Executions of the head frame (R156; assumption 4) -/

/-- UNKNOWN_OP (R156, R173): the format check fails, or no operation is named. -/
def execUnknownOp (s : State) : Host.Outcome State Fault Refusal := .next (s.executeRow .unknownOp)

/-- CHANNEL_START (R10). -/
def execChannelStart (s : State) : Host.Outcome State Fault Refusal := .next (s.executeRow .channelStart)

/-- CHANNEL_STOP_ORDERLY (R12). -/
def execChannelStopOrderly (s : State) : Host.Outcome State Fault Refusal := .next (s.executeRow .channelStopOrderly)

/-- CHANNEL_STOP_ABRUPT (R14). -/
def execChannelStopAbrupt (s : State) : Host.Outcome State Fault Refusal := .next (s.executeRow .channelStopAbrupt)

/-- PROFILE_COMMIT (R15). -/
def execProfileCommit (s : State) : Host.Outcome State Fault Refusal := .next (s.executeRow .profileCommit)

/-- STATION_ADMIT (R31). -/
def execStationAdmit (s : State) : Host.Outcome State Fault Refusal := .next (s.executeRow .stationAdmit)

/-- STATION_MOVE (R32). -/
def execStationMove (s : State) : Host.Outcome State Fault Refusal := .next (s.executeRow .stationMove)

/-- STATION_RELEASE (R34). -/
def execStationRelease (s : State) : Host.Outcome State Fault Refusal := .next (s.executeRow .stationRelease)

/-- FLOW_BIND (R41). -/
def execFlowBind (s : State) : Host.Outcome State Fault Refusal := .next (s.executeRow .flowBind)

/-- FLOW_ACTIVATE (R42). -/
def execFlowActivate (s : State) : Host.Outcome State Fault Refusal := .next (s.executeRow .flowActivate)

/-- FLOW_HOLD (R43). -/
def execFlowHold (s : State) : Host.Outcome State Fault Refusal := .next (s.executeRow .flowHold)

/-- FLOW_UNBIND (R44). -/
def execFlowUnbind (s : State) : Host.Outcome State Fault Refusal := .next (s.executeRow .flowUnbind)

/-- PLAN_WRITE (R133). -/
def execPlanWrite (s : State) : Host.Outcome State Fault Refusal := .next (s.executeRow .planWrite)

/-- PLAN_READY (R134). -/
def execPlanReady (s : State) : Host.Outcome State Fault Refusal := .next (s.executeRow .planReady)

/-- PLAN_DISCARD (R135). -/
def execPlanDiscard (s : State) : Host.Outcome State Fault Refusal := .next (s.executeRow .planDiscard)

/-- READ (R159). -/
def execRead (s : State) : Host.Outcome State Fault Refusal := .next (s.executeRow .read)

/-- READ_RECORD (R159). -/
def execReadRecord (s : State) : Host.Outcome State Fault Refusal := .next (s.settle.readRecordStep)

/-- WRITE (R160). -/
def execWrite (s : State) : Host.Outcome State Fault Refusal := .next (s.executeRow .write)

/-- FILL (R161). -/
def execFill (s : State) : Host.Outcome State Fault Refusal := .next (s.executeRow .fill)

/-- FILL_RECORD (R161). -/
def execFillRecord (s : State) : Host.Outcome State Fault Refusal := .next (s.settle.fillRecordStep)

/-- COUNTERS (R164). -/
def execCounters (s : State) : Host.Outcome State Fault Refusal := .next (s.executeRow .counters)

/-- CLEAR (R169). -/
def execClear (s : State) : Host.Outcome State Fault Refusal := .next (s.executeRow .clear)

end Sys2Proof.Machine
end

