-- ==== Sys2Proof/Machine/Dispatch.lean ====
section
/-! DEFINITION. The command table: one arm per command, each one call of its meaning. -/

namespace Sys2Proof.Machine

/-- The effect of a command on everything but the queue of waiting commands. -/
def exec (i : Instr) (s : State) : Host.Outcome State Fault Refusal :=
  match i with
  | .powerOnReset hold => Sys2Proof.Machine.execPowerOnReset hold s
  | .lineReset hold => Sys2Proof.Machine.execLineReset hold s
  | .referenceCount r => Sys2Proof.Machine.execReferenceCount r s
  | .emitTime c => Sys2Proof.Machine.execEmitTime c s
  | .withdrawalDeadline c => Sys2Proof.Machine.execWithdrawalDeadline c s
  | .expiry c => Sys2Proof.Machine.execExpiry c s
  | .buildBegin => Sys2Proof.Machine.execBuildBegin s
  | .periodicTiming => Sys2Proof.Machine.execPeriodicTiming s
  | .periodicWalk => Sys2Proof.Machine.execPeriodicWalk s
  | .extraTurn => Sys2Proof.Machine.execExtraTurn s
  | .joinOpening => Sys2Proof.Machine.execJoinOpening s
  | .pollQueueTake => Sys2Proof.Machine.execPollQueueTake s
  | .sweep => Sys2Proof.Machine.execSweep s
  | .requestOpeningPlace => Sys2Proof.Machine.execRequestOpeningPlace s
  | .flowVisit => Sys2Proof.Machine.execFlowVisit s
  | .closing => Sys2Proof.Machine.execClosing s
  | .holdAppend => Sys2Proof.Machine.execHoldAppend s
  | .planDeparture => Sys2Proof.Machine.execPlanDeparture s
  | .adjustFrameDeparture => Sys2Proof.Machine.execAdjustFrameDeparture s
  | .planLinkHold => Sys2Proof.Machine.execPlanLinkHold s
  | .planLinkRelease => Sys2Proof.Machine.execPlanLinkRelease s
  | .planLinkFrameEnd => Sys2Proof.Machine.execPlanLinkFrameEnd s
  | .burstRecord f => Sys2Proof.Machine.execBurstRecord f s
  | .controlFrame f => Sys2Proof.Machine.execControlFrame f s
  | .systemLinkFrameEnd => Sys2Proof.Machine.execSystemLinkFrameEnd s
  | .responseDeparture => Sys2Proof.Machine.execResponseDeparture s
  | .noticeDeparture => Sys2Proof.Machine.execNoticeDeparture s
  | .forwardDeparture => Sys2Proof.Machine.execForwardDeparture s
  | .unknownOp => Sys2Proof.Machine.execUnknownOp s
  | .channelStart => Sys2Proof.Machine.execChannelStart s
  | .channelStopOrderly => Sys2Proof.Machine.execChannelStopOrderly s
  | .channelStopAbrupt => Sys2Proof.Machine.execChannelStopAbrupt s
  | .profileCommit => Sys2Proof.Machine.execProfileCommit s
  | .stationAdmit => Sys2Proof.Machine.execStationAdmit s
  | .stationMove => Sys2Proof.Machine.execStationMove s
  | .stationRelease => Sys2Proof.Machine.execStationRelease s
  | .flowBind => Sys2Proof.Machine.execFlowBind s
  | .flowActivate => Sys2Proof.Machine.execFlowActivate s
  | .flowHold => Sys2Proof.Machine.execFlowHold s
  | .flowUnbind => Sys2Proof.Machine.execFlowUnbind s
  | .planWrite => Sys2Proof.Machine.execPlanWrite s
  | .planReady => Sys2Proof.Machine.execPlanReady s
  | .planDiscard => Sys2Proof.Machine.execPlanDiscard s
  | .read => Sys2Proof.Machine.execRead s
  | .readRecord => Sys2Proof.Machine.execReadRecord s
  | .write => Sys2Proof.Machine.execWrite s
  | .fill => Sys2Proof.Machine.execFill s
  | .fillRecord => Sys2Proof.Machine.execFillRecord s
  | .counters => Sys2Proof.Machine.execCounters s
  | .clear => Sys2Proof.Machine.execClear s

end Sys2Proof.Machine
end

