-- ==== Sys2Proof/Safety.lean ====
section
/-! DEFINITION. The terms in which claims are stated: what is due and when nothing is, when the head frame is executed and
what every execution does beside its operation's effect, when an element fits into the plan under build and how the build
then goes on, what a tally, a miss, a unit or a departure from ONLINE changes, and the invariants. Conditions of the manual
are written out here in its own terms, not by the names of the model's tests. -/

namespace Sys2Proof.Machine

/-- The command comes from outside, and is not a reset: a reference count, a frame that arrives, or an event of a link. -/
def comesFromOutside : Instr → Bool
  | .referenceCount _ => true
  | .burstRecord _ | .controlFrame _ => true
  | .planLinkHold | .planLinkRelease => true
  | .planLinkFrameEnd | .systemLinkFrameEnd => true
  | _ => false

/-- The command is a step of work that takes time: of a build, by its stage (R68), or of a READ or a FILL. -/
def takesTime : Instr → Bool
  | .periodicTiming | .periodicWalk | .extraTurn => true
  | .joinOpening | .pollQueueTake | .sweep => true
  | .requestOpeningPlace => true
  | .flowVisit => true
  | .closing | .holdAppend => true
  | .readRecord | .fillRecord => true
  | _ => false

/-- The commands that are taken after everything due has been done (assumption 2). The others are the two resets, the deadlines,
and the steps that are done at once: the beginning of a build, the departures and the executions. -/
def takenWhenSettled (c : Instr) : Bool := comesFromOutside c || takesTime c

/-- The command is the row of an operation, and executes the frame at the head of the control queue (R156, assumption 4). -/
def executesTheHead : Instr → Bool
  | .unknownOp | .profileCommit => true
  | .channelStart | .channelStopOrderly | .channelStopAbrupt => true
  | .stationAdmit | .stationMove | .stationRelease => true
  | .flowBind | .flowActivate | .flowHold | .flowUnbind => true
  | .planWrite | .planReady | .planDiscard => true
  | .read | .write | .fill | .counters | .clear => true
  | _ => false

namespace State

/-- Nothing is due: the state is one in which only an event from outside, or a step of work that takes time, comes
next (assumption 2). -/
abbrev Quiet (s : State) : Prop := s.nextDue = none

/-- The command whose row a due step is. -/
def dueCommand (s : State) : Due → Instr
  | .expiry c => .expiry c
  | .withdrawal c => .withdrawalDeadline c
  | .emitTime c => .emitTime c
  | .buildBegin => .buildBegin
  | .planDeparture => .planDeparture
  | .adjustDeparture => .adjustFrameDeparture
  | .execution =>
    match s.controlQueue with
    | f :: _ => f.parsed.row
    | [] => .unknownOp
  | .responseDeparture => .responseDeparture
  | .noticeDeparture => .noticeDeparture
  | .forwardDeparture => .forwardDeparture

/-- `k` due steps, the first due first, take `s` to `t`. -/
def DueSteps : Nat → State → State → Prop
  | 0, s, t => t = s
  | k + 1, s, t => ∃ d, s.nextDue = some d ∧ DueSteps k (s.act d) t

/-- The build under way has been moved past everything that is finished (assumption 18). -/
abbrev BuildSettled (s : State) : Prop := s.advanceBuild = s

/-! ## Executions (R155, R156) -/

/-- The Management Unit may begin an execution, and the head frame `f`, with `q` behind it, carries the operation
`o`. -/
abbrev Executes (s : State) (f : RawFrame) (q : List RawFrame) (o : Op) : Prop :=
  s.executionMayBegin = true ∧ s.controlQueue = f :: q ∧ f.parsed = .op o

/-- The response to the frame `f`. -/
def responseTo (f : RawFrame) (code : Code) (results : List Byte) : Response where
  tag := f.tag
  operation := f.operation
  code := code
  results := results

/-- What every whole execution does beside its operation's effect: the frame has left the control queue, its response
stands at the tail of the response queue, INBOUND HOLD is yes if that makes 30, FRAMES TAKEN has counted it and FRAMES
REFUSED if the response is not DONE. -/
def Answers (s t : State) (f : RawFrame) (q : List RawFrame) (code : Code) (results : List Byte) : Prop :=
  t.controlQueue = q ∧
  t.responseQueue = s.responseQueue ++ [responseTo f code results] ∧
  t.inboundHold = decide (30 ≤ s.responseQueue.length + 1) ∧
  ∀ k, t.deviceCounter k =
    if k = .framesTaken ∨ (k = .framesRefused ∧ code ≠ .done) then saturate (s.deviceCounter k) 1
    else s.deviceCounter k

/-- `s` with the fields that every execution writes as they stand in `t`. -/
def managed (s t : State) : State :=
  { s with
    controlQueue := t.controlQueue
    responseQueue := t.responseQueue
    inboundHold := t.inboundHold
    deviceCounters := t.deviceCounters }

/-- The Management Unit may begin an execution, and the head frame `f`, with `q` behind it, is sound (R173), carries the
operation numbered `o`, a READ, WRITE or FILL, and names none of the nine tables (R158): its TABLE byte is 9 or more. -/
def NamesNoTable (s : State) (f : RawFrame) (q : List RawFrame) (o : Nat) : Prop :=
  s.executionMayBegin = true ∧ s.controlQueue = f :: q ∧ f.close = .frameEnd ∧ f.bytes.head? = some 7#8 ∧
  f.checkHolds = true ∧ f.declared = f.body.length ∧ f.body.length ≤ 1024 ∧ f.operation.toNat = o ∧
  ∃ b, f.body[3]? = some b ∧ 9 ≤ b.toNat

/-! ## Placement (R65, R66, R90) -/

/-- An element of `n` beats fits first-fit into the plan under build at offset `o`, leaving `spans`. -/
abbrev Room (s : State) (b : BuildContext) (n : Nat) (body : ElementBody) (o : Nat) (spans : List Span) : Prop :=
  firstFit n b.freeSpans = some (o, spans) ∧
  withinBudget (addElement { offset := o, length := n, body := body } (s.buildHalf b.channel).elements) spans = true

/-- A periodic turn of `n` beats fits into the plan under build at offset `p`. -/
def Fits (s : State) (b : BuildContext) (n : Nat) (body : ElementBody) (p : Nat) : Prop :=
  p + n ≤ (s.params b.channel).planLength ∧
  ∃ spans, cutWindow p n b.freeSpans = some spans ∧
    withinBudget (addElement { offset := p, length := n, body := body } (s.buildHalf b.channel).elements) spans = true

/-- The elements of the build half of the channel under build, after an element is placed. -/
def placed (s : State) (b : BuildContext) (n : Nat) (body : ElementBody) (o : Nat) : List Element :=
  addElement { offset := o, length := n, body := body } (s.buildHalf b.channel).elements

/-- The reference units remaining until the emit time of a build request (R61): whole beats less the phase, and less the
beats already brought and not yet reached (assumption 6). -/
def unitsLeft (s : State) (x : BuildRequest) : Int :=
  (((x.emitTime - (s.context x.channel).currentBeat).toNat : Int) - (s.context x.channel).beatsToReach) *
      (s.params x.channel).beatLength - (s.context x.channel).beatPhase

/-- The request `x` has joined the build queue `p`, which is now `q`: behind every request it does not go ahead of, ahead of
the first it does: one with more units remaining, or with as many and a higher channel (R61). -/
def QueuedInOrder (s : State) (x : BuildRequest) (p q : List BuildRequest) : Prop :=
  ∃ l r, p = l ++ r ∧ q = l ++ x :: r ∧
    (∀ y ∈ l, ¬ (s.unitsLeft x < s.unitsLeft y ∨ (s.unitsLeft x = s.unitsLeft y ∧ x.channel < y.channel))) ∧
    ∀ y, r.head? = some y → s.unitsLeft x < s.unitsLeft y ∨ (s.unitsLeft x = s.unitsLeft y ∧ x.channel < y.channel)

/-- What the swap of channel `c` leaves when `plan` is what the Plan Builder and the Plan Store made of the build half
(R11, R124). `q` is the build queue without a request of the channel. -/
def Swapped (s t : State) (c : ChanNo) (plan : PlanRecord) (q : List BuildRequest) : Prop :=
  (t.context c).planSequence = (s.context c).planSequence + 1 ∧
  (t.context c).nextStart = (s.context c).nextStart + beats32 (s.params c).planLength ∧
  (t.context c).state = (s.context c).state ∧ (t.context c).profileNumber = (s.context c).profileNumber ∧
  (t.context c).armedProfile = (s.context c).armedProfile ∧
  (t.context c).activePage = (s.context c).activePage ∧ (t.context c).pendingPage = (s.context c).pendingPage ∧
  t.emitHalfPlan c = { plan with planSequence := some (s.context c).planSequence } ∧
  t.buildHalf c = PlanRecord.empty ∧
  (t.planStore c).emitHalf = (s.planStore c).emitHalf.other ∧
  (t.planStore c).emitCondition = .awaitingDeparture ∧
  (t.planStore c).withdrawalDeadline = plan.start - beats32 (s.params c).flightMargin ∧
  ((s.context c).drainMark = .beforeFinalSwap →
    (t.context c).drainMark = .afterFinalSwap ∧ t.buildCondition c = .none ∧ t.buildQueue = q) ∧
  ((s.context c).drainMark ≠ .beforeFinalSwap →
    (t.context c).drainMark = (s.context c).drainMark ∧ t.buildCondition c = .queued ∧
    s.QueuedInOrder
      { channel := c
        emitTime := (s.context c).nextStart + beats32 (s.params c).planLength - beats32 (s.params c).lead }
      q t.buildQueue)

/-- The state keeps everything an emit time does not write: stations, flows, lists, calendars, contention, the expect
queues, the queues of management and the links. -/
def EmitFrame (s t : State) (c : ChanNo) : Prop :=
  t = { s with
        channels := t.channels, planStores := t.planStores, buildConditions := t.buildConditions
        buildQueue := t.buildQueue, channelCounters := t.channelCounters, notices := t.notices } ∧
  ∀ d, d ≠ c →
    t.context d = s.context d ∧ t.planStore d = s.planStore d ∧ t.buildCondition d = s.buildCondition d

/-- The pending record of a kind after one occurrence is raised (R165, R166). -/
def Raised (s t : State) (d : NoticeDetail) : Prop :=
  t.notice d.kind =
    if vget s.noticeEnable d.kind.index then
      match s.notice d.kind with
      | none => some { detail := d, count := 1 }
      | some p => some { detail := p.detail, count := min 65535 (p.count + 1) }
    else s.notice d.kind

/-- The elements of the build half of the channel under build are those of `s` with one placed; nothing else of the Plan
Store changes. -/
def PlacedIn (s t : State) (b : BuildContext) (n : Nat) (body : ElementBody) (o : Nat) : Prop :=
  t.planStores =
    (s.putBuildHalf b.channel { s.buildHalf b.channel with elements := s.placed b n body o }).planStores

/-- The build `b` goes on with the free spans `spans`, and `next` says what comes next: CHANNEL, START and CADENCE SEQUENCE
are kept (R60). -/
def BuildGoesOn (t : State) (b : BuildContext) (spans : List Span) (next : BuildContext → Prop) : Prop :=
  ∃ x, t.engine = some x ∧ x.channel = b.channel ∧ x.start = b.start ∧
    x.cadenceSequence = b.cadenceSequence ∧ x.freeSpans = spans ∧ next x

/-! ### What comes next in a build (R68 to R73): `x` is its context, in the state `t` the step leaves -/

/-- Stage 3 takes up the levels `P` (R70, R71): the highest that holds a flow is begun, with a round over the flows then in
it; with no such level, or no free beat, closing comes next. -/
def VisitsFrom (t : State) (P : Level → Prop) (x : BuildContext) : Prop :=
  (x.freeSpans = [] ∨ (∀ l, P l → t.active x.channel l = []) → x.phase = .closing) ∧
  ∀ l, x.freeSpans ≠ [] → P l → t.active x.channel l ≠ [] → (∀ m, P m → l < m → t.active x.channel m = []) →
    x.phase = .visits ∧ x.level = l ∧ x.roundRemaining = (t.active x.channel l).length ∧ x.roundPlaced = false

/-- A round of level `l` with `k` visits to come, `placed` saying whether it has placed a turn (R70, R71). A level that has
become empty is over; a finished round that placed a turn is followed by another of the level, one that did not by the
levels below; with no free beat closing comes next. -/
def RoundFrom (t : State) (l : Level) (k : Nat) (placed : Bool) (x : BuildContext) : Prop :=
  (x.freeSpans = [] → x.phase = .closing) ∧
  (x.freeSpans ≠ [] → t.active x.channel l = [] ∨ (k = 0 ∧ placed = false) → t.VisitsFrom (fun m => m < l) x) ∧
  (x.freeSpans ≠ [] → t.active x.channel l ≠ [] → k = 0 → placed = true →
    x.phase = .visits ∧ x.level = l ∧ x.roundRemaining = (t.active x.channel l).length ∧ x.roundPlaced = false) ∧
  (x.freeSpans ≠ [] → t.active x.channel l ≠ [] → k ≠ 0 →
    x.phase = .visits ∧ x.level = l ∧ x.roundRemaining = k ∧ x.roundPlaced = placed)

/-- Stage 2 with `k` openings still to be placed; stage 3 comes after the last (R69). -/
def OpeningsFrom (t : State) (k : Nat) (x : BuildContext) : Prop :=
  (k ≠ 0 → x.phase = .openings k) ∧ (k = 0 → t.VisitsFrom (fun _ => True) x)

/-- The openings of stage 2 are TARGET (R69). -/
def TargetFrom (t : State) (x : BuildContext) : Prop := t.OpeningsFrom (t.contentionOf x.channel).target x

/-- The sweep, with `k` records examined, while fewer than POLL LIMIT stations are chosen and fewer than 64 records are
examined; else stage 2 (R113). -/
def SweepFrom (t : State) (k : Nat) (chosen : List StationNo) (x : BuildContext) : Prop :=
  (k < 64 → chosen.length < (t.params x.channel).pollLimit → x.phase = .sweep k chosen) ∧
  (64 ≤ k ∨ (t.params x.channel).pollLimit ≤ chosen.length → t.TargetFrom x)

/-- Group 4 with `k` stations still to be taken from the poll queue; then the sweep (R112, R113). -/
def PollsFrom (t : State) (k : Nat) (chosen : List StationNo) (x : BuildContext) : Prop :=
  (k ≠ 0 → t.pollQueue x.channel ≠ [] → x.phase = .polls k chosen) ∧
  (k = 0 ∨ t.pollQueue x.channel = [] → t.SweepFrom 0 chosen x)

/-- Group 4 begins: the lesser of POLL LIMIT and the stations now in the queue are to be taken (R112). -/
def Group4From (t : State) (x : BuildContext) : Prop :=
  t.PollsFrom (min (t.params x.channel).pollLimit (t.pollQueue x.channel).length) [] x

/-- Group 3 offers a join opening when J is not 0 and divides CADENCE SEQUENCE (R104); else group 4. -/
def Group3From (t : State) (x : BuildContext) : Prop :=
  ((t.params x.channel).joinCadence ≠ 0 → x.cadenceSequence.toNat % (t.params x.channel).joinCadence = 0 →
    x.phase = .join) ∧
  ((t.params x.channel).joinCadence = 0 ∨ x.cadenceSequence.toNat % (t.params x.channel).joinCadence ≠ 0 →
    t.Group4From x)

/-- Group 2 goes on with the first of the flows `q` that is TIMED and owes an extra; with none, group 3 (R93). -/
def ExtrasFrom (t : State) (q : List FlowNo) (x : BuildContext) : Prop :=
  (∀ l f r, q = l ++ f :: r →
    (∀ g ∈ l, ¬ (g ∈ (t.calendar x.channel).timed ∧ 0 < (t.flow g).extrasOwed)) →
    f ∈ (t.calendar x.channel).timed → 0 < (t.flow f).extrasOwed → x.phase = .extras (f :: r)) ∧
  ((∀ g ∈ q, ¬ (g ∈ (t.calendar x.channel).timed ∧ 0 < (t.flow g).extrasOwed)) → t.Group3From x)

/-- Group 1 goes on while the nominal of the head of the TIMED part falls in the plan; then group 2 over the TIMED flows
(R90, R93). -/
def WalkFrom (t : State) (x : BuildContext) : Prop :=
  (∀ f r n, (t.calendar x.channel).timed = f :: r → (t.flow f).nextNominal = some n →
    (n - x.start).toNat < (t.params x.channel).planLength → x.phase = .walk) ∧
  ((∀ f r n, (t.calendar x.channel).timed = f :: r → (t.flow f).nextNominal = some n →
      (t.params x.channel).planLength ≤ (n - x.start).toNat) →
    t.ExtrasFrom (t.calendar x.channel).timed x)

/-- `f` goes ahead of `g` in the TIMED part (R84): by nominal, `a` before `b` when (b − a) mod 2^32 lies in 1 … 2^31 − 1, then
by number. Two flows without a nominal stand by number. -/
def NominalAhead (t : State) (f g : FlowNo) : Prop :=
  match (t.flow f).nextNominal, (t.flow g).nextNominal with
  | some a, some b => (1 ≤ (b - a).toNat ∧ (b - a).toNat < 2 ^ 31) ∨ (a = b ∧ f < g)
  | none, none | some _, none | none, some _ => f < g

/-- Channel Control tests the stopping conditions of channel `c` in an event that leaves `t` (R13): a DRAINING channel past
its final swap, with no plan awaiting departure and an empty Expect Queue, becomes STOPPED, with a notice. -/
def StopTested (s t : State) (c : ChanNo) : Prop :=
  (((s.context c).state = .draining ∧ (s.context c).drainMark = .afterFinalSwap ∧ s.awaits c = false ∧
      t.expectQueue c = []) →
    t.channels =
      (s.putContext c
        { s.context c with
          state := .stopped, drainMark := .none, armedProfile := none, beatsToReach := 0 }).channels ∧
    s.Raised t (.channelStopped c .orderly)) ∧
  (¬ ((s.context c).state = .draining ∧ (s.context c).drainMark = .afterFinalSwap ∧ s.awaits c = false ∧
      t.expectQueue c = []) →
    t.channels = s.channels ∧ t.notice .channelStopped = s.notice .channelStopped)

/-- `b` is a deadline of channel `c` (R9): the emit time of a channel with builds to come (R124), the WITHDRAWAL DEADLINE of
a plan awaiting departure (R130), or the EXPIRY of an entry (R148). -/
def IsDeadline (t : State) (c : ChanNo) (b : Beat) : Prop :=
  (((t.context c).state = .running ∨
      ((t.context c).state = .draining ∧ (t.context c).drainMark = .beforeFinalSwap)) ∧
    b = (t.context c).nextStart - beats32 (t.params c).lead) ∨
  (t.awaits c = true ∧ b = (t.planStore c).withdrawalDeadline) ∨
  ∃ e ∈ t.expectQueue c, b = e.expiry

/-- What a deadline event of channel `c` that leaves `t` ends with. Channel Control tests the stopping conditions (R13):
a DRAINING channel past its final swap, with no plan awaiting departure and an empty Expect Queue, becomes STOPPED, with a
notice. Any other goes on with the beats it was brought, as far as its next deadline (R8; the beats still to reach are the
model's, assumption 6). The other channels stay as they are. -/
def StopsOrGoesOn (s t : State) (c : ChanNo) : Prop :=
  (((s.context c).state = .draining ∧ (s.context c).drainMark = .afterFinalSwap ∧ t.awaits c = false ∧
      t.expectQueue c = []) →
    t.context c =
      { s.context c with state := .stopped, drainMark := .none, armedProfile := none, beatsToReach := 0 } ∧
    s.Raised t (.channelStopped c .orderly)) ∧
  (¬ ((s.context c).state = .draining ∧ (s.context c).drainMark = .afterFinalSwap ∧ t.awaits c = false ∧
      t.expectQueue c = []) →
    t.notice .channelStopped = s.notice .channelStopped ∧
    ∃ n, n ≤ (s.context c).beatsToReach ∧
      t.context c =
        { s.context c with
          currentBeat := (s.context c).currentBeat + beats32 n
          beatsToReach := (s.context c).beatsToReach - n } ∧
      (∀ b, t.IsDeadline c b → n ≤ (b - (s.context c).currentBeat).toNat) ∧
      (n < (s.context c).beatsToReach → t.IsDeadline c ((s.context c).currentBeat + beats32 n))) ∧
  ∀ d, d ≠ c → t.context d = s.context d

/-- `k` builds begun one after another, each as the row of BUILD_BEGIN begins it, take `s` to `t` (R62): a DIRECTED build ends
at once, so the engine may take several requests. -/
def BuildsBegun : Nat → State → State → Prop
  | 0, s, t => t = s
  | k + 1, s, t => s.engine = none ∧ s.buildQueue ≠ [] ∧ ∃ u, exec .buildBegin s = .next u ∧ BuildsBegun k u t

/-! ## A station that enters ONLINE (R28, R86) -/

/-- The flow `g` of station `n`, ONLINE on channel `c`, as the station enters ONLINE. An ACTIVE ELASTIC flow with backlog that
is not enlisted joins the tail of its level. An ACTIVE PERIODIC one joins the WAITING part of the calendar, which stands by
rising number (R84), or finds 1,024 flows there, which is counted and noticed. Any other stays as it is. -/
def FlowEnters (s : State) (n : StationNo) (c : ChanNo) (g : FlowNo) (t : State) : Prop :=
  ((s.flow g).state ≠ .active → t = s) ∧
  ((s.flow g).state = .active → (s.flow g).kind = .elastic →
    t =
      if 0 < (s.flow g).backlog ∧ (s.flow g).listLevel = none then
        { s with
          flows := (s.putFlow g { s.flow g with listLevel := some (s.classOf g).priority }).flows
          activeLists :=
            (s.putActive c (s.classOf g).priority (s.active c (s.classOf g).priority ++ [g])).activeLists }
      else s) ∧
  ((s.flow g).state = .active → (s.flow g).kind = .periodic →
    (1024 ≤ (s.calendar c).waiting.length + (s.calendar c).timed.length →
      t = (s.count c .calendarFull 1).raise (.periodicMiss .calendarFull c g n none)) ∧
    ((s.calendar c).waiting.length + (s.calendar c).timed.length < 1024 →
      (g ∈ (s.calendar c).waiting ∨ g ∈ (s.calendar c).timed → t = s) ∧
      (g ∉ (s.calendar c).waiting → g ∉ (s.calendar c).timed →
        ∃ l r, (s.calendar c).waiting = l ++ r ∧ (∀ h ∈ l, ¬ g < h) ∧ (∀ h, r.head? = some h → g < h) ∧
          t = s.putCalendar c { s.calendar c with waiting := l ++ g :: r })))

/-- The flows of a FLOW LIST have entered ONLINE with their station, one after another in its order (R28). -/
def FlowsEnter (n : StationNo) (c : ChanNo) : State → List FlowNo → State → Prop
  | s, [], t => t = s
  | s, g :: q, t => ∃ w, s.FlowEnters n c g w ∧ FlowsEnter n c w q t

/-- An alignment result of channel `c` reaches the record of station `n` (R29): the station is ALIGNING, PARKED or ONLINE, and
`c` is its CHANNEL. -/
abbrev Reaches (s : State) (n : StationNo) (c : ChanNo) : Prop :=
  ((s.station n).state = .aligning ∨ (s.station n).state = .parked ∨ (s.station n).state = .online) ∧
  (s.station n).channel = c

/-- The active lists and the calendars after the flows `q` of a station have left those of channel `c` with it (R27):
exactly they have left, the rest keep their order, and no other channel's change. -/
def ListsWithout (s t : State) (c : ChanNo) (q : List FlowNo) : Prop :=
  (∀ d l, d ≠ c → t.active d l = s.active d l) ∧
  (∀ l, (s.active c l).Nodup →
    t.active c l = (s.active c l).filter (fun g => decide (¬ (g ∈ q ∧ (s.flow g).listLevel = some l)))) ∧
  (∀ d, d ≠ c → t.calendar d = s.calendar d) ∧
  ((s.calendar c).waiting.Nodup → (s.calendar c).timed.Nodup →
    t.calendar c =
      { waiting := (s.calendar c).waiting.filter (fun g => decide (g ∉ q))
        timed := (s.calendar c).timed.filter (fun g => decide (g ∉ q)) })

/-- A flow after it has left the list and the calendar of channel `c` (R27, R58, R87): LIST LEVEL absent and DEFICIT 0 where
it was enlisted, NEXT NOMINAL absent and EXTRAS OWED 0 where it stood in the calendar. -/
def outOfLists (s : State) (c : ChanNo) (g : FlowNo) : Flow :=
  { s.flow g with
    listLevel := none
    deficit := if (s.flow g).listLevel.isSome then 0 else (s.flow g).deficit
    nextNominal :=
      if g ∈ (s.calendar c).waiting ∨ g ∈ (s.calendar c).timed then none else (s.flow g).nextNominal
    extrasOwed := if g ∈ (s.calendar c).waiting ∨ g ∈ (s.calendar c).timed then 0 else (s.flow g).extrasOwed }

/-- What leaving ONLINE does to the lists, where station `n` was ONLINE; else they stay (R27). -/
def LeavesOnline (s t : State) (n : StationNo) : Prop :=
  ((s.station n).state = .online → s.ListsWithout t (s.station n).channel (s.station n).flowList) ∧
  ((s.station n).state ≠ .online → t.activeLists = s.activeLists ∧ t.calendars = s.calendars)

/-- A flow of station `n` once the station is not ONLINE: out of its lists, if the station was (R27). -/
def flowOff (s : State) (n : StationNo) (g : FlowNo) : Flow :=
  if (s.station n).state = .online then s.outOfLists (s.station n).channel g else s.flow g

/-- What the build under way is after an event outside it that takes flows out of the lists (R70, R78). A level that the
event has emptied while it was being visited has ended, and stage 3 goes on below it with the lists the event leaves; a
reading for holds keeps its place among the flows that remain (MODEL, assumption 28). Otherwise the build is as it was. -/
def BuildSees (s t : State) : Prop :=
  (s.engine = none → t.engine = none) ∧
  ∀ b, s.engine = some b →
    ((∀ l i, b.phase ≠ .holds l i) →
      ¬ (b.phase = .visits ∧ s.active b.channel b.level ≠ [] ∧ t.active b.channel b.level = []) → t.engine = some b) ∧
    (b.phase = .visits → s.active b.channel b.level ≠ [] → t.active b.channel b.level = [] →
      t.BuildGoesOn b b.freeSpans (t.VisitsFrom (fun m => m < b.level))) ∧
    ∀ l i, b.phase = .holds l i → ∃ j ≤ i, t.engine = some { b with phase := .holds l j }

/-- A miss of station `n` from channel `c` has been taken (R118, R33), or set aside where R29 does not admit it. LAST
MEASUREMENT, which an unfixable measurement has set before its miss, is left to what judges it. -/
def Missed (s t : State) (c : ChanNo) (n : StationNo) : Prop :=
  (¬ s.Reaches n c →
    t.stations = s.stations ∧ t.flows = s.flows ∧ t.activeLists = s.activeLists ∧ t.calendars = s.calendars ∧
    t.engine = s.engine ∧ t.pollQueues = s.pollQueues ∧ t.adjustQueue = s.adjustQueue ∧
    t.notice .stationLost = s.notice .stationLost ∧
    ∀ k ∈ [ChannelCounter.misses, .stationsLost, .pollQueueFull], t.counter c k = s.counter c k) ∧
  (s.Reaches n c →
    t.counter c .misses = saturate (s.counter c .misses) 1 ∧ (∀ m, m ≠ n → t.station m = s.station m) ∧
    ((s.station n).missCount + 1 < (s.params c).missLimit →
      t.station n =
        { s.station n with
          missCount := (s.station n).missCount + 1, lastMeasurement := (t.station n).lastMeasurement
          inPollQueue := (s.station n).inPollQueue || decide ((s.pollQueue c).length < 256) } ∧
      t.pollQueues =
        (if (s.station n).inPollQueue = false ∧ (s.pollQueue c).length < 256 then
          (s.putPollQueue c (s.pollQueue c ++ [n])).pollQueues
        else s.pollQueues) ∧
      t.counter c .pollQueueFull =
        (if (s.station n).inPollQueue = false ∧ 256 ≤ (s.pollQueue c).length then
          saturate (s.counter c .pollQueueFull) 1
        else s.counter c .pollQueueFull) ∧
      t.flows = s.flows ∧ t.activeLists = s.activeLists ∧ t.calendars = s.calendars ∧ t.engine = s.engine ∧
      t.adjustQueue = s.adjustQueue ∧ t.counter c .stationsLost = s.counter c .stationsLost ∧
      t.notice .stationLost = s.notice .stationLost) ∧
    ((s.params c).missLimit ≤ (s.station n).missCount + 1 →
      t.station n =
        { s.station n with
          state := .lost, missCount := 0, inPollQueue := false
          lastMeasurement := (t.station n).lastMeasurement } ∧
      t.pollQueues = (s.putPollQueue c ((s.pollQueue c).erase n)).pollQueues ∧
      t.adjustQueue = s.adjustQueue.filter (fun a => decide (a.station ≠ n)) ∧
      s.LeavesOnline t n ∧ s.BuildSees t ∧
      (∀ f ∈ (s.station n).flowList, t.flow f = { s.flowOff n f with backlog := 0, deficit := 0 }) ∧
      (∀ f, f ∉ (s.station n).flowList → t.flow f = s.flow f) ∧
      t.counter c .pollQueueFull = s.counter c .pollQueueFull ∧
      t.counter c .stationsLost = saturate (s.counter c .stationsLost) 1 ∧
      s.Raised t (.stationLost n ((s.station n).hardwareId.getD 0) c)))

/-- A record that was not taken has joined the stray ring as the newest entry, the oldest leaving a full ring (R150). -/
def StrayWritten (s t : State) (x : StrayEntry) : Prop :=
  t.strayRing = (if s.strayRing.length < 64 then s.strayRing ++ [x] else s.strayRing.tail ++ [x]) ∧
  t.overwrites = (if s.strayRing.length < 64 then s.overwrites else min 4294967295 (s.overwrites + 1))

/-- What the adjust queue holds after an adjustment is offered (R120): merged, queued, or dropped. -/
def OfferedQueue (s : State) (a : AdjustEntry) : List AdjustEntry :=
  if s.adjustQueue.any (fun e => e.station == a.station) then
    replaceFirst (fun e => e.station == a.station)
      (fun e =>
        { e with
          channel := a.channel, timingStep := e.timingStep + a.timingStep
          powerStep := e.powerStep + a.powerStep, aligned := e.aligned || a.aligned })
      s.adjustQueue
  else if s.adjustQueue.length < 64 then s.adjustQueue ++ [a]
  else s.adjustQueue

/-! ## Units of a burst record (R147) -/

/-- A data unit of a turn or a poll joins the forward buffer, or finds 256 there and is dropped (R152). -/
def Forwarded (s t : State) (u : ForwardUnit) : Prop :=
  if s.forwardBuffer.length < 256 then t = s.putForwardBuffer (s.forwardBuffer ++ [u])
  else t = (s.countDevice .forwardDrop 1).raise (.forwardDrop u.channel u.start u.station u.flow)

/-- One unit of a record `r` matched to an entry of grant `g`, or to an opening of one, has been dispatched (R147, R49, R92). -/
def UnitTaken (r : BurstRecord) (g : Grant) (s : State) (u : BurstUnit) (t : State) : Prop :=
  match u, g with
  | .data d, .data n f | .data d, .periodic n f => s.Forwarded t ⟨r.channel, r.start, n, some f, d⟩
  | .data d, .poll n => s.Forwarded t ⟨r.channel, r.start, n, none, d⟩
  | .data _, .join | .data _, .request _ _ _ => t = s.count r.channel .unitsDiscarded 1
  | .request f a x, .request _ _ _ => t = s.requestHandoff r.channel r.start f a x
  | .request f a _, .data _ _ | .request f a _, .periodic _ _ | .request f a _, .poll _ =>
    t = s.requestHandoff r.channel r.start f a r.station
  | .request _ _ _, .join => t = s.count r.channel .unitsDiscarded 1
  | .join _, .join => t = s.count r.channel .joinUnitDiscarded 1
  | .join _, .data _ _ | .join _, .periodic _ _ | .join _, .poll _ | .join _, .request _ _ _ =>
    t = s.count r.channel .unitsDiscarded 1
  | .behind, .periodic _ f =>
    (f ∈ (s.calendar r.channel).waiting ∨ f ∈ (s.calendar r.channel).timed →
      t = s.putFlow f { s.flow f with extrasOwed := min 3 ((s.flow f).extrasOwed + 1) }) ∧
    (f ∉ (s.calendar r.channel).waiting → f ∉ (s.calendar r.channel).timed →
      t = s.count r.channel .behindIgnored 1)
  | .behind, .data _ _ | .behind, .poll _ | .behind, .join | .behind, .request _ _ _ =>
    t = s.count r.channel .behindIgnored 1

/-- The units of a record have been dispatched one at a time, in their order (R147). -/
def UnitsTaken (r : BurstRecord) (g : Grant) : State → List BurstUnit → State → Prop
  | s, [], t => t = s
  | s, u :: q, t => ∃ w, UnitTaken r g s u w ∧ UnitsTaken r g w q t

/-- A counter that `k` occurrences have raised, one at a time (R163). -/
def risen (v k : Nat) : Nat := if k = 0 then v else min 4294967295 (v + k)

/-! ## Tallies (R100) -/

/-- LATEST TALLY after the finalized tally `x` is offered to it: the first, or a later one, replaces it. -/
def latestAfter (y : Option LatestTally) (x : OpenTally) : Option LatestTally :=
  let z : LatestTally :=
    { planSequence := x.planSequence, n := x.n, empty := x.empty, success := x.success, collided := x.collided
      used := false }
  match y with
  | none => some z
  | some l =>
    if 1 ≤ (x.planSequence - l.planSequence).toNat ∧ (x.planSequence - l.planSequence).toNat ≤ 32767 then some z
    else some l

/-- The counters that the offer raises: TALLIES FINALIZED for one that is taken, TALLY SUPERSEDED beside it when the one
replaced was unused, TALLY STALE for one that is not later. -/
def TallyCounts (y : Option LatestTally) (x : OpenTally) (k : ChannelCounter) : Prop :=
  match y with
  | none => k = .talliesFinalized
  | some l =>
    if 1 ≤ (x.planSequence - l.planSequence).toNat ∧ (x.planSequence - l.planSequence).toNat ≤ 32767 then
      k = .talliesFinalized ∨ (k = .tallySuperseded ∧ l.used = false)
    else k = .tallyStale

/-- The report of an entry with `e` EMPTY, `w` SUCCESS and `k` COLLIDED openings has been taken (R99): each is counted, and the
open tally of plan `p` has them added and its OUTSTANDING lowered by one. A tally with none outstanding leaves the open tallies
and is offered to LATEST TALLY (R100). Where the plan has no open tally nothing is added. -/
def TallyReported (s t : State) (c : ChanNo) (p : PlanSeq) (e w k : Nat) : Prop :=
  t.counter c .openingsEmpty = saturate (s.counter c .openingsEmpty) e ∧
  t.counter c .openingsSuccess = saturate (s.counter c .openingsSuccess) w ∧
  t.counter c .openingsCollided = saturate (s.counter c .openingsCollided) k ∧
  (∀ (l q : List OpenTally) (x z : OpenTally), (s.contentionOf c).openTallies = l ++ x :: q → x.planSequence = p →
    (∀ y ∈ l, y.planSequence ≠ p) →
    z = ⟨x.planSequence, x.n, x.outstanding - 1, x.empty + e, x.success + w, x.collided + k⟩ →
    (2 ≤ x.outstanding →
      t.contention = (s.putContention c { s.contentionOf c with openTallies := l ++ z :: q }).contention ∧
      t.counter c .talliesFinalized = s.counter c .talliesFinalized ∧
      t.counter c .tallySuperseded = s.counter c .tallySuperseded ∧
      t.counter c .tallyStale = s.counter c .tallyStale) ∧
    (x.outstanding ≤ 1 →
      t.contention =
        (s.putContention c
          { s.contentionOf c with
            openTallies := l ++ q, latest := latestAfter (s.contentionOf c).latest z }).contention ∧
      ∀ j, j = .talliesFinalized ∨ j = .tallySuperseded ∨ j = .tallyStale →
        (TallyCounts (s.contentionOf c).latest z j → t.counter c j = saturate (s.counter c j) 1) ∧
        (¬ TallyCounts (s.contentionOf c).latest z j → t.counter c j = s.counter c j))) ∧
  ((∀ y ∈ (s.contentionOf c).openTallies, y.planSequence ≠ p) →
    t.contention = s.contention ∧ t.counter c .talliesFinalized = s.counter c .talliesFinalized ∧
    t.counter c .tallySuperseded = s.counter c .tallySuperseded ∧
    t.counter c .tallyStale = s.counter c .tallyStale) ∧
  ∀ d j,
    ¬ (d = c ∧
      (j = .openingsEmpty ∨ j = .openingsSuccess ∨ j = .openingsCollided ∨ j = .talliesFinalized ∨
        j = .tallySuperseded ∨ j = .tallyStale)) →
    t.counter d j = s.counter d j

/-! ## Frames (section 11.1) -/

/-- A frame of TYPE `type` around a BODY: TYPE, LENGTH in 2 bytes, BODY, and the 2 bytes of CHECK over all before it. -/
def framed (type : Byte) (body : List Byte) : List Byte :=
  (type :: be 2 body.length ++ body) ++ be 2 (crc16 (type :: be 2 body.length ++ body)).toNat

/-- Fields in their sizes, each most significant byte first. -/
def fieldBytes (q : List (Nat × Nat)) : List Byte := q.flatMap (fun x => be x.1 x.2)

/-- A signed value in two's complement of `n` bytes. -/
def twos (n : Nat) (v : Int) : Nat := (v % (2 ^ (8 * n) : Nat)).toNat

/-- A choice as 1 or 0. -/
def bit (b : Bool) : Nat := if b then 1 else 0

/-! ### The fields of the outbound frames (sections 11.3 and 11.4): (bytes, value) -/

/-- OUTCOME of a burst record by its code. -/
def outcomeCode : BurstOutcome → Nat
  | .clean => 0
  | .repaired => 1
  | .collided => 2
  | .damaged => 3
  | .empty => 4

/-- CAUSE of a stray by its code. -/
def strayCode : StrayCause → Nat
  | .noEntry => 0
  | .misaligned => 1
  | .reported => 2
  | .misplaced => 3

/-- A plan frame: the header, the element count, and the elements, each KIND, OFFSET, LENGTH, STATION or OPENINGS, FLOW. -/
def planFields (c : ChanNo) (p : PlanRecord) : List (Nat × Nat) :=
  [(1, c.val), (4, p.start.toNat), (2, (p.planSequence.getD 0).toNat), (1, p.profileNumber.toNat),
    (1, bit p.cut + 2 * bit p.fallback + 4 * bit p.idle + 8 * bit p.requestMark.isSome),
    (4, (p.requestMark.getD 0).toNat), (1, p.backoffStart), (1, p.backoffEnd), (1, p.elements.length)] ++
  p.elements.flatMap (fun e =>
    match e.body with
    | .data n f _ => [(1, 0), (2, e.offset), (2, e.length), (2, n.val), (2, f.val)]
    | .periodic n f => [(1, 1), (2, e.offset), (2, e.length), (2, n.val), (2, f.val)]
    | .poll n => [(1, 2), (2, e.offset), (2, e.length), (2, n.val), (2, 0)]
    | .join => [(1, 3), (2, e.offset), (2, e.length), (2, 0), (2, 0)]
    | .request k => [(1, 4), (2, e.offset), (2, e.length), (2, k), (2, 0)]
    | .idle => [(1, 5), (2, e.offset), (2, e.length), (2, 0), (2, 0)]
    | .hold n f => [(1, 6), (2, e.offset), (2, e.length), (2, n.val), (2, f.val)])

/-- An adjust frame. -/
def adjustFields (a : AdjustEntry) : List (Nat × Nat) :=
  [(2, a.station.val), (1, a.channel.val), (3, twos 3 a.timingStep), (2, twos 2 a.powerStep), (1, bit a.aligned)]

/-- An upstream data unit frame, before its data. -/
def forwardFields (u : ForwardUnit) : List (Nat × Nat) :=
  [(1, u.channel.val), (4, u.start.toNat), (2, u.station.val), (1, bit u.flow.isSome),
    (2, (u.flow.map (fun f => f.val)).getD 0), (2, u.data.length)]

/-- A notice frame: KIND, COUNT, and the details of the kind, behind a PRESENCE byte where one may be absent. -/
def noticeFields (p : PendingNotice) : List (Nat × Nat) :=
  match p.detail with
  | .stationLost n h c => [(1, 1), (2, p.count), (2, n.val), (6, h.toNat), (1, c.val)]
  | .planWithdrawn c q b r f =>
    [(1, 2), (2, p.count), (1, c.val), (2, q.toNat), (4, b.toNat), (1, r), (1, f)]
  | .planCut c b stage => [(1, 3), (2, p.count), (1, c.val), (4, b.toNat), (1, stage.getD 0)]
  | .newcomer n h c => [(1, 4), (2, p.count), (2, n.val), (6, h.toNat), (1, c.val)]
  | .stationTableFull h c => [(1, 5), (2, p.count), (6, h.toNat), (1, c.val)]
  | .stationOnline n c => [(1, 6), (2, p.count), (2, n.val), (1, c.val)]
  | .periodicMiss cause c f n nominal =>
    [(1, 7), (2, p.count), (1, bit nominal.isSome),
      (1, match cause with
        | .noRoom => 0
        | .calendarFull => 1),
      (1, c.val), (2, f.val), (2, n.val), (4, (nominal.getD 0).toNat)]
  | .strayBurst c b o n cause =>
    [(1, 8), (2, p.count), (1, bit n.isSome), (1, c.val), (4, b.toNat), (1, outcomeCode o), (2, (n.getD 0).toNat),
      (1, strayCode cause)]
  | .forwardDrop c b n f =>
    [(1, 9), (2, p.count), (1, bit f.isSome), (1, c.val), (4, b.toNat), (2, n.val),
      (2, (f.map (fun g => g.val)).getD 0)]
  | .adjustDrop n c t w a =>
    [(1, 10), (2, p.count), (2, n.val), (1, c.val), (3, twos 3 t), (2, twos 2 w), (1, bit a)]
  | .channelStopped c m =>
    [(1, 11), (2, p.count), (1, c.val),
      (1, match m with
        | .orderly => 0
        | .abrupt => 1)]

/-- A response frame, before its results: TAG, OPERATION, CODE. -/
def responseFields (r : Response) : List (Nat × Nat) :=
  [(2, r.tag.toNat), (1, r.operation.toNat),
    (1, match r.code with
      | .done => 0
      | .busy => 1
      | .malformed => 2
      | .unknownOp => 3
      | .badTable => 4
      | .badIndex => 5
      | .badField => 6
      | .badValue => 7
      | .state => 8
      | .full => 9
      | .layout => 10
      | .tooLate => 11)]

/-! ### The fields of the record images (section 11.1): (bytes, value), an absent one as 0 behind the PRESENCE bits -/

/-- A station record (R20). -/
def stationFields (n : StationNo) (x : Station) : List (Nat × Nat) :=
  [(1, bit x.hardwareId.isSome + 2 * bit x.lastGood.isSome + 4 * bit x.lastMeasurement.isSome), (2, n.val),
    (1, match x.state with
      | .free => 0
      | .aligning => 1
      | .parked => 2
      | .online => 3
      | .lost => 4),
    (1, bit x.admitted), (6, (x.hardwareId.getD 0).toNat), (1, x.channel.val),
    (1, match x.policySelect with
      | .a => 0
      | .b => 1),
    (1, x.flowList.length)] ++
  x.flowList.map (fun f => (2, f.val)) ++
  [(1, x.missCount), (4, (x.lastGood.getD 0).toNat), (3, twos 3 x.timingTotal), (1, twos 1 x.powerTotal),
    (2, twos 2 (x.lastMeasurement.getD ⟨0, 0, 0⟩).timing), (1, twos 1 (x.lastMeasurement.getD ⟨0, 0, 0⟩).power),
    (1, (x.lastMeasurement.getD ⟨0, 0, 0⟩).quality), (1, bit x.inPollQueue)]

/-- A flow record (R38). -/
def flowFields (f : FlowNo) (x : Flow) : List (Nat × Nat) :=
  [(1, bit x.station.isSome + 2 * bit x.credit.isSome + 4 * bit x.fillAnchor.isSome + 8 * bit x.listLevel.isSome +
      16 * bit x.nextNominal.isSome),
    (2, f.val),
    (1, match x.state with
      | .idle => 0
      | .held => 1
      | .active => 2),
    (2, (x.station.map (fun n => n.val)).getD 0),
    (1, match x.kind with
      | .elastic => 0
      | .periodic => 1),
    (1, x.cls.val), (3, x.rate), (3, x.depth), (3, x.credit.getD 0), (2, x.residue),
    (4, (x.fillAnchor.getD 0).toNat), (3, x.backlog), (2, x.deficit), (1, (x.listLevel.map (fun l => l.val)).getD 0),
    (1, bit x.fresh), (1, x.turnBeats), (2, x.period), (1, x.jitter), (2, x.phase),
    (4, (x.nextNominal.getD 0).toNat), (1, x.extrasOwed)]

/-- A class record (R47); ENABLED is 0 and DISABLED 1. -/
def classFields (x : PolicyClass) : List (Nat × Nat) :=
  [(1, x.priority.val), (1, x.weight), (2, x.maxTurn), (1, x.minTurn), (1, bit (!x.holdsEnabled))]

/-- A parameter page (R3, R5). -/
def pageFields (x : Page) : List (Nat × Nat) :=
  [(2, x.params.beatLength), (2, x.params.planLength), (2, x.params.lead), (2, x.params.settle),
    (2, x.params.flightMargin),
    (1, match x.params.sourceMode with
      | .automatic => 0
      | .directed => 1),
    (1, x.params.quantum), (2, x.params.maxBurst), (1, x.params.requestLength), (1, x.params.joinLength),
    (1, x.params.joinCadence), (1, x.params.pollLength), (1, x.params.pollLimit), (4, x.params.maintenancePeriod),
    (1, x.params.missLimit), (1, x.params.nmin), (1, x.params.nmax), (1, x.params.backoffFloor),
    (1, x.params.backoffCeiling), (2, x.params.timingTolerance), (1, x.params.powerTolerance),
    (1, x.params.maxPowerStep), (2, x.profile.symbolsPerBeat), (1, x.profile.bitsPerSymbol),
    (1, x.profile.infoBytes), (1, x.profile.parityBytes), (1, bit (!x.profile.shortenedAllowed)),
    (2, x.profile.preambleSymbols), (2, x.profile.guardSymbols)]

/-- The CHANNEL-ACTIVE record (R1, R95). -/
def channelFields (x : ChannelContext) (k : Contention) : List (Nat × Nat) :=
  [(1, bit k.latest.isSome),
    (1, match x.state with
      | .stopped => 0
      | .running => 1
      | .draining => 2),
    (1, match x.drainMark with
      | .none => 0
      | .beforeFinalSwap => 1
      | .afterFinalSwap => 2),
    (4, x.epoch.toNat), (4, x.currentBeat.toNat), (2, x.beatPhase), (4, x.nextStart.toNat),
    (2, x.planSequence.toNat), (1, x.profileNumber.toNat)] ++
  pageFields x.activePage ++
  [(1, bit x.armedProfile.isSome), (1, k.target), (1, k.backoffStart), (1, x.activePage.params.backoffCeiling)] ++
  (match k.latest with
    | none => [(11, 0)]
    | some t =>
      [(2, t.planSequence.toNat), (2, t.n), (2, t.empty), (2, t.success), (2, t.collided), (1, bit t.used)])

/-- A stray ring entry (R150). -/
def strayFields (x : StrayEntry) : List (Nat × Nat) :=
  [(1, bit x.stationNamed.isSome + 2 * bit x.stationExpected.isSome), (1, x.channel.val), (4, x.start.toNat),
    (1, outcomeCode x.outcome), (2, (x.stationNamed.getD 0).toNat),
    (2, (x.stationExpected.map (fun n => n.val)).getD 0), (1, strayCode x.cause), (1, x.units)]

/-- The DEVICE record (R162): which notices are pending, each NOTICE ENABLE (ENABLED 0), each COUNT, and the lengths of the
two management queues. -/
def deviceFields (s : State) : List (Nat × Nat) :=
  [(2, (NoticeKind.all.map (fun k => if (s.notice k).isSome then 2 ^ k.index.val else 0)).sum)] ++
  NoticeKind.all.map (fun k => (1, bit (!vget s.noticeEnable k.index))) ++
  NoticeKind.all.map (fun k => (2, ((s.notice k).map (fun p => p.count)).getD 0)) ++
  [(1, s.controlQueue.length), (1, s.responseQueue.length)]

end State

/-- The link `m` is the link `l` with a frame in flight closed by frame-abort where it stood: a prefix of the frame with
fewer BODY bytes than its LENGTH declares (TYPE and LENGTH take 3 bytes, CHECK 2). -/
def OutLink.BrokenOff (l m : OutLink) : Prop :=
  m.sending = none ∧
  (l.sending = none → m.sent = l.sent) ∧
  ∀ f, l.sending = some f →
    ∃ p, m.sent = l.sent ++ [{ bytes := p, close := .frameAbort }] ∧ p <+: f ∧ (5 < f.length → p.length + 2 < f.length)

/-! ## Invariants -/

/-- A channel context is lawful: DRAIN MARK is NONE except in DRAINING (R1), and a STOPPED channel has no armed
profile (R13, R14) and reaches no beats (R7). -/
def ChannelContext.Lawful (x : ChannelContext) : Prop :=
  (x.state = .draining ↔ x.drainMark ≠ .none) ∧
  (x.state = .stopped → x.armedProfile = none ∧ x.beatsToReach = 0)

namespace State

/-- Every channel context is lawful. -/
def ChannelsLawful (s : State) : Prop := ∀ c, (s.context c).Lawful

/-- The control queue holds at most 16 frames (R154), and the response queue has room for every response: with
INBOUND HOLD no it holds fewer than 30; with it yes it holds at least 30 and can take the response of the execution
under way and of the one frame still to arrive without passing 32 (R155). -/
def QueuesHaveRoom (s : State) : Prop :=
  s.controlQueue.length ≤ 16 ∧
  (s.inboundHold = false → s.responseQueue.length < 30 ∧ s.heldArrival = false) ∧
  (s.inboundHold = true →
    30 ≤ s.responseQueue.length ∧
    s.responseQueue.length + (if s.execution.isSome then 1 else 0) + (if s.heldArrival then 0 else 1) ≤ 32)

/-- Every counter lies in 0 … 2^32 − 1 (R163), as does OVERWRITES (R150). -/
def CountersBounded (s : State) : Prop :=
  (∀ c k, s.counter c k ≤ 4294967295) ∧ (∀ k, s.deviceCounter k ≤ 4294967295) ∧ s.overwrites ≤ 4294967295

/-- The collections that plant events fill hold no more than their capacities: the stray ring 64 (R150), the forward
buffer 256 (R152), the adjust queue 64 (R108), each poll queue 256 (R108); and each pending notice has a COUNT of 1 …
65,535 (R165). -/
def CollectionsBounded (s : State) : Prop :=
  s.strayRing.length ≤ 64 ∧ s.forwardBuffer.length ≤ 256 ∧ s.adjustQueue.length ≤ 64 ∧
  (∀ c, (s.pollQueue c).length ≤ 256) ∧
  ∀ k p, s.notice k = some p → 1 ≤ p.count ∧ p.count ≤ 65535

/-- The fields of every flow lie within their bounds: BACKLOG at most 1,048,575, CREDIT at most DEPTH (R53), DEFICIT at most
1,023 and EXTRAS OWED at most 3 (R38); and no calendar holds more than 1,024 flows (R84). -/
def FlowsBounded (s : State) : Prop :=
  (∀ f, (s.flow f).backlog ≤ 1048575 ∧ (∀ k, (s.flow f).credit = some k → k ≤ (s.flow f).depth) ∧
    (s.flow f).deficit ≤ 1023 ∧ (s.flow f).extrasOwed ≤ 3) ∧
  ∀ c, (s.calendar c).waiting.length + (s.calendar c).timed.length ≤ 1024

/-- The channel has builds to come: RUNNING, or DRAINING before its final swap (R61). -/
def Builds (s : State) (c : ChanNo) : Prop :=
  (s.context c).state = .running ∨ ((s.context c).state = .draining ∧ (s.context c).drainMark = .beforeFinalSwap)

/-- The builds are lawful: at most one request of a channel waits, and BUILD CONDITION is QUEUED exactly while one does; it is
UNDER BUILD exactly for the channel the engine builds for (R60, R61); only a channel with builds to come has either, and only
an AUTOMATIC one is under build (R63); a plan under build and its free spans keep the budget, and no half holds more than 240
elements (R66). -/
def BuildsLawful (s : State) : Prop :=
  (s.buildQueue.map (fun r => r.channel)).Nodup ∧
  (∀ c, s.buildCondition c = .queued ↔ ∃ r ∈ s.buildQueue, r.channel = c) ∧
  (∀ r ∈ s.buildQueue, s.Builds r.channel) ∧
  (∀ c, s.buildCondition c = .underBuild ↔ ∃ b, s.engine = some b ∧ b.channel = c) ∧
  (∀ b, s.engine = some b →
    s.Builds b.channel ∧ (s.params b.channel).sourceMode = .automatic ∧
    (s.buildHalf b.channel).elements.length + 2 * b.freeSpans.length ≤ 240 ∧
    ∀ l i, b.phase = .holds l i → b.freeSpans = []) ∧
  ∀ c, (s.planStore c).h0.elements.length ≤ 240 ∧ (s.planStore c).h1.elements.length ≤ 240

/-- The free list holds each FREE number once (R22), a FREE record holds its reset values (R24), and the identity map holds
the hardware ID of every other station, each ID once (R23). -/
def NumbersLawful (s : State) : Prop :=
  s.freeList.Nodup ∧ (∀ n, n ∈ s.freeList ↔ (s.station n).state = .free) ∧
  (∀ n, (s.station n).state = .free → s.station n = Station.reset) ∧
  (∀ n, (s.station n).state ≠ .free → (s.station n).hardwareId.isSome = true) ∧
  (s.identity.map (fun e => e.1)).Nodup ∧ ∀ h n, (h, n) ∈ s.identity ↔ (s.station n).hardwareId = some h

/-- A station's FLOW LIST holds exactly the flows bound to it, each once, at most 16, and a flow is bound unless it is IDLE
(R30, R40). -/
def FlowListsLawful (s : State) : Prop :=
  (∀ n, (s.station n).flowList.Nodup ∧ (s.station n).flowList.length ≤ 16) ∧
  (∀ n f, f ∈ (s.station n).flowList ↔ (s.flow f).station = some n) ∧
  ∀ f, (s.flow f).state = .idle ↔ (s.flow f).station = none

/-- A poll queue holds each of its stations once: exactly the stations of its channel with IN POLL QUEUE yes, all ALIGNING,
PARKED or ONLINE (R108, R110). -/
def PollQueuesLawful (s : State) : Prop :=
  (∀ c, (s.pollQueue c).Nodup) ∧
  (∀ c n, n ∈ s.pollQueue c ↔ (s.station n).inPollQueue = true ∧ (s.station n).channel = c) ∧
  ∀ n, (s.station n).inPollQueue = true → s.Reaches n (s.station n).channel

/-- The enlistment law (R56): a flow is enlisted exactly when it is ACTIVE and ELASTIC, its station is ONLINE and its BACKLOG
is above 0; an enlisted flow stands once in the list of its LIST LEVEL on its station's channel, and nowhere else. -/
def ListsLawful (s : State) : Prop :=
  (∀ f, (s.flow f).listLevel.isSome = true ↔
    (s.flow f).state = .active ∧ (s.flow f).kind = .elastic ∧ 0 < (s.flow f).backlog ∧
    ∃ n, (s.flow f).station = some n ∧ (s.station n).state = .online) ∧
  (∀ c l, (s.active c l).Nodup) ∧
  ∀ c l f, f ∈ s.active c l ↔
    (s.flow f).listLevel = some l ∧ ∃ n, (s.flow f).station = some n ∧ (s.station n).channel = c

/-- A calendar holds each of its flows once, in one part; each is ACTIVE and PERIODIC, of a station ONLINE on the channel; and
NEXT NOMINAL is present exactly for the flows of a TIMED part (R84, R86, R87). -/
def CalendarsLawful (s : State) : Prop :=
  (∀ c, ((s.calendar c).waiting ++ (s.calendar c).timed).Nodup) ∧
  (∀ c f, f ∈ (s.calendar c).waiting ++ (s.calendar c).timed →
    (s.flow f).state = .active ∧ (s.flow f).kind = .periodic ∧
    ∃ n, (s.flow f).station = some n ∧ (s.station n).state = .online ∧ (s.station n).channel = c) ∧
  ∀ f, (s.flow f).nextNominal.isSome = true ↔ ∃ c, f ∈ (s.calendar c).timed

/-- The laws of the station and flow records, and of the lists and queues that hold them. -/
def RecordsLawful (s : State) : Prop :=
  s.NumbersLawful ∧ s.FlowListsLawful ∧ s.PollQueuesLawful ∧ s.ListsLawful ∧ s.CalendarsLawful

/-- The station and flow tables stand in canonical form: one entry for each record that differs from the reset record,
by rising number. -/
def TablesInForm (s : State) : Prop :=
  Table.Canonical Station.reset s.stations ∧ Table.Canonical Flow.reset s.flows

end State

end Sys2Proof.Machine
end

