-- ==== Sys2Proof/Certificates/Slice0/Obligations.lean ====
section
/-! DEFINITION. The statements. Each says which rule of the manual it formalises, or which choice of the model it rests on. -/

open Sys2Proof Sys2Proof.Machine

/-! ## The machine as a whole -/

/-- MODEL (assumption 1): a step takes the command at the front of the queue and runs it with the queue's rest; on an
empty queue the block idles. -/
def Obligations.StepRunsTheFrontCommand : Prop :=
  (∀ (c : Instr) (q : List Instr) (s : State), s.pending = c :: q → step s = exec c { s with pending := q }) ∧
  (∀ s : State, s.pending = [] → step s = .next s)

/-- MODEL (assumption 1): every command completes in every state, and leaves the queue of waiting commands alone; a due
step whose condition does not hold (a deadline not reached, a build that cannot begin, a departure with a link taken, held or
asked for by a source that goes ahead, or with nothing to send, an execution of a frame not at the head) changes nothing. MODEL (assumption 2): what is due is done one step at a time, the first
of a fixed order first (R62, R127, R153, R155, R156, R167; then the deadlines of the channel that is furthest behind, assumption
21), each due step being the row of a command; settling goes on until nothing is due, 2^40 steps at most, and a command from
outside, or a step of work that takes time, acts on the settled state. -/
def Obligations.CommandsCompleteAndKeepTheQueue : Prop :=
  (∀ (c : Instr) (s : State), ∃ t, exec c s = .next t ∧ t.pending = s.pending) ∧
  (∀ (s : State) (c : ChanNo),
    (s.emitTimeReached c = false → exec (.emitTime c) s = .next s) ∧
    (s.withdrawalReached c = false → exec (.withdrawalDeadline c) s = .next s) ∧
    (s.expiryReached c = false → exec (.expiry c) s = .next s) ∧
    (s.engine ≠ none ∨ s.buildQueue = [] → exec .buildBegin s = .next s) ∧
    (s.planLinkHold = true ∨ s.planLink.sending ≠ none ∨ (∀ d, s.awaits d = false) →
      exec .planDeparture s = .next s) ∧
    (s.planLinkHold = true ∨ s.planLink.sending ≠ none ∨ (∃ d, s.awaits d = true) ∨ s.adjustQueue = [] →
      exec .adjustFrameDeparture s = .next s) ∧
    (s.systemLink.sending ≠ none ∨ s.responseQueue = [] → exec .responseDeparture s = .next s) ∧
    (s.systemLink.sending ≠ none ∨ s.responseQueue ≠ [] ∨
        (∀ k ∈ NoticeKind.all, vget s.noticeEnable k.index = false ∨ s.notice k = none) →
      exec .noticeDeparture s = .next s) ∧
    (s.systemLink.sending ≠ none ∨ s.responseQueue ≠ [] ∨
        (∃ k ∈ NoticeKind.all, vget s.noticeEnable k.index = true ∧ (s.notice k).isSome = true) ∨
        s.forwardBuffer = [] →
      exec .forwardDeparture s = .next s) ∧
    ∀ d, executesTheHead d = true →
      s.execution ≠ none ∨ s.inboundHold = true ∨ (∀ f q, s.controlQueue = f :: q → f.parsed.row ≠ d) →
      exec d s = .next s) ∧
  (∀ s : State, ∃ late : Option Due,
    s.nextDue =
      (if s.engine = none ∧ s.buildQueue ≠ [] then some .buildBegin
      else if s.planLinkHold = false ∧ s.planLink.sending = none ∧ (∃ c, s.awaits c = true) then some .planDeparture
      else if s.planLinkHold = false ∧ s.planLink.sending = none ∧ s.adjustQueue ≠ [] then some .adjustDeparture
      else if s.systemLink.sending = none ∧ s.responseQueue ≠ [] then some .responseDeparture
      else if s.systemLink.sending = none ∧
          (∃ k ∈ NoticeKind.all, vget s.noticeEnable k.index = true ∧ (s.notice k).isSome = true) then
        some .noticeDeparture
      else if s.systemLink.sending = none ∧ s.forwardBuffer ≠ [] then some .forwardDeparture
      else if s.execution = none ∧ s.inboundHold = false ∧ s.controlQueue ≠ [] then some .execution
      else late) ∧
    ((∀ c, s.deadlineReached c = false) → late = none) ∧
    ∀ c, s.deadlineReached c = true →
      (∀ d, d ≠ c → s.deadlineReached d = true →
        s.unitsBehind d < s.unitsBehind c ∨ (s.unitsBehind d = s.unitsBehind c ∧ c < d)) →
      late =
        some
          (if s.expiryReached c then .expiry c
          else if s.withdrawalReached c then .withdrawal c
          else .emitTime c)) ∧
  (∀ (s : State) (d : Due), s.nextDue = some d → exec (s.dueCommand d) s = .next (s.act d)) ∧
  (∀ s : State, ∃ k, s.DueSteps k s.settle ∧ (s.settle.Quiet ∨ k = 2 ^ 40)) ∧
  ∀ (c : Instr) (s : State), takenWhenSettled c = true → s.settle.Quiet → exec c s = exec c s.settle

/-- R168, R174, R126: power-on reset and line reset are identical, whatever the part is doing, and give every piece of state its
reset value; no restoration, notice, count or response. HOLD takes the framer's present indication. A frame being sent on
either link is closed with frame-abort where it stood, which is a free value (MODEL, assumption 3). The queue of waiting
commands (assumption 1), the logs of frames sent (assumption 8) and the count of free draws (assumption 3) are the model's. -/
def Obligations.ResetsGiveTheResetState : Prop :=
  ∀ (s : State) (hold : Bool), ∃ t,
    exec (.powerOnReset hold) s = .next t ∧ exec (.lineReset hold) s = .next t ∧
    t = { State.reset with
          pending := s.pending, planLinkHold := hold, planLink := t.planLink, systemLink := t.systemLink
          freeDraws := t.freeDraws } ∧
    s.planLink.BrokenOff t.planLink ∧ s.systemLink.BrokenOff t.systemLink

/-- R2, R6, R22, R24, R39, R47, R52, R60, R85, R96, R109, R123: the values after reset, each written out; also those of R138,
R150, R152, R154, R163 and R165. The beats still to reach (assumption 6) are the model's. -/
def Obligations.ResetValues : Prop :=
  ∃ page : Page,
    page =
      { params :=
          { beatLength := 64, planLength := 256, lead := 32, settle := 16, flightMargin := 8, sourceMode := .automatic
            quantum := 4, maxBurst := 255, requestLength := 2, joinLength := 32, joinCadence := 0, pollLength := 8
            pollLimit := 4, maintenancePeriod := 1048576, missLimit := 8, nmin := 4, nmax := 32, backoffFloor := 3
            backoffCeiling := 10, timingTolerance := 128, powerTolerance := 4, maxPowerStep := 24 }
        profile :=
          { symbolsPerBeat := 64, bitsPerSymbol := 4, infoBytes := 200, parityBytes := 16, shortenedAllowed := true
            preambleSymbols := 64, guardSymbols := 16 } } ∧
    (∀ c, State.reset.context c =
      { state := .stopped, drainMark := .none, epoch := 0, currentBeat := 0, beatPhase := 0, nextStart := 0
        planSequence := 0, profileNumber := 0, activePage := page, pendingPage := page
        armedProfile := none, beatsToReach := 0 }) ∧
    State.reset.lastReference = 0 ∧
    (∀ n, State.reset.station n =
      { state := .free, admitted := false, hardwareId := none, channel := 0, policySelect := .a, flowList := []
        missCount := 0, lastGood := none, timingTotal := 0, powerTotal := 0, lastMeasurement := none
        inPollQueue := false }) ∧
    State.reset.freeList = List.finRange 8192 ∧ State.reset.identity = [] ∧
    (∀ f, State.reset.flow f =
      { state := .idle, station := none, kind := .elastic, cls := 0, rate := 0, depth := 65536, credit := none
        residue := 0, fillAnchor := none, backlog := 0, deficit := 0, listLevel := none, fresh := false
        turnBeats := 1, period := 1024, jitter := 0, phase := 0, nextNominal := none, extrasOwed := 0 }) ∧
    (∀ p k, State.reset.policyClass p k =
      { priority := 0, weight := 1, maxTurn := 1023, minTurn := 1, holdsEnabled := false }) ∧
    (∀ c, vget State.reset.requestMarks c = none) ∧
    (∀ c l, State.reset.active c l = []) ∧ (∀ c, State.reset.calendar c = ⟨[], []⟩) ∧
    (∀ c, State.reset.contentionOf c = { target := 0, backoffStart := 0, openTallies := [], latest := none }) ∧
    (∀ c, State.reset.pollQueue c = [] ∧ State.reset.sweepPointer c = 0) ∧ State.reset.adjustQueue = [] ∧
    State.reset.engine = none ∧ State.reset.buildQueue = [] ∧ (∀ c, State.reset.buildCondition c = .none) ∧
    (∀ c, ∃ half : PlanRecord,
      half =
        { start := 0, planSequence := none, profileNumber := 0, requestMark := none, backoffStart := 0, backoffEnd := 0
          cut := false, fallback := false, idle := false, elements := [], ready := false } ∧
      State.reset.planStore c =
        { h0 := half, h1 := half, emitHalf := .h0, emitCondition := .none, withdrawalDeadline := 0 }) ∧
    State.reset.planLink.sending = none ∧ State.reset.systemLink.sending = none ∧
    (∀ c, State.reset.expectQueue c = []) ∧ State.reset.strayRing = [] ∧ State.reset.overwrites = 0 ∧
    State.reset.forwardBuffer = [] ∧ State.reset.controlQueue = [] ∧ State.reset.inboundHold = false ∧
    State.reset.execution = none ∧ State.reset.responseQueue = [] ∧
    (∀ c k, State.reset.counter c k = 0) ∧ (∀ k, State.reset.deviceCounter k = 0) ∧
    (∀ k, State.reset.notice k = none ∧ vget State.reset.noticeEnable k.index = true)

/-! ## Time (chapter 1) -/

/-- R8, R9: a reference count is accepted whatever its advance when it is the first after a reset, does nothing when it
advances by 0, counts a backstep when it lies behind, and otherwise advances every RUNNING or DRAINING channel and no
other. `n` is the beats reached at once: a channel stands still at a beat that is one of its deadlines (the emit time while it
stands, the withdrawal deadline of a plan awaiting departure, every EXPIRY), so no deadline is passed over (the beats still to
reach are the model's, assumption 6). -/
def Obligations.ReferenceCountAdvancesChannels : Prop :=
  ∀ (s : State) (r : RefCount), s.Quiet →
    ∃ t, exec (.referenceCount r) s = .next t ∧
    (s.referenceSeen = false → t = { s with lastReference := r, referenceSeen := true }) ∧
    (s.referenceSeen = true → (r - s.lastReference).toNat = 0 → t = s) ∧
    (s.referenceSeen = true → 2 ^ 31 ≤ (r - s.lastReference).toNat → t = s.countDevice .referenceBackstep 1) ∧
    (s.referenceSeen = true → 1 ≤ (r - s.lastReference).toNat → (r - s.lastReference).toNat < 2 ^ 31 →
      t = { s with lastReference := r, channels := t.channels } ∧
      ∀ c, ((s.context c).state = .stopped → t.context c = s.context c) ∧
        ((s.context c).state ≠ .stopped →
          ∃ (n total : Nat) (cur reached emit : Beat) (emits : Prop),
            cur = (s.context c).currentBeat ∧ reached = cur + beats32 n ∧
            emit = (s.context c).nextStart - beats32 (s.params c).lead ∧
            (emits ↔ (s.context c).state = .running ∨
              ((s.context c).state = .draining ∧ (s.context c).drainMark = .beforeFinalSwap)) ∧
            total = (s.context c).beatsToReach +
              ((s.context c).beatPhase + (r - s.lastReference).toNat) / (s.params c).beatLength ∧
            n ≤ total ∧
            t.context c =
              { s.context c with
                beatPhase :=
                  ((s.context c).beatPhase + (r - s.lastReference).toNat) % (s.params c).beatLength
                currentBeat := reached
                beatsToReach := total - n } ∧
            (emits → n ≤ (emit - cur).toNat) ∧
            ((s.planStore c).emitCondition = .awaitingDeparture →
              n ≤ ((s.planStore c).withdrawalDeadline - cur).toNat) ∧
            (∀ e ∈ s.expectQueue c, n ≤ (e.expiry - cur).toNat) ∧
            (n < total →
              (emits ∧ reached = emit) ∨
              ((s.planStore c).emitCondition = .awaitingDeparture ∧ reached = (s.planStore c).withdrawalDeadline) ∨
              ∃ e ∈ s.expectQueue c, reached = e.expiry)))

/-- R80, R124, R61: a complete AUTOMATIC plan is swapped as built, and the next build is queued in its place, by the units
remaining. Beats brought and not yet reached are taken off those units (State.unitsLeft; MODEL, assumptions 6 and 30). -/
def Obligations.EmitTimeSwapsACompletePlan : Prop :=
  ∀ (s : State) (c : ChanNo), s.emitTimeReached c = true → (s.params c).sourceMode = .automatic →
    s.buildCondition c = .complete →
    ∃ t, exec (.emitTime c) s = .next t ∧ State.Swapped s t c (s.buildHalf c) s.buildQueue ∧
      State.EmitFrame s t c ∧ t.channelCounters = s.channelCounters ∧ t.notices = s.notices

/-- R81, R114, R62, R61: a build still under way at its emit time is cut: its remaining spans are closed, CUT is set, PLAN CUT is
counted and a notice names the stage reached; the swap takes the cut plan. Flows, lists and the calendar stay as the
build left them. A station taken from the poll queue and not yet offered its placement is enqueued again at the tail: whether
a cut in group 4, with stations still to be taken, finds one is a free value (MODEL, assumption 19), and the statement says
what happens for either. The engine takes its next requests before the swap, among those already waiting, each as
BuildBeginTakesTheHeadRequest says (MODEL, assumption 24): `u` is the state once the build is cut, `w` once they are taken.
A channel with no request waiting keeps its context, both its plan halves and its BUILD CONDITION. No other channel loses its
emit half. Beats brought and not yet reached are taken off the units by which the next build is queued (MODEL, assumptions 6
and 30). -/
def Obligations.EmitTimeCutsABuildUnderWay : Prop :=
  ∀ (s : State) (b : BuildContext), s.engine = some b → s.emitTimeReached b.channel = true →
    (s.params b.channel).sourceMode = .automatic → s.buildCondition b.channel = .underBuild →
    (b.channel :: s.buildQueue.map (fun r => r.channel)).Nodup →
    ∃ (t u w : State) (k : Nat), exec (.emitTime b.channel) s = .next t ∧
      State.Swapped s t b.channel
        { s.buildHalf b.channel with
          cut := true
          elements :=
            closeSpans (s.params b.channel).requestLength b.freeSpans (s.buildHalf b.channel).elements } w.buildQueue ∧
      (∀ d j, j ≠ .pollQueueFull → u.counter d j =
        if d = b.channel ∧ j = .planCut then State.saturate (s.counter d j) 1 else s.counter d j) ∧
      State.Raised s t (.planCut b.channel (s.buildHalf b.channel).start (some b.phase.stage)) ∧
      (∀ j, j ≠ .planCut → t.notice j = s.notice j) ∧
      (((∀ j chosen, b.phase ≠ .polls j chosen) ∨ (∃ chosen, b.phase = .polls 0 chosen) ∨
          s.pollQueue b.channel = []) →
        t.pollQueues = s.pollQueues ∧ t.stations = s.stations ∧ t.freeDraws = s.freeDraws ∧
        ∀ d, u.counter d .pollQueueFull = s.counter d .pollQueueFull) ∧
      (∀ j chosen n q, b.phase = .polls j chosen → j ≠ 0 → s.pollQueue b.channel = n :: q →
        t.freeDraws = s.freeDraws + 1 ∧
        (Config.stationInHand s.freeDraws = false →
          t.pollQueues = s.pollQueues ∧ t.stations = s.stations ∧
          ∀ d, u.counter d .pollQueueFull = s.counter d .pollQueueFull) ∧
        (Config.stationInHand s.freeDraws = true → (s.station n).channel = b.channel → q.length < 256 →
          t.pollQueues = (s.putPollQueue b.channel (q ++ [n])).pollQueues ∧
          t.station n = { s.station n with inPollQueue := true } ∧ (∀ m, m ≠ n → t.station m = s.station m) ∧
          ∀ d, u.counter d .pollQueueFull = s.counter d .pollQueueFull)) ∧
      u = { s with
            planStores :=
              (s.putBuildHalf b.channel
                { s.buildHalf b.channel with
                  cut := true
                  elements :=
                    closeSpans (s.params b.channel).requestLength b.freeSpans
                      (s.buildHalf b.channel).elements }).planStores
            buildConditions := (s.putBuildCondition b.channel .none).buildConditions
            engine := none, channelCounters := u.channelCounters, notices := t.notices
            pollQueues := t.pollQueues, stations := t.stations, freeDraws := t.freeDraws } ∧
      u.BuildsBegun k w ∧ (w.engine ≠ none ∨ w.buildQueue = []) ∧
      (s.buildQueue = [] → w = u ∧ t.engine = none) ∧
      (∀ j, t.counter b.channel j = u.counter b.channel j) ∧ t.channelCounters = w.channelCounters ∧
      w.EmitFrame t b.channel ∧
      (∀ d, d ≠ b.channel → (∀ r ∈ s.buildQueue, r.channel ≠ d) →
        t.context d = s.context d ∧ t.planStore d = s.planStore d ∧ t.buildCondition d = s.buildCondition d ∧
        t.contentionOf d = s.contentionOf d) ∧
      (∀ d, d ≠ b.channel →
        t.emitHalfPlan d = s.emitHalfPlan d ∧ (t.planStore d).emitCondition = (s.planStore d).emitCondition ∧
        (t.context d).currentBeat = (s.context d).currentBeat ∧ (t.context d).state = (s.context d).state) ∧
      t = { s with
            channels := t.channels, planStores := t.planStores, buildConditions := t.buildConditions
            buildQueue := t.buildQueue, engine := t.engine, contention := t.contention
            channelCounters := t.channelCounters, notices := t.notices
            pollQueues := t.pollQueues, stations := t.stations, freeDraws := t.freeDraws }

/-- R82: a request still queued at its emit time is removed, and an AUTOMATIC channel's half becomes a fallback plan:
floor(Lp / RB) openings at offset 0, then an IDLE element of the remainder; no profile is applied, nothing adapts. Beats
brought and not yet reached are taken off the units by which the next build is queued (MODEL, assumptions 6 and 30). -/
def Obligations.EmitTimeFallsBack : Prop :=
  ∀ (s : State) (c : ChanNo), s.emitTimeReached c = true → (s.params c).sourceMode = .automatic →
    s.buildCondition c = .queued →
    ∃ t, exec (.emitTime c) s = .next t ∧
      State.Swapped s t c
        { start := (s.context c).nextStart, planSequence := none, profileNumber := (s.context c).profileNumber
          requestMark := vget s.requestMarks c, backoffStart := (s.contentionOf c).backoffStart
          backoffEnd := (s.params c).backoffCeiling, cut := true, fallback := true, idle := false
          elements :=
            (if (s.params c).planLength / (s.params c).requestLength = 0 then []
              else
                [{ offset := 0
                   length := (s.params c).planLength / (s.params c).requestLength * (s.params c).requestLength
                   body := .request ((s.params c).planLength / (s.params c).requestLength) }]) ++
            (if (s.params c).planLength % (s.params c).requestLength = 0 then []
              else
                [{ offset := (s.params c).planLength / (s.params c).requestLength * (s.params c).requestLength
                   length := (s.params c).planLength % (s.params c).requestLength
                   body := .idle }])
          ready := false }
        (s.buildQueue.filter (fun r => r.channel != c)) ∧
      State.EmitFrame s t c ∧
      (∀ d k, t.counter d k =
        if d = c ∧ (k = .planCut ∨ k = .fallback) then State.saturate (s.counter d k) 1 else s.counter d k) ∧
      State.Raised s t (.planCut c (s.context c).nextStart none) ∧
      ∀ k, k ≠ .planCut → t.notice k = s.notice k

/-- R136: at the swap of a DIRECTED channel a ready half is swapped as written, with the REQUEST MARK current there
and, where its build never began, the profile number and exponents current there; a half that is not ready is replaced
by an idle plan and IDLE PLANS is counted. Neither raises a notice, and no armed profile is applied. Beats brought and not yet
reached are taken off the units by which the next build is queued (MODEL, assumptions 6 and 30). -/
def Obligations.EmitTimeJudgesADirectedHalf : Prop :=
  ∀ (s : State) (c : ChanNo), s.emitTimeReached c = true → (s.params c).sourceMode = .directed →
    s.buildCondition c = .none ∨ s.buildCondition c = .queued →
    ∃ t, exec (.emitTime c) s = .next t ∧
      State.Swapped s t c
        (if (s.buildHalf c).ready then
          { s.buildHalf c with
            start := (s.context c).nextStart, requestMark := vget s.requestMarks c
            profileNumber :=
              if s.buildCondition c = .queued then (s.context c).profileNumber else (s.buildHalf c).profileNumber
            backoffStart :=
              if s.buildCondition c = .queued then (s.contentionOf c).backoffStart
              else (s.buildHalf c).backoffStart
            backoffEnd :=
              if s.buildCondition c = .queued then (s.params c).backoffCeiling else (s.buildHalf c).backoffEnd }
        else
          { start := (s.context c).nextStart, planSequence := none
            profileNumber := (s.context c).profileNumber, requestMark := vget s.requestMarks c
            backoffStart := (s.contentionOf c).backoffStart, backoffEnd := (s.params c).backoffCeiling
            cut := false, fallback := false, idle := true
            elements := [{ offset := 0, length := (s.params c).planLength, body := .idle }], ready := false })
        (if s.buildCondition c = .queued then s.buildQueue.filter (fun r => r.channel != c) else s.buildQueue) ∧
      State.EmitFrame s t c ∧ t.notices = s.notices ∧
      ∀ d k, t.counter d k =
        if d = c ∧ k = .idlePlans ∧ (s.buildHalf c).ready = false then State.saturate (s.counter d k) 1 else s.counter d k

/-- R130, R131, R13: a plan still awaiting departure at its withdrawal deadline is withdrawn: no frame, no expect entry and no
tally. The charges of its DATA elements are restored or forfeited one after another, in the order of the elements, each as
ChargesAreRestoredOrForfeited says. Both are counted, as is PLANS WITHDRAWN, and a notice carries how many were. A DRAINING
channel whose final plan this was, its Expect Queue empty, becomes STOPPED. Any other goes on with the beats it was brought (MODEL,
assumption 6). Other channels keep their contexts and their plans. -/
def Obligations.WithdrawalTakesThePlanBack : Prop :=
  ∀ (s : State) (c : ChanNo), s.CountersBounded → s.withdrawalReached c = true →
    ∃ (t : State) (y : State.Restoration), exec (.withdrawalDeadline c) s = .next t ∧
      y = (s.emitHalfPlan c).elements.foldl (State.restoreElement c) ⟨s, 0, 0⟩ ∧
      t.flows = y.state.flows ∧ t.activeLists = y.state.activeLists ∧
      y.restored + y.forfeited =
        ((s.emitHalfPlan c).elements.filter (fun e =>
          match e.body with
          | .data _ _ (some _) => true
          | _ => false)).length ∧
      t.planStores =
        (s.putPlanStore c
          { (s.planStore c).putHalf (s.planStore c).emitHalf PlanRecord.empty with emitCondition := .none }).planStores ∧
      t.emitHalfPlan c = PlanRecord.empty ∧ t.buildHalf c = s.buildHalf c ∧
      t.counter c .plansWithdrawn = State.saturate (s.counter c .plansWithdrawn) 1 ∧
      t.counter c .chargesRestored = State.saturate (s.counter c .chargesRestored) y.restored ∧
      t.counter c .chargesForfeited = State.saturate (s.counter c .chargesForfeited) y.forfeited ∧
      (∀ d j, ¬ (d = c ∧ (j = .plansWithdrawn ∨ j = .chargesRestored ∨ j = .chargesForfeited)) →
        t.counter d j = s.counter d j) ∧
      s.StopsOrGoesOn t c ∧
      s.Raised t
        (.planWithdrawn c (s.emitHalfPlan c).sequence (s.emitHalfPlan c).start y.restored y.forfeited) ∧
      (∀ k, k ≠ .planWithdrawn → k ≠ .channelStopped → t.notice k = s.notice k) ∧
      t = { s with
            channels := t.channels, flows := t.flows, activeLists := t.activeLists, planStores := t.planStores
            channelCounters := t.channelCounters, notices := t.notices }

/-- R131: the charge of a DATA element of a withdrawn plan is restored, each sum clamped, when its flow is ACTIVE and
bound to the element's station, which is ONLINE on the channel; otherwise it is forfeited and the flow is untouched. An
element that carries no charge restores nothing. -/
def Obligations.ChargesAreRestoredOrForfeited : Prop :=
  ∀ (s : State) (c : ChanNo) (n : StationNo) (f : FlowNo) (k o g : Nat),
    let t := (State.restoreElement c ⟨s, 0, 0⟩ ⟨o, g, .data n f (some k)⟩)
    let returns :=
      (s.flow f).state = .active ∧ (s.flow f).station = some n ∧ (s.station n).state = .online ∧
        (s.station n).channel = c
    (returns →
      t.restored = 1 ∧ t.forfeited = 0 ∧
      (t.state.flow f).backlog = min 1048575 ((s.flow f).backlog + k) ∧
      (t.state.flow f).credit = (s.flow f).credit.map (fun x => min (s.flow f).depth (x + k)) ∧
      (t.state.flow f).deficit = (s.flow f).deficit ∧ (t.state.flow f).fresh = (s.flow f).fresh ∧
      (t.state.flow f).residue = (s.flow f).residue ∧
      (∀ x, (s.flow f).listLevel = some x → t.state.activeLists = s.activeLists) ∧
      ((s.flow f).listLevel = none → (s.flow f).kind = .elastic → 0 < (s.flow f).backlog + k →
        (t.state.flow f).listLevel = some (s.classOf f).priority ∧
        t.state.activeLists =
          (s.putActive c (s.classOf f).priority (s.active c (s.classOf f).priority ++ [f])).activeLists) ∧
      (∀ g, g ≠ f → t.state.flow g = s.flow g) ∧
      ∀ d j, t.state.counter d j =
        if d = c ∧ j = .chargesRestored then State.saturate (s.counter d j) 1 else s.counter d j) ∧
    (¬ returns →
      t.restored = 0 ∧ t.forfeited = 1 ∧ t.state = s.count c .chargesForfeited 1) ∧
    State.restoreElement c ⟨s, 0, 0⟩ ⟨o, g, .data n f none⟩ = ⟨s, 0, 0⟩

/-- R148, R149, R99, R100, R13, R118: an entry still queued at its EXPIRY is removed and closed by its KIND: NO-SHOW for a turn, a
miss for a poll (set aside where R29 does not admit it), JOIN EMPTY for a join, and for REQUEST a report with its UNREPORTED
openings counted EMPTY, which the open tally of its plan takes (State.TallyReported). A DRAINING channel past its final swap,
with nothing left to depart or to expect, becomes STOPPED. Any other goes on with the beats it was brought (MODEL, assumption
6). What the kind of the entry does not name is left as it was. -/
def Obligations.ExpiryClosesTheEntry : Prop :=
  ∀ (s : State) (c : ChanNo) (e : ExpectEntry), s.expiringEntry c = some e →
    ∃ t, exec (.expiry c) s = .next t ∧
      t.expectQueues = (s.putExpectQueue c ((s.expectQueue c).erase e)).expectQueues ∧
      s.StopsOrGoesOn t c ∧
      ((∀ n, e.grant ≠ .poll n) → ∀ k, k ≠ .channelStopped → t.notice k = s.notice k) ∧
      (∀ n f, e.grant = .data n f ∨ e.grant = .periodic n f →
        t = { s with
              channels := t.channels, expectQueues := t.expectQueues, notices := t.notices
              channelCounters := (s.count c .noShow 1).channelCounters }) ∧
      (e.grant = .join →
        t = { s with
              channels := t.channels, expectQueues := t.expectQueues, notices := t.notices
              channelCounters := (s.count c .joinEmpty 1).channelCounters }) ∧
      (∀ n, e.grant = .poll n →
        s.Missed t c n ∧ (t.station n).lastMeasurement = (s.station n).lastMeasurement ∧
        (∀ m, m ≠ n → t.station m = s.station m) ∧
        (∀ d j, ¬ (d = c ∧ (j = .misses ∨ j = .stationsLost ∨ j = .pollQueueFull)) → t.counter d j = s.counter d j) ∧
        (∀ k, k ≠ .stationLost → k ≠ .channelStopped → t.notice k = s.notice k) ∧
        (¬ s.Reaches n c →
          t = { s with channels := t.channels, expectQueues := t.expectQueues, notices := t.notices } ∧
          t.notice .stationLost = s.notice .stationLost) ∧
        t = { s with
              channels := t.channels, expectQueues := t.expectQueues, notices := t.notices, stations := t.stations
              flows := t.flows, activeLists := t.activeLists, calendars := t.calendars, engine := t.engine
              pollQueues := t.pollQueues, adjustQueue := t.adjustQueue, channelCounters := t.channelCounters }) ∧
      ∀ g marks p, e.grant = .request g marks p →
        s.TallyReported t c p (marks.count .empty + marks.count .unreported) (marks.count .success)
          (marks.count .collided) ∧
        t = { s with
              channels := t.channels, expectQueues := t.expectQueues, notices := t.notices
              contention := t.contention, channelCounters := t.channelCounters }

/-! ## The build (chapters 4 to 7)

A step of a build is stated where nothing is due (State.Quiet) and the build has been moved past everything that is
finished (State.BuildSettled), so that what changes is the step's own (assumptions 2 and 18). -/

/-- R62, R63, R16, R102: an IDLE engine takes the request at the head of the build queue. An armed profile is applied, an
unused tally adapts TARGET and BACKOFF START, the header is begun, and an AUTOMATIC build is under way over the one free
span; a DIRECTED build ends at once, its elements kept. That LEVEL, ROUND REMAINING and ROUND PLACED, which R60 gives only in
stage 3, begin as 7, 0 and no is the model's choice (MODEL, assumption 32). -/
def Obligations.BuildBeginTakesTheHeadRequest : Prop :=
  ∀ (s : State) (r : BuildRequest) (q : List BuildRequest), s.engine = none → s.buildQueue = r :: q →
    ∃ t, exec .buildBegin s = .next t ∧ t.buildQueue = q ∧
      t.channels =
        (s.putContext r.channel
          (match (s.context r.channel).armedProfile with
          | none => s.context r.channel
          | some p =>
            { s.context r.channel with
              activePage := { (s.context r.channel).activePage with profile := p }
              armedProfile := none
              profileNumber := (s.context r.channel).profileNumber + 1 })).channels ∧
      (∀ l, (s.contentionOf r.channel).latest = some l → l.used = false →
        t.contention =
          (s.putContention r.channel
            { s.contentionOf r.channel with
              latest := some { l with used := true }
              target :=
                clampNat
                  (if l.n < 4 * l.collided then
                    (((s.contentionOf r.channel).target + max 1 (((s.contentionOf r.channel).target + 1) / 2) : Nat) : Int)
                  else if l.n < 2 * l.empty then
                    ((s.contentionOf r.channel).target : Int) - (max 1 ((s.contentionOf r.channel).target / 4) : Nat)
                  else (s.contentionOf r.channel).target)
                  (s.params r.channel).nmin (s.params r.channel).nmax
              backoffStart :=
                clampNat
                  (if l.n < 4 * l.collided then ((s.contentionOf r.channel).backoffStart : Int) + 1
                  else if l.n < 2 * l.empty then ((s.contentionOf r.channel).backoffStart : Int) - 1
                  else (s.contentionOf r.channel).backoffStart)
                  (s.params r.channel).backoffFloor (s.params r.channel).backoffCeiling }).contention ∧
        t.channelCounters =
          (s.count r.channel
            (if l.n < 4 * l.collided then .adaptRaise else if l.n < 2 * l.empty then .adaptLower else .adaptHold)
            1).channelCounters) ∧
      ((∀ l, (s.contentionOf r.channel).latest = some l → l.used = true) →
        t.contention = s.contention ∧ t.channelCounters = s.channelCounters) ∧
      t.planStores =
        (s.putBuildHalf r.channel
          { start := (s.context r.channel).nextStart, planSequence := none
            profileNumber := (t.context r.channel).profileNumber, requestMark := vget s.requestMarks r.channel
            backoffStart := (t.contentionOf r.channel).backoffStart
            backoffEnd := (s.params r.channel).backoffCeiling
            cut := false, fallback := false, idle := false
            elements :=
              if (s.params r.channel).sourceMode = .automatic then [] else (s.buildHalf r.channel).elements
            ready :=
              if (s.params r.channel).sourceMode = .automatic then false
              else (s.buildHalf r.channel).ready }).planStores ∧
      ((s.params r.channel).sourceMode = .automatic →
        t.buildConditions = (s.putBuildCondition r.channel .underBuild).buildConditions ∧
        t.engine =
          some
            { channel := r.channel, start := (s.context r.channel).nextStart
              cadenceSequence := (s.context r.channel).planSequence
              freeSpans := [{ offset := 0, length := (s.params r.channel).planLength }]
              level := 7, roundRemaining := 0, roundPlaced := false, phase := .timing }) ∧
      ((s.params r.channel).sourceMode = .directed →
        t.buildConditions = (s.putBuildCondition r.channel .none).buildConditions ∧ t.engine = none) ∧
      t = { s with
            channels := t.channels, contention := t.contention, channelCounters := t.channelCounters
            planStores := t.planStores, buildQueue := t.buildQueue, buildConditions := t.buildConditions
            engine := t.engine }

/-- R88, R89, R90, R93: every waiting flow is timed at START + PHASE; every timed flow whose nominal is before START is brought
forward by ceil(d / PERIOD) periods, each counted PERIODIC LAPSED; the WAITING part is then empty and the TIMED part holds
both parts' flows, by nominal and then by number. Nothing is placed; the walk comes next, or what follows it. -/
def Obligations.PeriodicTimingTimesTheCalendar : Prop :=
  ∀ (s : State) (b : BuildContext), s.Quiet → s.CountersBounded → s.engine = some b → b.phase = .timing →
    ((s.calendar b.channel).timed ++ (s.calendar b.channel).waiting).Nodup →
    (∀ f ∈ (s.calendar b.channel).waiting, (s.flow f).phase ≤ 65535) →
    ∃ (t : State) (lapsed : FlowNo → Nat), exec .periodicTiming s = .next t ∧
      (∀ f, lapsed f =
        match (s.flow f).nextNominal with
        | some n =>
          if before n b.start then ((b.start - n).toNat + (s.flow f).period - 1) / (s.flow f).period else 0
        | none => 0) ∧
      (∀ f ∈ (s.calendar b.channel).waiting,
        t.flow f = { s.flow f with nextNominal := some (b.start + beats32 (s.flow f).phase) }) ∧
      (∀ f ∈ (s.calendar b.channel).timed,
        t.flow f =
          { s.flow f with
            nextNominal := (s.flow f).nextNominal.map (fun n => n + beats32 (lapsed f * (s.flow f).period)) }) ∧
      (∀ f, f ∉ (s.calendar b.channel).waiting → f ∉ (s.calendar b.channel).timed → t.flow f = s.flow f) ∧
      (t.calendar b.channel).waiting = [] ∧
      (t.calendar b.channel).timed.Perm ((s.calendar b.channel).timed ++ (s.calendar b.channel).waiting) ∧
      (∀ nominal : FlowNo → Beat,
        (∀ f ∈ (t.calendar b.channel).timed,
          (t.flow f).nextNominal = some (nominal f) ∧ (nominal f - b.start).toNat < 2 ^ 31) →
        (t.calendar b.channel).timed.Pairwise (fun f g =>
          (nominal f - b.start).toNat < (nominal g - b.start).toNat ∨ (nominal f = nominal g ∧ f < g))) ∧
      (∀ d k, t.counter d k =
        if d = b.channel ∧ k = .periodicLapsed then
          State.saturate (s.counter d k) (((s.calendar b.channel).timed.map lapsed).sum)
        else s.counter d k) ∧
      t.BuildGoesOn b b.freeSpans t.WalkFrom ∧
      (∀ d, d ≠ b.channel → t.calendar d = s.calendar d) ∧
      t = { s with
            flows := t.flows, calendars := t.calendars, channelCounters := t.channelCounters, engine := t.engine }

/-- R84, R90, R91, R93: the head of the TIMED part, whose nominal falls in the plan, is placed at the first of the positions o … o +
JITTER that qualifies, counted PERIODIC PLACED; where none qualifies the turn is missed, counted and noticed. Either way
its nominal advances by PERIOD and it takes its new position; the walk goes on
with the next head, or group 2 begins. -/
def Obligations.PeriodicWalkPlacesOrMissesTheHead : Prop :=
  ∀ (s : State) (b : BuildContext) (f : FlowNo) (rest : List FlowNo) (n : Beat) (m : StationNo), s.Quiet →
    s.BuildSettled → s.engine = some b → b.phase = .walk → (s.calendar b.channel).timed = f :: rest →
    (s.flow f).nextNominal = some n → (n - b.start).toNat < (s.params b.channel).planLength →
    (s.flow f).station = some m →
    ∃ t, exec .periodicWalk s = .next t ∧
      (∀ p, (n - b.start).toNat ≤ p → p ≤ (n - b.start).toNat + (s.flow f).jitter →
        s.Fits b (s.flow f).turnBeats (.periodic m f) p →
        (∀ o, (n - b.start).toNat ≤ o → o < p → ¬ s.Fits b (s.flow f).turnBeats (.periodic m f) o) →
        s.PlacedIn t b (s.flow f).turnBeats (.periodic m f) p ∧
        (∃ spans, cutWindow p (s.flow f).turnBeats b.freeSpans = some spans ∧ t.BuildGoesOn b spans t.WalkFrom) ∧
        t.channelCounters = (s.count b.channel .periodicPlaced 1).channelCounters ∧ t.notices = s.notices) ∧
      ((∀ p, (n - b.start).toNat ≤ p → p ≤ (n - b.start).toNat + (s.flow f).jitter →
          ¬ s.Fits b (s.flow f).turnBeats (.periodic m f) p) →
        t.planStores = s.planStores ∧ t.BuildGoesOn b b.freeSpans t.WalkFrom ∧
        t.channelCounters = (s.count b.channel .periodicMiss 1).channelCounters ∧
        t.notices = (s.raise (.periodicMiss .noRoom b.channel f m (some n))).notices) ∧
      t.flows = (s.putFlow f { s.flow f with nextNominal := some (n + beats32 (s.flow f).period) }).flows ∧
      (∃ l r, (t.calendar b.channel).timed = l ++ f :: r ∧ rest = l ++ r ∧
        (∀ g ∈ l, ¬ t.NominalAhead f g) ∧ ∀ g, r.head? = some g → t.NominalAhead f g) ∧
      (t.calendar b.channel).waiting = (s.calendar b.channel).waiting ∧
      (∀ d, d ≠ b.channel → t.calendar d = s.calendar d) ∧
      t = { s with
            flows := t.flows, calendars := t.calendars, channelCounters := t.channelCounters, engine := t.engine
            planStores := t.planStores, notices := t.notices }

/-- R93, R68: a flow that owes extras is given one by first-fit placement, EXTRAS OWED falls by 1 and PERIODIC PLACED counts;
where it does not fit EXTRAS OWED is kept and EXTRA DEFERRED counts. No nominal moves. Group 2 goes
on with the next flow that owes, or group 3 begins. -/
def Obligations.ExtraTurnPlacesOrDefersOne : Prop :=
  ∀ (s : State) (b : BuildContext) (f : FlowNo) (rest : List FlowNo) (m : StationNo), s.Quiet → s.BuildSettled →
    s.engine = some b → b.phase = .extras (f :: rest) → (s.flow f).station = some m →
    ∃ t, exec .extraTurn s = .next t ∧
      (∀ o spans, s.Room b (s.flow f).turnBeats (.periodic m f) o spans →
        s.PlacedIn t b (s.flow f).turnBeats (.periodic m f) o ∧ t.BuildGoesOn b spans (t.ExtrasFrom rest) ∧
        t = { s with
              planStores := t.planStores, engine := t.engine
              flows := (s.putFlow f { s.flow f with extrasOwed := (s.flow f).extrasOwed - 1 }).flows
              channelCounters := (s.count b.channel .periodicPlaced 1).channelCounters }) ∧
      ((∀ o spans, ¬ s.Room b (s.flow f).turnBeats (.periodic m f) o spans) →
        t.BuildGoesOn b b.freeSpans (t.ExtrasFrom rest) ∧
        t = { s with
              engine := t.engine
              channelCounters := (s.count b.channel .extraDeferred 1).channelCounters })

/-- R104, R68, R112: a join opening is offered when J is not 0 and divides CADENCE SEQUENCE; it is placed first-fit as one JOIN
element of JB beats and JOIN OFFERED counts, or JOIN DROPPED counts. Group 4 then begins. -/
def Obligations.JoinOpeningIsOfferedByTheCadence : Prop :=
  (∀ (s : State) (b : BuildContext), (b.enterJoin s).phase = .join ↔
    (s.params b.channel).joinCadence ≠ 0 ∧ b.cadenceSequence.toNat % (s.params b.channel).joinCadence = 0) ∧
  ∀ (s : State) (b : BuildContext), s.Quiet → s.BuildSettled → s.engine = some b → b.phase = .join →
    ∃ t, exec .joinOpening s = .next t ∧
      (∀ o spans, s.Room b (s.params b.channel).joinLength .join o spans →
        s.PlacedIn t b (s.params b.channel).joinLength .join o ∧ t.BuildGoesOn b spans t.Group4From ∧
        t = { s with
              planStores := t.planStores, engine := t.engine
              channelCounters := (s.count b.channel .joinOffered 1).channelCounters }) ∧
      ((∀ o spans, ¬ s.Room b (s.params b.channel).joinLength .join o spans) →
        t.BuildGoesOn b b.freeSpans t.Group4From ∧
        t = { s with
              engine := t.engine
              channelCounters := (s.count b.channel .joinDropped 1).channelCounters })

/-- R112, R113, R68: a station is taken from the head of the poll queue and given a POLL element of PB beats, POLLS PLACED counting;
where that does not fit it joins the tail again, POLLS DEFERRED counts, group 4 ends and stage 2
begins. Else the next station is taken, as many as were to be, and the sweep comes after the last. A station that the
group has taken already, and an event has enqueued again, is taken like any other (MODEL, assumption 34). -/
def Obligations.PollQueueTakeOffersAPoll : Prop :=
  ∀ (s : State) (b : BuildContext) (k : Nat) (chosen : List StationNo) (n : StationNo) (q : List StationNo), s.Quiet →
    s.BuildSettled → s.CollectionsBounded → s.engine = some b → b.phase = .polls k chosen →
    s.pollQueue b.channel = n :: q → (s.station n).channel = b.channel →
    ∃ t, exec .pollQueueTake s = .next t ∧
      (∀ m, m ≠ n → t.station m = s.station m) ∧
      (∀ o spans, s.Room b (s.params b.channel).pollLength (.poll n) o spans →
        s.PlacedIn t b (s.params b.channel).pollLength (.poll n) o ∧ t.BuildGoesOn b spans (t.PollsFrom (k - 1) (n :: chosen)) ∧
        t.station n = { s.station n with inPollQueue := false } ∧
        t = { s with
              planStores := t.planStores, engine := t.engine, stations := t.stations
              pollQueues := (s.putPollQueue b.channel q).pollQueues
              channelCounters := (s.count b.channel .pollsPlaced 1).channelCounters }) ∧
      ((∀ o spans, ¬ s.Room b (s.params b.channel).pollLength (.poll n) o spans) →
        t.BuildGoesOn b b.freeSpans t.TargetFrom ∧
        t.station n = { s.station n with inPollQueue := true } ∧
        t = { s with
              engine := t.engine, stations := t.stations
              pollQueues := (s.putPollQueue b.channel (q ++ [n])).pollQueues
              channelCounters := (s.count b.channel .pollsDeferred 1).channelCounters })

/-- R113, R111, R69: the sweep examines the record at SWEEP POINTER, which then names the number after it modulo 8,192. A
station that is due, not in the poll queue and not chosen in this group is offered a POLL element; a placement that fails
counts POLLS DEFERRED, leaves the station as it was and ends group 4, as do 64 records examined and POLL
LIMIT stations chosen; stage 2 then begins. That the pointer moves with each record is the model's (assumption 33). -/
def Obligations.SweepExaminesOneRecord : Prop :=
  ∀ (s : State) (b : BuildContext) (k : Nat) (chosen : List StationNo) (n : StationNo), s.Quiet → s.BuildSettled →
    s.engine = some b → b.phase = .sweep k chosen → s.sweepPointer b.channel = n →
    ∃ (t : State) (wanted : Prop), exec .sweep s = .next t ∧
      (wanted ↔
        (s.station n).channel = b.channel ∧
        ((s.station n).state = .aligning ∨
          (((s.station n).state = .parked ∨ (s.station n).state = .online) ∧
            ∀ g, (s.station n).lastGood = some g → (s.params b.channel).maintenancePeriod ≤ (b.start - g).toNat)) ∧
        (s.station n).inPollQueue = false ∧ n ∉ chosen) ∧
      (t.sweepPointer b.channel).val = (n.val + 1) % 8192 ∧
      (∀ d, d ≠ b.channel → t.sweepPointer d = s.sweepPointer d) ∧
      (¬ wanted →
        t.BuildGoesOn b b.freeSpans (t.SweepFrom (k + 1) chosen) ∧
        t = { s with engine := t.engine, sweepPointers := t.sweepPointers }) ∧
      (∀ o spans, wanted → s.Room b (s.params b.channel).pollLength (.poll n) o spans →
        s.PlacedIn t b (s.params b.channel).pollLength (.poll n) o ∧ t.BuildGoesOn b spans (t.SweepFrom (k + 1) (n :: chosen)) ∧
        t = { s with
              planStores := t.planStores, engine := t.engine, sweepPointers := t.sweepPointers
              channelCounters := (s.count b.channel .pollsPlaced 1).channelCounters }) ∧
      (wanted → (∀ o spans, ¬ s.Room b (s.params b.channel).pollLength (.poll n) o spans) →
        t.BuildGoesOn b b.freeSpans t.TargetFrom ∧
        t = { s with
              engine := t.engine, sweepPointers := t.sweepPointers
              channelCounters := (s.count b.channel .pollsDeferred 1).channelCounters })

/-- R69, R70: stage 2 places one opening of RB beats first-fit. After the last of T, or one that does not fit, stage 3 begins
with the highest level that holds a flow. -/
def Obligations.RequestOpeningPlacesOne : Prop :=
  ∀ (s : State) (b : BuildContext) (k : Nat), s.Quiet → s.BuildSettled → s.engine = some b → b.phase = .openings k →
    ∃ t, exec .requestOpeningPlace s = .next t ∧
      (∀ o spans, s.Room b (s.params b.channel).requestLength (.request 1) o spans →
        s.PlacedIn t b (s.params b.channel).requestLength (.request 1) o ∧ t.BuildGoesOn b spans (t.OpeningsFrom (k - 1)) ∧
        t = { s with planStores := t.planStores, engine := t.engine }) ∧
      ((∀ o spans, ¬ s.Room b (s.params b.channel).requestLength (.request 1) o spans) →
        t.BuildGoesOn b b.freeSpans (t.VisitsFrom (fun _ => True)) ∧
        t = { s with engine := t.engine })

/-- R70, R71, R72, R73, R19, R59: the visit to the head of LEVEL. `x` is the flow with its bucket brought up to date and its
DEFICIT raised, `g` its turn. A turn is placed when g ≥ 1 and g covers the need or reaches MIN TURN: the charge leaves
BACKLOG and CREDIT, g leaves DEFICIT, FRESH becomes no, and the flow goes to the tail or, with BACKLOG 0, leaves the list.
Otherwise it is skipped, keeping what the visit gave it; a refusal by the budget also ends stage 3.
ROUND REMAINING falls by 1 with every visit and a turn sets ROUND PLACED; the round, the level or the stage goes on as they
say. What the three hold once stage 3 has ended is the model's choice (MODEL, assumption 32). -/
def Obligations.FlowVisitPlacesOrSkips : Prop :=
  ∀ (s : State) (b : BuildContext) (f : FlowNo) (rest : List FlowNo) (m : StationNo), s.Quiet → s.BuildSettled →
    s.engine = some b → b.phase = .visits → s.active b.channel b.level = f :: rest →
    (s.flow f).listLevel = some b.level → (s.flow f).station = some m →
    ∃ (t : State) (x : Flow) (need g charge : Nat), exec .flowVisit s = .next t ∧
      x = { (s.flow f).bucketUpdate b.start with
            deficit := min 1023 ((s.flow f).deficit + (s.classOf f).weight * (s.params b.channel).quantum) } ∧
      need =
        burstBeats (s.profile b.channel)
          (match x.credit with
          | some k => min x.backlog k
          | none => x.backlog) ∧
      g = min (min need (min (s.classOf f).maxTurn (s.params b.channel).maxBurst))
            (min x.deficit (largestSpan b.freeSpans)) ∧
      charge =
        min
          (match x.credit with
          | some k => min x.backlog k
          | none => x.backlog)
          (capacity (s.profile b.channel) g) ∧
      (∀ h, h ≠ f → t.flow h = s.flow h) ∧
      t.activeLists =
        (s.putActive b.channel b.level (if (t.flow f).backlog = 0 then rest else rest ++ [f])).activeLists ∧
      (∀ o spans, 1 ≤ g → g = need ∨ (s.classOf f).minTurn ≤ g → s.Room b g (.data m f (some charge)) o spans →
        s.PlacedIn t b g (.data m f (some charge)) o ∧ t.BuildGoesOn b spans (t.RoundFrom b.level (b.roundRemaining - 1) true) ∧
        t.flow f =
          { x with
            backlog := x.backlog - charge
            credit := x.credit.map (fun k => k - charge)
            deficit := if x.backlog - charge = 0 then 0 else x.deficit - g
            listLevel := if x.backlog - charge = 0 then none else x.listLevel
            fresh := false }) ∧
      (¬ (1 ≤ g ∧ (g = need ∨ (s.classOf f).minTurn ≤ g)) →
        t.planStores = s.planStores ∧
        t.BuildGoesOn b b.freeSpans (t.RoundFrom b.level (b.roundRemaining - 1) b.roundPlaced) ∧
        t.flow f =
          { x with
            deficit := if x.backlog = 0 then 0 else x.deficit
            listLevel := if x.backlog = 0 then none else x.listLevel }) ∧
      (1 ≤ g → g = need ∨ (s.classOf f).minTurn ≤ g →
        (∀ o spans, ¬ s.Room b g (.data m f (some charge)) o spans) →
        t.planStores = s.planStores ∧ t.flow f = x ∧
        t.engine = some { b with roundRemaining := b.roundRemaining - 1, phase := .closing }) ∧
      t = { s with
            flows := t.flows, activeLists := t.activeLists, planStores := t.planStores, engine := t.engine }

/-- R74, R75: the span conversion makes of a span of s beats floor(s / RB) request openings at its start and an IDLE
element of the remainder, no beat lost or added; no free span is left, and the reading for holds begins at level 7. With
no hold to append, or 240 elements, the build is complete and PLANS BUILT counts. -/
def Obligations.ClosingConvertsEverySpan : Prop :=
  ∀ (s : State) (b : BuildContext), s.Quiet → s.BuildSettled → s.engine = some b → b.phase = .closing →
    ∃ (t : State) (q : List Element) (more : Prop), exec .closing s = .next t ∧
      q = b.freeSpans.foldl
            (fun (q : List Element) p =>
              ((if p.length / (s.params b.channel).requestLength = 0 then ([] : List Element)
                else
                  [{ offset := p.offset
                     length :=
                      p.length / (s.params b.channel).requestLength * (s.params b.channel).requestLength
                     body := .request (p.length / (s.params b.channel).requestLength) }]) ++
                (if p.length % (s.params b.channel).requestLength = 0 then ([] : List Element)
                else
                  [{ offset :=
                      p.offset + p.length / (s.params b.channel).requestLength * (s.params b.channel).requestLength
                     length := p.length % (s.params b.channel).requestLength
                     body := .idle }])).foldl (fun q e => addElement e q) q)
            (s.buildHalf b.channel).elements ∧
      (q.map Element.length).sum =
        ((s.buildHalf b.channel).elements.map Element.length).sum + (b.freeSpans.map Span.length).sum ∧
      t.planStores = (s.putBuildHalf b.channel { s.buildHalf b.channel with elements := q }).planStores ∧
      (more ↔ q.length < 240 ∧
        ∃ l f, f ∈ s.active b.channel l ∧ (s.flow f).fresh = true ∧ (s.classOf f).holdsEnabled = true) ∧
      (more →
        t.engine = some { b with freeSpans := [], phase := .holds 7 0 } ∧
        t = { s with planStores := t.planStores, engine := t.engine }) ∧
      (¬ more →
        t = { s with
              planStores := t.planStores, engine := none
              buildConditions := (s.putBuildCondition b.channel .complete).buildConditions
              channelCounters := (s.count b.channel .plansBuilt 1).channelCounters })

/-- R75: the next flow of the reading with FRESH yes, of a class with HOLDS ENABLED, is given a HOLD element after every
element the plan holds, and its FRESH becomes no; no list moves. The build is complete when no such flow is left or the
plan holds 240 elements. -/
def Obligations.HoldAppendHoldsTheNextFlow : Prop :=
  ∀ (s : State) (b : BuildContext) (l m : Level) (i j : Nat) (f : FlowNo) (n : StationNo), s.Quiet → s.BuildSettled →
    s.engine = some b → b.phase = .holds l i → nextHold s b.channel l i = some (m, j, f) →
    (s.flow f).station = some n →
    ∃ t, exec .holdAppend s = .next t ∧
      f ∈ s.active b.channel m ∧ (s.flow f).fresh = true ∧ (s.classOf f).holdsEnabled = true ∧
      t.planStores =
        (s.putBuildHalf b.channel
          { s.buildHalf b.channel with
            elements :=
              (s.buildHalf b.channel).elements ++ [{ offset := 0, length := 0, body := .hold n f }] }).planStores ∧
      t.flows = (s.putFlow f { s.flow f with fresh := false }).flows ∧
      (((s.buildHalf b.channel).elements.length + 1 < 240 ∧ (nextHold t b.channel m (j + 1)).isSome = true) →
        t.engine = some { b with phase := .holds m (j + 1) } ∧
        t = { s with planStores := t.planStores, flows := t.flows, engine := t.engine }) ∧
      (¬ ((s.buildHalf b.channel).elements.length + 1 < 240 ∧ (nextHold t b.channel m (j + 1)).isSome = true) →
        t = { s with
              planStores := t.planStores, flows := t.flows, engine := none
              buildConditions := (s.putBuildCondition b.channel .complete).buildConditions
              channelCounters := (s.count b.channel .plansBuilt 1).channelCounters })

/-! ## The Plan Link (chapter 8) -/

/-- R127, R128, R139, R97, R100, R13: of the plans awaiting departure the one with the fewest units until its withdrawal
deadline departs, the lower channel of two that are equal. Its expect entries and its tally are made, a tally with no REQUEST
element being offered to LATEST TALLY at once; the plan frame holds its header and its elements; the emit half is emptied, PLANS
SENT counts, and a DRAINING channel past its final swap is tested for stopping. The units take account of beats still to be
reached, and a channel that has some then goes on with them (MODEL, assumption 6). -/
def Obligations.PlanDepartureMakesEntriesAndTally : Prop :=
  ∀ (s : State) (c : ChanNo), s.planLinkHold = false → s.planLink.sending = none → s.awaits c = true →
    (∀ d, s.awaits d = true → d ≠ c →
      s.unitsLeft ⟨c, (s.planStore c).withdrawalDeadline⟩ < s.unitsLeft ⟨d, (s.planStore d).withdrawalDeadline⟩ ∨
      (s.unitsLeft ⟨c, (s.planStore c).withdrawalDeadline⟩ = s.unitsLeft ⟨d, (s.planStore d).withdrawalDeadline⟩ ∧
        c < d)) →
    ∃ (t : State) (p : PlanRecord) (x : OpenTally), exec .planDeparture s = .next t ∧
      p = s.emitHalfPlan c ∧
      x = { planSequence := p.planSequence.getD 0
            n := (p.elements.map (fun e =>
              match e.body with
              | .request k => k
              | _ => 0)).sum
            outstanding := (p.elements.filter (fun e =>
              match e.body with
              | .request _ => true
              | _ => false)).length
            empty := 0, success := 0, collided := 0 } ∧
      t.planLink =
        { s.planLink with sending := some (State.framed 2 (State.fieldBytes (State.planFields c p))) } ∧
      t.expectQueues =
        (s.putExpectQueue c
          (s.expectQueue c ++ p.elements.filterMap (fun e =>
            (match e.body with
            | .data n f _ => some (Grant.data n f)
            | .periodic n f => some (.periodic n f)
            | .poll n => some (.poll n)
            | .join => some .join
            | .request k =>
              some
                (.request (s.params c).requestLength (List.replicate k .unreported) (p.planSequence.getD 0))
            | .idle => none
            | .hold _ _ => none).map (fun g =>
              { start := p.start + beats32 e.offset, length := e.length
                expiry := p.start + beats32 e.offset + beats32 e.length + beats32 (s.params c).settle
                grant := g })))).expectQueues ∧
      (x.outstanding ≠ 0 →
        t.contention =
          (s.putContention c
            { s.contentionOf c with openTallies := (s.contentionOf c).openTallies ++ [x] }).contention ∧
        t.channelCounters = (s.count c .plansSent 1).channelCounters) ∧
      (x.outstanding = 0 →
        t.contention =
          (s.putContention c
            { s.contentionOf c with latest := State.latestAfter (s.contentionOf c).latest x }).contention ∧
        ∀ d k,
          ((d = c ∧ (k = .plansSent ∨ State.TallyCounts (s.contentionOf c).latest x k)) →
            t.counter d k = State.saturate (s.counter d k) 1) ∧
          (¬ (d = c ∧ (k = .plansSent ∨ State.TallyCounts (s.contentionOf c).latest x k)) →
            t.counter d k = s.counter d k)) ∧
      t.planStores =
        (s.putPlanStore c
          { (s.planStore c).putHalf (s.planStore c).emitHalf PlanRecord.empty with emitCondition := .none }).planStores ∧
      (((s.context c).state = .draining ∧ (s.context c).drainMark = .afterFinalSwap ∧ t.expectQueue c = []) →
        t.context c =
          { s.context c with state := .stopped, drainMark := .none, armedProfile := none, beatsToReach := 0 } ∧
        t.notices = (s.raise (.channelStopped c .orderly)).notices) ∧
      (¬ ((s.context c).state = .draining ∧ (s.context c).drainMark = .afterFinalSwap ∧ t.expectQueue c = []) →
        t.context c =
          { s.context c with
            currentBeat := (t.context c).currentBeat, beatsToReach := (t.context c).beatsToReach } ∧
        t.notices = s.notices) ∧
      (∀ d, d ≠ c →
        t.context d =
          { s.context d with
            currentBeat := (t.context d).currentBeat, beatsToReach := (t.context d).beatsToReach } ∧
        ((s.context d).beatsToReach = 0 ∨ s.deadlineReached d = true → t.context d = s.context d)) ∧
      t = { s with
            channels := t.channels, planStores := t.planStores, expectQueues := t.expectQueues
            contention := t.contention, channelCounters := t.channelCounters, notices := t.notices
            planLink := t.planLink }

/-- R127, R129, R121: with no plan awaiting departure the head of the adjust queue leaves it as one adjust frame that holds its
fields, and ADJUST FRAMES SENT counts. MODEL (assumption 1): while a plan waits, or the link cannot accept a frame, the command
changes nothing. -/
def Obligations.AdjustFrameDepartsBehindPlans : Prop :=
  ∀ (s : State) (a : AdjustEntry) (q : List AdjustEntry), s.adjustQueue = a :: q →
    (s.planLinkHold = false → s.planLink.sending = none → (∀ c, s.awaits c = false) →
      exec .adjustFrameDeparture s =
        .next
          { s with
            adjustQueue := q
            planLink :=
              { s.planLink with sending := some (State.framed 3 (State.fieldBytes (State.adjustFields a))) }
            deviceCounters := (s.countDevice .adjustFramesSent 1).deviceCounters }) ∧
    (s.planLinkHold = true ∨ s.planLink.sending.isSome = true ∨ (∃ c, s.awaits c = true) →
      exec .adjustFrameDeparture s = .next s)

/-- R126, R153: hold and release set HOLD and leave a frame being sent alone; a frame end sets SENDING to no, and the frame
has gone out whole. MODEL: the logs of frames sent (assumption 8), and that a frame end with nothing being sent changes
nothing (assumption 1). -/
def Obligations.LinkEventsSetHoldAndSending : Prop :=
  ∀ s : State, s.Quiet →
    exec .planLinkHold s = .next { s with planLinkHold := true } ∧
    exec .planLinkRelease s = .next { s with planLinkHold := false } ∧
    (∀ f, s.planLink.sending = some f →
      exec .planLinkFrameEnd s =
        .next
          { s with
            planLink :=
              { sending := none, sent := s.planLink.sent ++ [{ bytes := f, close := .frameEnd }] } }) ∧
    (∀ f, s.systemLink.sending = some f →
      exec .systemLinkFrameEnd s =
        .next
          { s with
            systemLink :=
              { sending := none, sent := s.systemLink.sent ++ [{ bytes := f, close := .frameEnd }] } }) ∧
    (s.planLink.sending = none → exec .planLinkFrameEnd s = .next s) ∧
    (s.systemLink.sending = none → exec .systemLinkFrameEnd s = .next s)

/-! ## Burst Intake (chapter 9) -/

/-- R171: a record whose header is not sound is discarded; a CLEAN or REPAIRED record whose body fails is taken as a DAMAGED
record of the same CHANNEL and START with nothing else. -/
def Obligations.UnsoundRecordsAreDiscardedOrDamaged : Prop :=
  (∀ (s : State) (f : RawFrame), s.Quiet →
    f.bytes.head? ≠ some 1#8 ∨ f.close = .frameAbort ∨ f.body.length < 16 ∨
      be 2 (crc16 (f.bytes.take 16)).toNat ≠ (f.bytes.drop 16).take 2 ∨
      8 ≤ ofBe (f.body.take 1) ∨ 5 ≤ ofBe ((f.body.drop 5).take 1) →
    exec (.burstRecord f) s = .next s) ∧
  ∀ (f : RawFrame) (c : ChanNo), f.headerSound = true → ofBe (f.body.take 1) = c.val →
    ofBe ((f.body.drop 5).take 1) ≤ 1 →
    f.checkHolds = false ∨ f.declared ≠ f.body.length ∨
      (ofBe ((f.body.drop 6).take 1)).testBit 1 = false ∨
      readUnits (ofBe ((f.body.drop 15).take 1)) (f.body.drop 16) = none →
    f.burstRecord =
      some
        { channel := c, start := BitVec.ofNat 32 (ofBe ((f.body.drop 1).take 4)), outcome := .damaged
          station := none, measurement := none, units := [] }

/-- R141: a record that starts at `b` is matched to the entry whose range holds `b`: an entry of one burst at its START, a
REQUEST entry at an unreported opening; else it is stray, by cause. -/
def Obligations.RecordsMatchTheEntryThatHoldsTheirStart : Prop :=
  ∀ (q : List ExpectEntry) (b : Beat),
    ((∀ e ∈ q, e.length ≤ (b - e.start).toNat) → findingOf q b = .stray .noEntry) ∧
    ∀ (e : ExpectEntry) (l r : List ExpectEntry), q = l ++ e :: r → (∀ x ∈ l, x.length ≤ (b - x.start).toNat) →
      (b - e.start).toNat < e.length →
      ((∀ k marks p, e.grant ≠ .request k marks p) →
        findingOf q b = (if e.start = b then .entry e else .stray .misaligned)) ∧
      ∀ k marks p, e.grant = .request k marks p → 1 ≤ k →
        (∀ (i : Nat) (m : Mark), (b - e.start).toNat = i * k → marks[i]? = some m →
          findingOf q b = (if m = .unreported then .opening e i else .stray .reported)) ∧
        ((∀ i : Nat, i < marks.length → (b - e.start).toNat ≠ i * k) → findingOf q b = .stray .misaligned)

/-- R150: a stray record is counted, written to the stray ring and noticed; its measurement and its units reach nobody. -/
def Obligations.StrayRecordsAreRecordedOnly : Prop :=
  ∀ (s : State) (f : RawFrame) (r : BurstRecord) (cause : StrayCause), s.Quiet → f.burstRecord = some r →
    findingOf (s.expectQueue r.channel) r.start = .stray cause →
    ∃ t, exec (.burstRecord f) s = .next t ∧
      s.StrayWritten t
        { channel := r.channel, start := r.start, outcome := r.outcome, stationNamed := r.station
          stationExpected := none, cause := cause, units := r.units.length } ∧
      t = { s with
            channelCounters := (s.count r.channel .stray 1).channelCounters
            strayRing := t.strayRing, overwrites := t.overwrites
            notices := (s.raise (.strayBurst r.channel r.start r.outcome r.station cause)).notices }

/-- R142: a CLEAN or REPAIRED record that names another station than the DATA, PERIODIC or POLL entry it is matched to
removes the entry and is discarded: MISPLACED counts, the expected station is treated as absent, and the record is written
to the stray ring and noticed. -/
def Obligations.MisplacedRecordsCountAgainstTheExpectedStation : Prop :=
  ∀ (s : State) (f : RawFrame) (r : BurstRecord) (e : ExpectEntry) (n : StationNo) (x : NamedStation), s.Quiet →
    f.burstRecord = some r → findingOf (s.expectQueue r.channel) r.start = .entry e →
    r.outcome = .clean ∨ r.outcome = .repaired → e.grant.station = some n → r.station = some x → x.toNat ≠ n.val →
    ∃ t, exec (.burstRecord f) s = .next t ∧
      t.expectQueues =
        (s.putExpectQueue r.channel ((s.expectQueue r.channel).erase e)).expectQueues ∧
      t.counter r.channel .misplaced = State.saturate (s.counter r.channel .misplaced) 1 ∧
      s.StrayWritten t
        { channel := r.channel, start := r.start, outcome := r.outcome, stationNamed := r.station
          stationExpected := some n, cause := .misplaced, units := r.units.length } ∧
      s.Raised t (.strayBurst r.channel r.start r.outcome r.station .misplaced) ∧
      s.StopTested t r.channel ∧ t.requestMarks = s.requestMarks ∧ t.forwardBuffer = s.forwardBuffer ∧
      (∀ m g, e.grant = .data m g ∨ e.grant = .periodic m g →
        t = { s with
              channels := t.channels, expectQueues := t.expectQueues, strayRing := t.strayRing
              overwrites := t.overwrites, notices := t.notices
              channelCounters :=
                ((s.count r.channel .misplaced 1).count r.channel .noShow 1).channelCounters }) ∧
      (e.grant = .poll n →
        s.Missed t r.channel n ∧ (t.station n).lastMeasurement = (s.station n).lastMeasurement ∧
        (∀ d j,
          ¬ (d = r.channel ∧ (j = .misplaced ∨ j = .misses ∨ j = .stationsLost ∨ j = .pollQueueFull)) →
          t.counter d j = s.counter d j) ∧
        (∀ k, k ≠ .stationLost → k ≠ .strayBurst → k ≠ .channelStopped → t.notice k = s.notice k) ∧
        t = { s with
              channels := t.channels, expectQueues := t.expectQueues, strayRing := t.strayRing
              overwrites := t.overwrites, notices := t.notices, stations := t.stations, flows := t.flows
              activeLists := t.activeLists, calendars := t.calendars, engine := t.engine
              pollQueues := t.pollQueues, adjustQueue := t.adjustQueue, channelCounters := t.channelCounters })

/-- R143, R147, R152, R119: a record matched to a turn, not misplaced, removes the entry. COLLIDED and DAMAGED count TURNS
DAMAGED, EMPTY counts NO-SHOW, and nothing else changes but what the stop test (R13) does. CLEAN and REPAIRED, of a record of
data units alone, count TURNS ANSWERED, hand the measurement on as a maintenance measurement, and forward the units as far as
the buffer of 256 has room. -/
def Obligations.TurnRecordsAreSettledByOutcome : Prop :=
  ∀ (s : State) (f : RawFrame) (r : BurstRecord) (e : ExpectEntry) (n : StationNo) (g : FlowNo), s.Quiet →
    f.burstRecord = some r → findingOf (s.expectQueue r.channel) r.start = .entry e →
    e.grant = .data n g ∨ e.grant = .periodic n g → misplaces r e = false →
    ∃ t, exec (.burstRecord f) s = .next t ∧
      t.expectQueues =
        (s.putExpectQueue r.channel ((s.expectQueue r.channel).erase e)).expectQueues ∧
      s.StopTested t r.channel ∧
      (r.outcome = .collided ∨ r.outcome = .damaged ∨ r.outcome = .empty →
        ∀ k, k ≠ .channelStopped → t.notice k = s.notice k) ∧
      (r.outcome = .collided ∨ r.outcome = .damaged →
        t = { s with
              channels := t.channels, expectQueues := t.expectQueues, notices := t.notices
              channelCounters := (s.count r.channel .turnsDamaged 1).channelCounters }) ∧
      (r.outcome = .empty →
        t = { s with
              channels := t.channels, expectQueues := t.expectQueues, notices := t.notices
              channelCounters := (s.count r.channel .noShow 1).channelCounters }) ∧
      ∀ (m : Measurement) (us : List (List Byte)), r.outcome = .clean ∨ r.outcome = .repaired →
        r.measurement = some m → r.units = us.map BurstUnit.data →
        t.counter r.channel .turnsAnswered = State.saturate (s.counter r.channel .turnsAnswered) 1 ∧
        t.forwardBuffer =
          s.forwardBuffer ++
            (us.take (256 - s.forwardBuffer.length)).map (fun d =>
              { channel := r.channel, start := r.start, station := n, flow := some g, data := d }) ∧
        t.deviceCounter .forwardDrop =
          (if us.length ≤ 256 - s.forwardBuffer.length then s.deviceCounter .forwardDrop
          else State.saturate (s.deviceCounter .forwardDrop) (us.length - (256 - s.forwardBuffer.length))) ∧
        t.flows = s.flows ∧ t.requestMarks = s.requestMarks ∧
        (¬ ((s.station n).state = .online ∧ (s.station n).channel = r.channel) → t.stations = s.stations) ∧
        ((s.station n).state = .online → (s.station n).channel = r.channel →
          (t.station n).lastMeasurement = some m ∧ (t.station n).state = .online ∧
          (t.station n).timingTotal = (s.station n).timingTotal ∧
          (t.station n).powerTotal = (s.station n).powerTotal ∧
          ((m.timing.natAbs ≤ (s.params r.channel).timingTolerance ∧
              m.power.natAbs ≤ (s.params r.channel).powerTolerance) →
            (t.station n).missCount = 0 ∧ (t.station n).lastGood = some r.start ∧
            t.counter r.channel .maintained = State.saturate (s.counter r.channel .maintained) 1) ∧
          (¬ (m.timing.natAbs ≤ (s.params r.channel).timingTolerance ∧
              m.power.natAbs ≤ (s.params r.channel).powerTolerance) →
            (t.station n).missCount = (s.station n).missCount ∧
            (t.station n).lastGood = (s.station n).lastGood ∧
            ((s.pollQueue r.channel).length < 256 → (t.station n).inPollQueue = true) ∧
            t.counter r.channel .maintenanceFlagged =
              State.saturate (s.counter r.channel .maintenanceFlagged) 1))

/-- R29, R144, R116, R117, R118, R120: a CLEAN or REPAIRED record of no units matched to the POLL entry of a station that its
result reaches. Within both tolerances it is a success; out of tolerance with both steps 0 it is unfixable and a miss;
otherwise it is correctable, and the totals become the proposed totals when the adjust queue takes the adjustment. A
COLLIDED, DAMAGED or EMPTY record is a miss. -/
def Obligations.PollRecordsAreJudged : Prop :=
  ∀ (s : State) (f : RawFrame) (r : BurstRecord) (e : ExpectEntry) (n : StationNo), s.Quiet →
    f.burstRecord = some r → findingOf (s.expectQueue r.channel) r.start = .entry e → e.grant = .poll n →
    misplaces r e = false → s.Reaches n r.channel →
    ∃ t, exec (.burstRecord f) s = .next t ∧
      t.expectQueues =
        (s.putExpectQueue r.channel ((s.expectQueue r.channel).erase e)).expectQueues ∧
      s.StopTested t r.channel ∧
      (r.outcome = .collided ∨ r.outcome = .damaged ∨ r.outcome = .empty → s.Missed t r.channel n) ∧
      ∀ (m : Measurement) (st : Station) (timing power : Int) (a : AdjustEntry) (fine : Prop),
        r.outcome = .clean ∨ r.outcome = .repaired → r.measurement = some m → r.units = [] → st = s.station n →
        (fine ↔
          m.timing.natAbs ≤ (s.params r.channel).timingTolerance ∧
          m.power.natAbs ≤ (s.params r.channel).powerTolerance) →
        timing =
          (if m.timing.natAbs ≤ (s.params r.channel).timingTolerance then st.timingTotal
          else clampInt (st.timingTotal - m.timing) (-65535) 65535) →
        power =
          (if m.power.natAbs ≤ (s.params r.channel).powerTolerance then st.powerTotal
          else
            clampInt
              (st.powerTotal +
                clampInt (-m.power) (-((s.params r.channel).maxPowerStep : Int)) (s.params r.channel).maxPowerStep)
              (-96) 96) →
        a = { station := n, channel := r.channel, timingStep := timing - st.timingTotal
              powerStep := power - st.powerTotal, aligned := false } →
        (t.station n).lastMeasurement = some m ∧
        (fine →
          (t.station n).missCount = 0 ∧ (t.station n).lastGood = some r.start ∧
          (t.station n).timingTotal = st.timingTotal ∧ (t.station n).powerTotal = st.powerTotal ∧
          (t.station n).state =
            (if st.state = .aligning then if st.admitted then .online else .parked else st.state) ∧
          t.counter r.channel .alignSuccess = State.saturate (s.counter r.channel .alignSuccess) 1 ∧
          t.adjustQueue =
            (if st.state = .aligning then
              s.OfferedQueue
                { station := n, channel := r.channel, timingStep := 0, powerStep := 0, aligned := true }
            else s.adjustQueue)) ∧
        (¬ fine → timing = st.timingTotal → power = st.powerTotal →
          t.counter r.channel .alignLimited = State.saturate (s.counter r.channel .alignLimited) 1 ∧
          s.Missed t r.channel n) ∧
        (¬ fine → ¬ (timing = st.timingTotal ∧ power = st.powerTotal) →
          t.adjustQueue = s.OfferedQueue a ∧ (t.station n).missCount = st.missCount ∧
          (t.station n).lastGood = st.lastGood ∧ (t.station n).state = st.state ∧
          ((s.pollQueue r.channel).length < 256 → (t.station n).inPollQueue = true) ∧
          ((∃ x ∈ s.adjustQueue, x.station = n) ∨ s.adjustQueue.length < 64 →
            (t.station n).timingTotal = timing ∧ (t.station n).powerTotal = power ∧
            t.counter r.channel .alignCorrected = State.saturate (s.counter r.channel .alignCorrected) 1) ∧
          ((∀ x ∈ s.adjustQueue, x.station ≠ n) → 64 ≤ s.adjustQueue.length →
            (t.station n).timingTotal = st.timingTotal ∧ (t.station n).powerTotal = st.powerTotal ∧
            t.counter r.channel .alignCorrected = s.counter r.channel .alignCorrected ∧
            s.Raised t (.adjustDrop n r.channel a.timingStep a.powerStep false)))

/-- R105, R146, R147, R25, R26, R27, R28, R116, R117, R120: a record matched to a JOIN entry removes it. A join of an unknown
hardware ID takes the number at the head of the free list, or finds the table full; a known one realigns its station on the
record's channel: it leaves ONLINE, its adjust entry is removed, FILL ANCHOR of its flows becomes absent when the channel is
another, and the totals are 0. The measurement is then judged: within both tolerances the station is ONLINE or PARKED at once,
and else, with MAX POWER STEP at least 1 (R3), ALIGNING with an adjustment offered. The other units of the record reach nobody and are counted by kind.
R78: a level that the join leaves empty under a round ends; flows that leave and come back in it do not end one (MODEL,
assumption 16). -/
def Obligations.JoinRecordsAdmitOrRealign : Prop :=
  ∀ (s : State) (f : RawFrame) (r : BurstRecord) (e : ExpectEntry), s.Quiet → f.burstRecord = some r →
    findingOf (s.expectQueue r.channel) r.start = .entry e → e.grant = .join →
    ∃ t, exec (.burstRecord f) s = .next t ∧
      t.expectQueues =
        (s.putExpectQueue r.channel ((s.expectQueue r.channel).erase e)).expectQueues ∧
      s.StopTested t r.channel ∧
      (r.outcome = .collided ∨ r.outcome = .damaged →
        t = { s with
              channels := t.channels, expectQueues := t.expectQueues, notices := t.notices
              channelCounters := (s.count r.channel .joinCollided 1).channelCounters }) ∧
      (r.outcome = .empty →
        t = { s with
              channels := t.channels, expectQueues := t.expectQueues, notices := t.notices
              channelCounters := (s.count r.channel .joinEmpty 1).channelCounters }) ∧
      (r.outcome = .clean ∨ r.outcome = .repaired →
        t.counter r.channel .unitsDiscarded =
          State.risen (s.counter r.channel .unitsDiscarded)
            (r.units.countP (fun u =>
              match u with
              | .data _ | .request _ _ _ => true
              | .join _ | .behind => false)) ∧
        t.counter r.channel .behindIgnored =
          State.risen (s.counter r.channel .behindIgnored) (r.units.count .behind) ∧
        t.counter r.channel .joinUnitDiscarded =
          State.risen (s.counter r.channel .joinUnitDiscarded)
            (r.units.countP (fun u =>
              match u with
              | .join _ => true
              | .data _ | .request _ _ _ | .behind => false) - 1)) ∧
      (r.outcome = .clean ∨ r.outcome = .repaired → (∀ h, .join h ∉ r.units) →
        t.counter r.channel .joinEmpty = State.saturate (s.counter r.channel .joinEmpty) 1 ∧
        (∀ d k, d ≠ r.channel ∨ (k ≠ .joinEmpty ∧ k ≠ .unitsDiscarded ∧ k ≠ .behindIgnored) →
          t.counter d k = s.counter d k) ∧
        t = { s with
              channels := t.channels, expectQueues := t.expectQueues, notices := t.notices
              channelCounters := t.channelCounters }) ∧
      ∀ (h : HwId) (l u : List BurstUnit) (m : Measurement) (fine : Prop) (timing power : Int),
        r.outcome = .clean ∨ r.outcome = .repaired → r.units = l ++ .join h :: u → (∀ g, .join g ∉ l) →
        r.measurement = some m → 1 ≤ (s.params r.channel).maxPowerStep →
        (fine ↔
          m.timing.natAbs ≤ (s.params r.channel).timingTolerance ∧
          m.power.natAbs ≤ (s.params r.channel).powerTolerance) →
        timing =
          (if m.timing.natAbs ≤ (s.params r.channel).timingTolerance then 0
          else clampInt (-m.timing) (-65535) 65535) →
        power =
          (if m.power.natAbs ≤ (s.params r.channel).powerTolerance then 0
          else
            clampInt
              (clampInt (-m.power) (-((s.params r.channel).maxPowerStep : Int)) (s.params r.channel).maxPowerStep)
              (-96) 96) →
        t.counter r.channel .joinTaken = State.saturate (s.counter r.channel .joinTaken) 1 ∧
        (∀ (n : StationNo) (q : List AdjustEntry), s.lookupIdentity h = some n →
          q = s.adjustQueue.filter (fun a => decide (a.station ≠ n)) →
          t.identity = s.identity ∧ t.freeList = s.freeList ∧ (∀ x, x ≠ n → t.station x = s.station x) ∧
          s.BuildSees t ∧
          (t.station n).hardwareId = (s.station n).hardwareId ∧ (t.station n).channel = r.channel ∧
          (t.station n).admitted = (s.station n).admitted ∧
          (t.station n).policySelect = (s.station n).policySelect ∧
          (t.station n).flowList = (s.station n).flowList ∧
          (t.station n).lastMeasurement = some m ∧ (t.station n).missCount = 0 ∧
          (∀ g, g ∉ (s.station n).flowList → t.flow g = s.flow g) ∧
          (∀ g ∈ (s.station n).flowList,
            (t.flow g).fillAnchor =
              (if (s.station n).channel = r.channel then (s.flow g).fillAnchor else none)) ∧
          (¬ (fine ∧ (s.station n).admitted = true) →
            s.LeavesOnline t n ∧
            ∀ g ∈ (s.station n).flowList,
              t.flow g = { s.flowOff n g with fillAnchor := (t.flow g).fillAnchor }) ∧
          (fine →
            (t.station n).state = (if (s.station n).admitted then .online else .parked) ∧
            (t.station n).lastGood = some r.start ∧
            (t.station n).timingTotal = 0 ∧ (t.station n).powerTotal = 0 ∧
            t.counter r.channel .alignSuccess = State.saturate (s.counter r.channel .alignSuccess) 1 ∧
            t.adjustQueue =
              (if q.length < 64 then
                q ++ [{ station := n, channel := r.channel, timingStep := 0, powerStep := 0, aligned := true }]
              else q)) ∧
          (¬ fine →
            (t.station n).state = .aligning ∧ (t.station n).lastGood = none ∧
            ((s.pollQueue r.channel).length < 256 → (t.station n).inPollQueue = true) ∧
            (q.length < 64 →
              (t.station n).timingTotal = timing ∧ (t.station n).powerTotal = power ∧
              t.counter r.channel .alignCorrected = State.saturate (s.counter r.channel .alignCorrected) 1 ∧
              t.adjustQueue =
                q ++
                  [{ station := n, channel := r.channel, timingStep := timing, powerStep := power
                     aligned := false }]) ∧
            (64 ≤ q.length →
              (t.station n).timingTotal = 0 ∧ (t.station n).powerTotal = 0 ∧ t.adjustQueue = q ∧
              s.Raised t (.adjustDrop n r.channel timing power false)))) ∧
        (∀ (n : StationNo) (q : List StationNo) (a : AdjustEntry), s.lookupIdentity h = none → s.freeList = n :: q →
          a = { station := n, channel := r.channel, timingStep := timing, powerStep := power, aligned := false } →
          t.freeList = q ∧ t.identity = s.identity ++ [(h, n)] ∧ (∀ x, x ≠ n → t.station x = s.station x) ∧
          t.flows = s.flows ∧ t.activeLists = s.activeLists ∧ t.calendars = s.calendars ∧ t.engine = s.engine ∧
          (t.station n).hardwareId = some h ∧
          (t.station n).channel = r.channel ∧ (t.station n).admitted = false ∧
          (t.station n).policySelect = .a ∧ (t.station n).flowList = [] ∧
          (t.station n).lastMeasurement = some m ∧ (t.station n).missCount = 0 ∧
          s.Raised t (.newcomer n h r.channel) ∧
          (fine →
            (t.station n).state = .parked ∧ (t.station n).lastGood = some r.start ∧
            (t.station n).timingTotal = 0 ∧ (t.station n).powerTotal = 0 ∧
            t.adjustQueue = s.OfferedQueue { a with timingStep := 0, powerStep := 0, aligned := true }) ∧
          (¬ fine →
            (t.station n).state = .aligning ∧ (t.station n).lastGood = none ∧ t.adjustQueue = s.OfferedQueue a ∧
            ((∃ x ∈ s.adjustQueue, x.station = n) ∨ s.adjustQueue.length < 64 →
              (t.station n).timingTotal = timing ∧ (t.station n).powerTotal = power) ∧
            ((∀ x ∈ s.adjustQueue, x.station ≠ n) → 64 ≤ s.adjustQueue.length →
              (t.station n).timingTotal = 0 ∧ (t.station n).powerTotal = 0))) ∧
        (s.lookupIdentity h = none → s.freeList = [] →
          s.Raised t (.stationTableFull h r.channel) ∧
          t = { s with
                channels := t.channels, expectQueues := t.expectQueues, notices := t.notices
                channelCounters := t.channelCounters })

/-- R145, R98, R99, R100: a record matched to an opening of a REQUEST entry marks it by its outcome. The entry stays while
an opening is unreported; else it leaves, its openings are counted and added to its tally, the open tally of its plan. A tally
with none outstanding leaves the open tallies and is offered to LATEST TALLY: the first, or one of a later sequence, becomes it
unused and TALLIES FINALIZED counts, with TALLY SUPERSEDED where the one replaced was unused; any other counts TALLY STALE. -/
def Obligations.OpeningRecordsMarkAndFinalize : Prop :=
  ∀ (s : State) (f : RawFrame) (r : BurstRecord) (e : ExpectEntry) (i k : Nat) (marks ms : List Mark) (p : PlanSeq),
    s.Quiet → f.burstRecord = some r → findingOf (s.expectQueue r.channel) r.start = .opening e i →
    e.grant = .request k marks p → r.units = [] →
    ms = marks.set i
      (match r.outcome with
      | .clean | .repaired => .success
      | .collided | .damaged => .collided
      | .empty => .empty) →
    ∃ t, exec (.burstRecord f) s = .next t ∧ s.StopTested t r.channel ∧
      (Mark.unreported ∈ ms →
        t = { s with
              channels := t.channels, notices := t.notices
              expectQueues :=
                (s.putExpectQueue r.channel
                  (replaceFirst (fun x => x == e) (fun x => { x with grant := .request k ms p })
                    (s.expectQueue r.channel))).expectQueues }) ∧
      (Mark.unreported ∉ ms →
        t.counter r.channel .openingsEmpty =
          State.saturate (s.counter r.channel .openingsEmpty) (ms.count .empty) ∧
        t.counter r.channel .openingsSuccess =
          State.saturate (s.counter r.channel .openingsSuccess) (ms.count .success) ∧
        t.counter r.channel .openingsCollided =
          State.saturate (s.counter r.channel .openingsCollided) (ms.count .collided) ∧
        (∀ (l q : List OpenTally) (x z : OpenTally), (s.contentionOf r.channel).openTallies = l ++ x :: q →
          x.planSequence = p → (∀ y ∈ l, y.planSequence ≠ p) →
          z = { x with
                empty := x.empty + ms.count .empty, success := x.success + ms.count .success
                collided := x.collided + ms.count .collided, outstanding := x.outstanding - 1 } →
          (2 ≤ x.outstanding →
            t.contention =
              (s.putContention r.channel
                { s.contentionOf r.channel with openTallies := l ++ z :: q }).contention ∧
            ∀ j ∈ [ChannelCounter.talliesFinalized, .tallySuperseded, .tallyStale],
              t.counter r.channel j = s.counter r.channel j) ∧
          (x.outstanding ≤ 1 →
            t.contention =
              (s.putContention r.channel
                { s.contentionOf r.channel with
                  openTallies := l ++ q
                  latest := State.latestAfter (s.contentionOf r.channel).latest z }).contention ∧
            ∀ j ∈ [ChannelCounter.talliesFinalized, .tallySuperseded, .tallyStale],
              (State.TallyCounts (s.contentionOf r.channel).latest z j →
                t.counter r.channel j = State.saturate (s.counter r.channel j) 1) ∧
              (¬ State.TallyCounts (s.contentionOf r.channel).latest z j →
                t.counter r.channel j = s.counter r.channel j))) ∧
        ((∀ y ∈ (s.contentionOf r.channel).openTallies, y.planSequence ≠ p) →
          t.contention = s.contention ∧
          ∀ j ∈ [ChannelCounter.talliesFinalized, .tallySuperseded, .tallyStale],
            t.counter r.channel j = s.counter r.channel j) ∧
        (∀ d j,
          d ≠ r.channel ∨
            j ∉ [ChannelCounter.openingsEmpty, .openingsSuccess, .openingsCollided, .talliesFinalized, .tallySuperseded,
              .tallyStale] →
          t.counter d j = s.counter d j) ∧
        t = { s with
              channels := t.channels, notices := t.notices, contention := t.contention
              channelCounters := t.channelCounters
              expectQueues :=
                (s.putExpectQueue r.channel ((s.expectQueue r.channel).erase e)).expectQueues })

/-- R147, R92, R50, R51, R52, R57: the three checks of a request handoff, and what an accepted request does: BACKLOG is raised
and clamped, FRESH becomes yes, the REQUEST MARK of the channel is set, and a flow that now meets the enlistment law joins the
tail of its level. The units of a CLEAN or REPAIRED record that is matched and not misplaced are dispatched one at a time by
kind (State.UnitTaken), after the record has been settled: data units are forwarded, requests handed off with the STATION of
the unit at an opening and of the record at a turn or a poll, behind flags raise EXTRAS OWED, and the rest are counted. The
first join unit of a JOIN entry has already been taken. What settles a record matched to any other entry does not look at its
units. -/
def Obligations.RequestHandoffsAreCheckedAndTaken : Prop :=
  (∀ (s : State) (c : ChanNo) (start : Beat) (f : FlowNo) (amount : Nat) (x : Option NamedStation),
    (amount = 0 → s.requestHandoff c start f amount x = s) ∧
    (0 < amount →
      (¬ ((s.flow f).state ≠ .idle ∧
          ∃ n, (s.flow f).station = some n ∧
            ((s.station n).state = .aligning ∨ (s.station n).state = .parked ∨ (s.station n).state = .online)) →
        s.requestHandoff c start f amount x = s.count c .requestIgnored 1) ∧
      ∀ n, (s.flow f).state ≠ .idle → (s.flow f).station = some n →
        (s.station n).state = .aligning ∨ (s.station n).state = .parked ∨ (s.station n).state = .online →
        (∀ y, x = some y → y.toNat ≠ n.val →
          s.requestHandoff c start f amount x = s.count c .requestMismatch 1) ∧
        ((∀ y, x = some y → y.toNat = n.val) →
          ∃ t, s.requestHandoff c start f amount x = t ∧
            t.requestMarks = (s.putRequestMark c (some start)).requestMarks ∧
            t.channelCounters =
              (if 1048575 < (s.flow f).backlog + amount then (s.count c .requestClamp 1).channelCounters
              else s.channelCounters) ∧
            (∀ g, g ≠ f → t.flow g = s.flow g) ∧
            ((s.flow f).listLevel.isNone = true ∧ (s.flow f).state = .active ∧ (s.flow f).kind = .elastic ∧
                (s.station n).state = .online →
              t.flow f =
                { s.flow f with
                  backlog := min 1048575 ((s.flow f).backlog + amount), fresh := true
                  listLevel := some (s.classOf f).priority } ∧
              t.activeLists =
                (s.putActive (s.station n).channel (s.classOf f).priority
                  (s.active (s.station n).channel (s.classOf f).priority ++ [f])).activeLists) ∧
            (¬ ((s.flow f).listLevel.isNone = true ∧ (s.flow f).state = .active ∧ (s.flow f).kind = .elastic ∧
                (s.station n).state = .online) →
              t.flow f =
                { s.flow f with
                  backlog := min 1048575 ((s.flow f).backlog + amount), fresh := true } ∧
              t.activeLists = s.activeLists) ∧
            t = { s with
                  flows := t.flows, activeLists := t.activeLists, requestMarks := t.requestMarks
                  channelCounters := t.channelCounters }))) ∧
  (∀ (s : State) (r : BurstRecord) (e : ExpectEntry) (i : Nat),
    (e.grant ≠ .join → s.settleEntry r e.grant = s.settleEntry { r with units := [] } e.grant) ∧
    s.markOpening r e i = s.markOpening { r with units := [] } e i) ∧
  ∀ (s : State) (f : RawFrame) (r : BurstRecord) (e : ExpectEntry) (us : List BurstUnit), s.Quiet →
    f.burstRecord = some r → r.outcome = .clean ∨ r.outcome = .repaired →
    (e.grant ≠ .join ∨ (∀ h, .join h ∉ r.units) → us = r.units) →
    (∀ l h q, e.grant = .join → r.units = l ++ .join h :: q → (∀ g, .join g ∉ l) → us = l ++ q) →
    (findingOf (s.expectQueue r.channel) r.start = .entry e → misplaces r e = false →
      ∃ t v, exec (.burstRecord f) s = .next t ∧
        State.UnitsTaken r e.grant ((s.removeEntry r.channel e).settleEntry r e.grant) us v ∧
        v.StopTested t r.channel ∧ t = { v with channels := t.channels, notices := t.notices }) ∧
    ∀ i, findingOf (s.expectQueue r.channel) r.start = .opening e i →
      ∃ t v, exec (.burstRecord f) s = .next t ∧ State.UnitsTaken r e.grant (s.markOpening r e i) us v ∧
        v.StopTested t r.channel ∧ t = { v with channels := t.channels, notices := t.notices }

/-! ## The System Link (chapters 9 and 10) -/

/-- R154, R155: a control frame joins the tail of the control queue, or, with 16 frames there, is answered BUSY and counted.
While INBOUND HOLD is yes the one frame whose transfer had begun is taken so, and no other arrives (assumption 9). -/
def Obligations.ControlFramesAreQueuedOrRefused : Prop :=
  ∀ (s : State) (f : RawFrame), s.Quiet →
    (s.inboundHold = true → s.heldArrival = true → exec (.controlFrame f) s = .next s) ∧
    (s.inboundHold = false ∨ s.heldArrival = false →
      (s.controlQueue.length < 16 →
        exec (.controlFrame f) s =
          .next
            { s with
              controlQueue := s.controlQueue ++ [f], heldArrival := if s.inboundHold then true else s.heldArrival }) ∧
      (16 ≤ s.controlQueue.length →
        exec (.controlFrame f) s =
          .next
            { s with
              responseQueue := s.responseQueue ++ [State.responseTo f .busy []]
              inboundHold := s.inboundHold || decide (30 ≤ s.responseQueue.length + 1)
              heldArrival := if s.inboundHold then true else s.heldArrival
              deviceCounters := (s.countDevice .framesBusy 1).deviceCounters }))

/-- R153, R155, R167, R152, R165, R170: the arbiter of the outbound System Link sends the head response; with none, the pending notice
of the highest priority that is enabled; with none, the head of the forward buffer; and nothing while a frame is being
sent. INBOUND HOLD becomes no when a departure brings the responses below 30. The frames hold the fields of section 11.4 in
the envelope and coding of section 11.1 (R165, R170). MODEL: the widths of the two counts of PLAN WITHDRAWN and of the two steps
of ADJUST DROP (assumption 20); that a departure that is not next, or finds a frame being sent, changes nothing (assumption
1); and the frame that may still arrive under INBOUND HOLD (assumption 9). -/
def Obligations.SystemLinkSendsByPriority : Prop :=
  ∀ s : State,
    (s.systemLink.sending.isSome = true →
      exec .responseDeparture s = .next s ∧ exec .noticeDeparture s = .next s ∧
      exec .forwardDeparture s = .next s) ∧
    (s.systemLink.sending = none →
      (∀ r q, s.responseQueue = r :: q →
        exec .noticeDeparture s = .next s ∧ exec .forwardDeparture s = .next s ∧
        exec .responseDeparture s =
          .next
            { s with
              responseQueue := q, systemLink := { s.systemLink with sending := some (State.framed 6 (State.fieldBytes (State.responseFields r) ++ r.results)) }
              inboundHold := s.inboundHold && decide (30 ≤ q.length)
              heldArrival := s.heldArrival && (s.inboundHold && decide (30 ≤ q.length)) }) ∧
      (∀ k p, s.responseQueue = [] → vget s.noticeEnable k.index = true → s.notice k = some p →
        (∀ j, j.index < k.index → vget s.noticeEnable j.index = false ∨ s.notice j = none) →
        exec .forwardDeparture s = .next s ∧
        exec .noticeDeparture s =
          .next
            { s with
              notices := vput s.notices k.index none
              systemLink := { s.systemLink with sending := some (State.framed 5 (State.fieldBytes (State.noticeFields p))) }
              deviceCounters := (s.countDevice .noticesSent 1).deviceCounters }) ∧
      (∀ u q, s.responseQueue = [] → (∀ j, vget s.noticeEnable j.index = false ∨ s.notice j = none) →
        s.forwardBuffer = u :: q →
        exec .noticeDeparture s = .next s ∧
        exec .forwardDeparture s =
          .next
            { s with
              forwardBuffer := q, systemLink := { s.systemLink with sending := some (State.framed 4 (State.fieldBytes (State.forwardFields u) ++ u.data)) }
              deviceCounters := (s.countDevice .unitsForwarded 1).deviceCounters }))

/-! ## Management (chapters 1, 2, 3, 8 and 10)

An operation is stated where the Management Unit may begin an execution and the frame `f` at the head of the control queue
carries it (State.Executes); `q` is the queue behind it. State.Answers says what every execution does beside the operation's
own effect, and State.managed is the state with just that. -/

/-- R156, R173: a frame that fails its format check is answered MALFORMED; one whose OPERATION lies outside 1 … 18 is
answered UNKNOWN-OP. Neither alters anything. -/
def Obligations.UnknownOpRefusesTheHeadFrame : Prop :=
  ∀ (s : State) (f : RawFrame) (q : List RawFrame), s.executionMayBegin = true → s.controlQueue = f :: q →
    (f.close = .frameAbort ∨ f.bytes.head? ≠ some 7#8 ∨ f.checkHolds = false ∨ f.declared ≠ f.body.length ∨
        f.body.length < 3 ∨ 1024 < f.body.length ∨
        (1 ≤ f.operation.toNat ∧ f.operation.toNat ≤ 18 ∧
          readOperands f.operation.toNat (f.body.drop 3) = none) →
      ∃ t, exec .unknownOp s = .next t ∧ s.Answers t f q .malformed [] ∧ t = s.managed t) ∧
    (f.close = .frameEnd → f.bytes.head? = some 7#8 → f.checkHolds = true → f.declared = f.body.length →
      3 ≤ f.body.length → f.body.length ≤ 1024 → f.operation.toNat = 0 ∨ 18 < f.operation.toNat →
      ∃ t, exec .unknownOp s = .next t ∧ s.Answers t f q .unknownOp [] ∧ t = s.managed t)

/-- R10, R4, R7, R61, R85, R96, R109, R123: the checks of CHANNEL-START in their order, and the start: the first
build request joins the queue in order of the units remaining, from which the beats that another channel was brought and has
not yet reached are taken off (State.unitsLeft; MODEL, assumptions 6 and 30). -/
def Obligations.ChannelStartChecksAndStarts : Prop :=
  ∀ (s : State) (f : RawFrame) (q : List RawFrame) (i : Nat) (epoch : RefCount) (first : Beat), s.TablesInForm →
    s.Executes f q (.channelStart i epoch first) →
    ∃ t code, exec .channelStart s = .next t ∧ s.Answers t f q code [] ∧ (8 ≤ i → code = .badIndex) ∧
      (code ≠ .done → t = s.managed t) ∧
      ∀ (c : ChanNo) (page : Page) (d : Nat), c.val = i → page = (s.context c).pendingPage →
        d = (s.lastReference - epoch).toNat →
        code =
          (if (s.context c).state ≠ .stopped then .state
          else if ¬ (page.params.lead ≤ page.params.planLength - 1 ∧ 1 ≤ page.params.planLength ∧
              page.params.lead + page.params.settle < page.params.planLength ∧
              page.params.flightMargin ≤ page.params.lead - 1 ∧ 1 ≤ page.params.lead ∧
              page.params.nmin ≤ page.params.nmax ∧
              page.params.backoffFloor ≤ page.params.backoffCeiling) then .badValue
          else if before (beats32 (d / page.params.beatLength)) (first - beats32 page.params.lead) = false then
            .tooLate
          else .done) ∧
        (code = .done →
          t.channels =
            (s.putContext c
              { s.context c with
                state := .running, drainMark := .none, epoch := epoch
                currentBeat := beats32 (d / page.params.beatLength)
                beatPhase := d % page.params.beatLength
                nextStart := first, planSequence := 0, profileNumber := (s.context c).profileNumber + 1
                activePage := page, armedProfile := none, beatsToReach := 0 }).channels ∧
          (∀ n, t.station n =
            { s.station n with
              missCount :=
                if (s.station n).channel = c ∧ page.params.missLimit ≤ (s.station n).missCount then
                  page.params.missLimit - 1
                else (s.station n).missCount }) ∧
          t.contention =
            (s.putContention c
              { s.contentionOf c with
                target := page.params.nmin, backoffStart := page.params.backoffFloor, latest := none }).contention ∧
          t.planStores =
            (s.putPlanStore c
              { s.planStore c with
                h0 := PlanRecord.empty, h1 := PlanRecord.empty, emitHalf := .h0
                emitCondition := .none }).planStores ∧
          (t.calendar c).timed = [] ∧
          (t.calendar c).waiting.Perm ((s.calendar c).waiting ++ (s.calendar c).timed) ∧
          (∀ e, e ≠ c → t.calendar e = s.calendar e) ∧
          (∀ g, t.flow g = if g ∈ (s.calendar c).timed then { s.flow g with nextNominal := none } else s.flow g) ∧
          t.QueuedInOrder { channel := c, emitTime := first - beats32 page.params.lead } s.buildQueue t.buildQueue ∧
          t.buildConditions = (s.putBuildCondition c .queued).buildConditions ∧
          t = { s.managed t with
                channels := t.channels, stations := t.stations, contention := t.contention
                planStores := t.planStores, calendars := t.calendars, flows := t.flows
                buildQueue := t.buildQueue, buildConditions := t.buildConditions })

/-- R12: an ORDERLY stop of a RUNNING channel makes it DRAINING, BEFORE FINAL SWAP, and leaves its work alone; of a DRAINING
channel it changes nothing. CHANNEL is checked first, then MODE, then the channel's state (section 1.4); a
MODE that is neither is answered by this row (MODEL, assumption 5). -/
def Obligations.OrderlyStopDrainsTheChannel : Prop :=
  ∀ (s : State) (f : RawFrame) (q : List RawFrame) (i m : Nat), s.Executes f q (.channelStop i m) → m ≠ 1 →
    ∃ t code, exec .channelStopOrderly s = .next t ∧ s.Answers t f q code [] ∧ (8 ≤ i → code = .badIndex) ∧
      (code ≠ .done → t = s.managed t) ∧
      ∀ c : ChanNo, c.val = i →
        code =
          (if m ≠ 0 then .badValue else if (s.context c).state = .stopped then .state else .done) ∧
        (code = .done →
          t = { s.managed t with
                channels :=
                  (s.putContext c
                    { s.context c with
                      state := .draining
                      drainMark :=
                        if (s.context c).state = .running then .beforeFinalSwap
                        else (s.context c).drainMark }).channels })

/-- R14, R83, R96, R130, R131, R37: an ABRUPT stop abandons the build, discards the build half, withdraws a plan awaiting
departure, empties the Expect Queue without an outcome and the open tallies, and makes the channel STOPPED where it stands, with
a notice. The charges of the build half's DATA elements are restored one after another, then those of the withdrawn plan, each
as ChargesAreRestoredOrForfeited says; a withdrawal raises PLAN WITHDRAWN with the counts of its own. No station changes. The
engine takes its next request before the charges are restored (MODEL, assumption 24); charges of a discarded half are counted
as those of a withdrawn plan (MODEL, assumption 15). -/
def Obligations.AbruptStopEndsTheChannelsWork : Prop :=
  ∀ (s : State) (f : RawFrame) (q : List RawFrame) (i : Nat), s.Executes f q (.channelStop i 1) →
    ∃ t code, exec .channelStopAbrupt s = .next t ∧ s.Answers t f q code [] ∧ (8 ≤ i → code = .badIndex) ∧
      (code ≠ .done → t = s.managed t) ∧
      ∀ c : ChanNo, c.val = i →
        code = (if (s.context c).state = .stopped then .state else .done) ∧
        (code = .done →
          t.context c =
            { s.context c with state := .stopped, drainMark := .none, armedProfile := none, beatsToReach := 0 } ∧
          t.buildCondition c = .none ∧ (∀ r ∈ t.buildQueue, r.channel ≠ c) ∧
          (∀ b, t.engine = some b → b.channel ≠ c) ∧ t.buildHalf c = PlanRecord.empty ∧
          (s.awaits c = true → t.awaits c = false ∧ t.emitHalfPlan c = PlanRecord.empty) ∧
          t.counter c .plansWithdrawn =
            (if s.awaits c then State.saturate (s.counter c .plansWithdrawn) 1
            else s.counter c .plansWithdrawn) ∧
          (∃ x y : State.Restoration,
            x = (s.buildHalf c).elements.foldl (State.restoreElement c) ⟨s, 0, 0⟩ ∧
            y =
              (if s.awaits c then
                (s.emitHalfPlan c).elements.foldl (State.restoreElement c) ⟨x.state, 0, 0⟩
              else ⟨x.state, 0, 0⟩) ∧
            t.flows = y.state.flows ∧ t.activeLists = y.state.activeLists ∧
            t.counter c .chargesRestored = y.state.counter c .chargesRestored ∧
            t.counter c .chargesForfeited = y.state.counter c .chargesForfeited ∧
            (s.awaits c = true →
              s.Raised t
                (.planWithdrawn c ((s.emitHalfPlan c).planSequence.getD 0) (s.emitHalfPlan c).start y.restored
                  y.forfeited)) ∧
            (s.awaits c = false → t.notice .planWithdrawn = s.notice .planWithdrawn)) ∧
          t.counter c .noShow = s.counter c .noShow ∧ t.counter c .misses = s.counter c .misses ∧
          t.counter c .planCut = s.counter c .planCut ∧
          t.contentionOf c = { s.contentionOf c with openTallies := [] } ∧
          t.expectQueues = (s.putExpectQueue c []).expectQueues ∧
          s.Raised t (.channelStopped c .abrupt) ∧
          ((∀ b, s.engine = some b → b.channel ≠ c) →
            t.engine = s.engine ∧ ∀ e, e ≠ c → t.context e = s.context e ∧ t.planStore e = s.planStore e) ∧
          t = { s.managed t with
                channels := t.channels, engine := t.engine, buildConditions := t.buildConditions
                buildQueue := t.buildQueue, planStores := t.planStores, flows := t.flows
                activeLists := t.activeLists, contention := t.contention, expectQueues := t.expectQueues
                channelCounters := t.channelCounters, notices := t.notices })

/-- R15: PROFILE-COMMIT copies the profile of the PENDING page into ARMED PROFILE of a RUNNING channel, and leaves the build
in progress as it is. -/
def Obligations.ProfileCommitArmsThePendingProfile : Prop :=
  ∀ (s : State) (f : RawFrame) (q : List RawFrame) (i : Nat), s.Executes f q (.profileCommit i) →
    ∃ t code, exec .profileCommit s = .next t ∧ s.Answers t f q code [] ∧ (8 ≤ i → code = .badIndex) ∧
      (code ≠ .done → t = s.managed t) ∧
      ∀ c : ChanNo, c.val = i →
        code = (if (s.context c).state = .running then .done else .state) ∧
        (code = .done →
          t = { s.managed t with
                channels :=
                  (s.putContext c
                    { s.context c with
                      armedProfile := some (s.context c).pendingPage.profile }).channels })

/-- R31, R28, R86: STATION-ADMIT by the station's state. A PARKED station enters ONLINE without a notice: an ACTIVE ELASTIC
flow with backlog joins the tail of its level, an ACTIVE PERIODIC one the WAITING part of the calendar, or finds it full. The
flows of a station of several enter one after another, in FLOW LIST order (State.FlowsEnter), each bound to the station. -/
def Obligations.StationAdmitActsByState : Prop :=
  ∀ (s : State) (f : RawFrame) (q : List RawFrame) (i : Nat), s.Executes f q (.stationAdmit i) →
    ∃ t code, exec .stationAdmit s = .next t ∧ s.Answers t f q code [] ∧ (8192 ≤ i → code = .badIndex) ∧
      (code ≠ .done → t = s.managed t) ∧
      ∀ n : StationNo, n.val = i →
        code = (if (s.station n).state = .free ∨ (s.station n).state = .lost then .state else .done) ∧
        ((s.station n).state = .online → t = s.managed t) ∧
        ((s.station n).state = .aligning →
          t = { s.managed t with
                stations := (s.putStation n { s.station n with admitted := true }).stations }) ∧
        ((s.station n).state = .parked →
          t.station n = { s.station n with admitted := true, state := .online } ∧
          (∀ m, m ≠ n → t.station m = s.station m) ∧
          t.notice .stationOnline = s.notice .stationOnline ∧
          ((∀ g ∈ (s.station n).flowList, (s.flow g).station = some n) →
            State.FlowsEnter n (s.station n).channel
              { s.managed t with stations := t.stations } (s.station n).flowList t) ∧
          ((∀ g ∈ (s.station n).flowList, (s.flow g).state ≠ .active) →
            t = { s.managed t with stations := t.stations }) ∧
          (∀ g, (s.station n).flowList = [g] → (s.flow g).station = some n → (s.flow g).state = .active →
            (s.flow g).kind = .elastic → 0 < (s.flow g).backlog → (s.flow g).listLevel = none →
            t = { s.managed t with
                  stations := t.stations
                  flows := (s.putFlow g { s.flow g with listLevel := some (s.classOf g).priority }).flows
                  activeLists :=
                    (s.putActive (s.station n).channel (s.classOf g).priority
                      (s.active (s.station n).channel (s.classOf g).priority ++ [g])).activeLists }) ∧
          (∀ g, (s.station n).flowList = [g] → (s.flow g).state = .active → (s.flow g).kind = .periodic →
            s.inCalendar (s.station n).channel g = false →
            ((s.calendar (s.station n).channel).waiting.length +
                (s.calendar (s.station n).channel).timed.length < 1024 →
              (t.calendar (s.station n).channel).timed = (s.calendar (s.station n).channel).timed ∧
              (t.calendar (s.station n).channel).waiting.Perm
                (g :: (s.calendar (s.station n).channel).waiting) ∧
              t = { s.managed t with stations := t.stations, calendars := t.calendars }) ∧
            (1024 ≤ (s.calendar (s.station n).channel).waiting.length +
                (s.calendar (s.station n).channel).timed.length →
              t = { s.managed t with
                    stations := t.stations
                    channelCounters := (s.count (s.station n).channel .calendarFull 1).channelCounters
                    notices :=
                      (s.raise
                        (.periodicMiss .calendarFull (s.station n).channel g n none)).notices })))

/-- R32, R27, R110: the checks of STATION-MOVE in their order, and the move: exactly the station's flows leave the lists and the
calendar of the old channel, the others keeping their order, with DEFICIT 0, NEXT NOMINAL absent and EXTRAS OWED 0; they keep
BACKLOG, CREDIT and RESIDUE, with FILL ANCHOR absent. The station is ALIGNING on the new channel and at the tail of its poll
queue, when that has room. Its adjust entry and its expect entries stay. R78, R70: a build under way sees the event whole: a
level that it has emptied under a round ends, and a reading for holds keeps its place (MODEL, assumption 28). -/
def Obligations.StationMoveRealignsElsewhere : Prop :=
  ∀ (s : State) (f : RawFrame) (q : List RawFrame) (i j : Nat), s.Executes f q (.stationMove i j) →
    ∃ t code, exec .stationMove s = .next t ∧ s.Answers t f q code [] ∧ (8192 ≤ i → code = .badIndex) ∧
      (i < 8192 → 8 ≤ j → code = .badValue) ∧ (code ≠ .done → t = s.managed t) ∧
      ∀ (n : StationNo) (c : ChanNo), n.val = i → c.val = j →
        code =
          (if (s.station n).state = .free ∨ (s.station n).state = .lost then .state
          else if (s.station n).channel = c then .badValue else .done) ∧
        (code = .done →
          t.station n =
            { s.station n with
              channel := c, state := .aligning, lastGood := none, missCount := 0
              inPollQueue := decide ((s.pollQueue c).length < 256) } ∧
          (∀ m, m ≠ n → t.station m = s.station m) ∧
          t.pollQueue c = (if (s.pollQueue c).length < 256 then s.pollQueue c ++ [n] else s.pollQueue c) ∧
          t.pollQueue (s.station n).channel = (s.pollQueue (s.station n).channel).erase n ∧
          (∀ d, d ≠ c → d ≠ (s.station n).channel → t.pollQueue d = s.pollQueue d) ∧
          s.LeavesOnline t n ∧ s.BuildSees t ∧
          (∀ g ∈ (s.station n).flowList, t.flow g = { s.flowOff n g with fillAnchor := none }) ∧
          (∀ g, g ∉ (s.station n).flowList → t.flow g = s.flow g) ∧
          t.channelCounters =
            (if (s.pollQueue c).length < 256 then s.channelCounters
            else (s.count c .pollQueueFull 1).channelCounters) ∧
          t = { s.managed t with
                stations := t.stations, flows := t.flows, activeLists := t.activeLists, calendars := t.calendars
                pollQueues := t.pollQueues, engine := t.engine, channelCounters := t.channelCounters })

/-- R34, R27, R24, R44: STATION-RELEASE takes every flow of the station out of its list and its calendar and unbinds it, removes
the station from the poll queue, the adjust queue and the identity map, gives its record the reset values and its number to the
tail of the free list. R78, R70: a build under way sees the event whole: a level that it has emptied under a round ends, and a
reading for holds keeps its place (MODEL, assumption 28). -/
def Obligations.StationReleaseFreesTheNumber : Prop :=
  ∀ (s : State) (f : RawFrame) (q : List RawFrame) (i : Nat), s.Executes f q (.stationRelease i) →
    ∃ t code, exec .stationRelease s = .next t ∧ s.Answers t f q code [] ∧ (8192 ≤ i → code = .badIndex) ∧
      (code ≠ .done → t = s.managed t) ∧
      ∀ n : StationNo, n.val = i →
        code = (if (s.station n).state = .free then .state else .done) ∧
        (code = .done →
          t.station n = Station.reset ∧ (∀ m, m ≠ n → t.station m = s.station m) ∧
          t.freeList = s.freeList ++ [n] ∧
          t.identity = s.identity.filter (fun e => decide (some e.1 ≠ (s.station n).hardwareId)) ∧
          t.adjustQueue = s.adjustQueue.filter (fun a => decide (a.station ≠ n)) ∧
          t.pollQueues =
            (s.putPollQueue (s.station n).channel
              ((s.pollQueue (s.station n).channel).erase n)).pollQueues ∧
          s.LeavesOnline t n ∧ s.BuildSees t ∧
          (∀ g ∈ (s.station n).flowList,
            t.flow g =
              { s.flow g with
                state := .idle, station := none, backlog := 0, deficit := 0, residue := 0, extrasOwed := 0
                fresh := false, credit := (s.flow g).credit.map (fun _ => 0), fillAnchor := none
                nextNominal := none
                listLevel := if (s.station n).state = .online then none else (s.flow g).listLevel }) ∧
          (∀ g, g ∉ (s.station n).flowList → t.flow g = s.flow g) ∧
          t = { s.managed t with
                stations := t.stations, freeList := t.freeList, identity := t.identity
                adjustQueue := t.adjustQueue, pollQueues := t.pollQueues, flows := t.flows
                activeLists := t.activeLists, calendars := t.calendars, engine := t.engine })

/-- R41, R30: the checks of FLOW-BIND in their order, and the bind at the tail of the station's FLOW LIST. -/
def Obligations.FlowBindAppendsToTheFlowList : Prop :=
  ∀ (s : State) (f : RawFrame) (q : List RawFrame) (i j : Nat), s.Executes f q (.flowBind i j) →
    ∃ t code, exec .flowBind s = .next t ∧ s.Answers t f q code [] ∧ (16384 ≤ i → code = .badIndex) ∧
      (i < 16384 → 8192 ≤ j → code = .badValue) ∧ (code ≠ .done → t = s.managed t) ∧
      ∀ (g : FlowNo) (n : StationNo), g.val = i → n.val = j →
        code =
          (if (s.flow g).state ≠ .idle then .state
          else if (s.station n).state = .free then .state
          else if 16 ≤ (s.station n).flowList.length then .full
          else .done) ∧
        (code = .done →
          t = { s.managed t with
                flows :=
                  (s.putFlow g
                    { s.flow g with state := .held, station := some n, fillAnchor := none }).flows
                stations :=
                  (s.putStation n
                    { s.station n with flowList := (s.station n).flowList ++ [g] }).stations })

/-- R42, R57, R86: FLOW-ACTIVATE of a HELD flow. With its station ONLINE an ELASTIC flow with backlog joins its list and a
PERIODIC flow the WAITING part of the calendar; a full calendar refuses it FULL, counts CALENDAR FULL and leaves it HELD. -/
def Obligations.FlowActivateActsByKindAndStation : Prop :=
  ∀ (s : State) (f : RawFrame) (q : List RawFrame) (i : Nat) (n : StationNo), s.Executes f q (.flowActivate i) →
    ∃ t code, exec .flowActivate s = .next t ∧ s.Answers t f q code [] ∧ (16384 ≤ i → code = .badIndex) ∧
      (code ≠ .done → code ≠ .full → t = s.managed t) ∧
      ∀ g : FlowNo, g.val = i →
        ((s.flow g).state ≠ .held → code = .state) ∧
        ((s.flow g).state = .held → (s.flow g).station = some n →
          ((s.station n).state ≠ .online ∨ ((s.flow g).kind = .elastic ∧ (s.flow g).backlog = 0) →
            code = .done ∧
            t = { s.managed t with flows := (s.putFlow g { s.flow g with state := .active }).flows }) ∧
          ((s.station n).state = .online → (s.flow g).kind = .elastic → 0 < (s.flow g).backlog →
            (s.flow g).listLevel = none →
            code = .done ∧ (∀ h, h ≠ g → t.flow h = s.flow h) ∧
            t.flow g = { s.flow g with state := .active, listLevel := some (s.classOf g).priority } ∧
            t = { s.managed t with
                  flows := t.flows
                  activeLists :=
                    (s.putActive (s.station n).channel (s.classOf g).priority
                      (s.active (s.station n).channel (s.classOf g).priority ++ [g])).activeLists }) ∧
          ((s.station n).state = .online → (s.flow g).kind = .periodic →
            s.inCalendar (s.station n).channel g = false →
            ((s.calendar (s.station n).channel).waiting.length +
                (s.calendar (s.station n).channel).timed.length < 1024 →
              code = .done ∧
              (t.calendar (s.station n).channel).timed = (s.calendar (s.station n).channel).timed ∧
              (t.calendar (s.station n).channel).waiting.Perm
                (g :: (s.calendar (s.station n).channel).waiting) ∧
              (∀ d, d ≠ (s.station n).channel → t.calendar d = s.calendar d) ∧
              t = { s.managed t with
                    flows := (s.putFlow g { s.flow g with state := .active }).flows
                    calendars := t.calendars }) ∧
            (1024 ≤ (s.calendar (s.station n).channel).waiting.length +
                (s.calendar (s.station n).channel).timed.length →
              code = .full ∧
              t = { s.managed t with
                    channelCounters := (s.count (s.station n).channel .calendarFull 1).channelCounters })))

/-- R43, R44, R58, R87: FLOW-HOLD of an ACTIVE flow takes it out of its list and its calendar and keeps BACKLOG, CREDIT, RESIDUE,
FILL ANCHOR and FRESH; FLOW-UNBIND of a HELD flow takes it out of its station's FLOW LIST and clears it; the parameter
fields are kept. R78, R70: a level of the build under way that the flow leaves empty under a round ends, and a reading for
holds keeps its place (MODEL, assumption 28). -/
def Obligations.FlowHoldAndUnbindTakeTheFlowOut : Prop :=
  ∀ (s : State) (f : RawFrame) (q : List RawFrame) (i : Nat) (n : StationNo),
    (s.Executes f q (.flowHold i) →
      ∃ t code, exec .flowHold s = .next t ∧ s.Answers t f q code [] ∧ (16384 ≤ i → code = .badIndex) ∧
        (code ≠ .done → t = s.managed t) ∧
        ∀ g : FlowNo, g.val = i →
          code = (if (s.flow g).state = .active then .done else .state) ∧
          (code = .done → (s.flow g).station = some n →
            s.BuildSees t ∧
            t.flow g =
              { s.flow g with
                state := .held, listLevel := none
                deficit := if (s.flow g).listLevel.isSome then 0 else (s.flow g).deficit
                nextNominal :=
                  if s.inCalendar (s.station n).channel g then none else (s.flow g).nextNominal
                extrasOwed := if s.inCalendar (s.station n).channel g then 0 else (s.flow g).extrasOwed } ∧
            (∀ h, h ≠ g → t.flow h = s.flow h) ∧
            t.activeLists =
              (match (s.flow g).listLevel with
              | none => s.activeLists
              | some l =>
                (s.putActive (s.station n).channel l
                  ((s.active (s.station n).channel l).erase g)).activeLists) ∧
            t.calendars =
              (if s.inCalendar (s.station n).channel g then
                (s.putCalendar (s.station n).channel
                  { waiting := (s.calendar (s.station n).channel).waiting.erase g
                    timed := (s.calendar (s.station n).channel).timed.erase g }).calendars
              else s.calendars) ∧
            t = { s.managed t with
                  flows := t.flows, activeLists := t.activeLists, calendars := t.calendars
                  engine := t.engine })) ∧
    (s.Executes f q (.flowUnbind i) →
      ∃ t code, exec .flowUnbind s = .next t ∧ s.Answers t f q code [] ∧ (16384 ≤ i → code = .badIndex) ∧
        (code ≠ .done → t = s.managed t) ∧
        ∀ g : FlowNo, g.val = i →
          code = (if (s.flow g).state = .held then .done else .state) ∧
          (code = .done → (s.flow g).station = some n →
            t = { s.managed t with
                  stations :=
                    (s.putStation n
                      { s.station n with flowList := (s.station n).flowList.erase g }).stations
                  flows :=
                    (s.putFlow g
                      { s.flow g with
                        state := .idle, station := none, backlog := 0, deficit := 0, residue := 0
                        extrasOwed := 0, fresh := false, credit := (s.flow g).credit.map (fun _ => 0)
                        fillAnchor := none, nextNominal := none }).flows }))

/-- R132, R133: the checks of PLAN-WRITE in their order; the elements, each valid for its kind, are appended in their order,
with the STATION and FLOW they name, OPENINGS = LENGTH / RB for a REQUEST element and no CHARGE for a DATA element, and DONE
carries how many the half now holds. -/
def Obligations.PlanWriteAppendsValidElements : Prop :=
  ∀ (s : State) (f : RawFrame) (q : List RawFrame) (i : Nat) (es : List RawElement), s.Executes f q (.planWrite i es) →
    ∃ t code results, exec .planWrite s = .next t ∧ s.Answers t f q code results ∧ (8 ≤ i → code = .badIndex) ∧
      (code ≠ .done → results = [] ∧ t = s.managed t) ∧
      ∀ c : ChanNo, c.val = i →
        code =
          (if ¬ (((s.context c).state = .running ∨
                ((s.context c).state = .draining ∧ (s.context c).drainMark = .beforeFinalSwap)) ∧
              (s.params c).sourceMode = .directed) then .state
          else if (s.buildHalf c).ready then .state
          else if es.length < 1 ∨ 16 < es.length then .badValue
          else if ¬ (∀ e ∈ es,
              (e.kind = 0 ∧ e.offset < (s.params c).planLength ∧ 1 ≤ e.length ∧ e.length ≤ 1023 ∧
                e.station < 8192 ∧ e.flow < 16384) ∨
              (e.kind = 1 ∧ e.offset < (s.params c).planLength ∧ 1 ≤ e.length ∧ e.length ≤ 255 ∧
                e.station < 8192 ∧ e.flow < 16384) ∨
              (e.kind = 2 ∧ e.offset < (s.params c).planLength ∧ e.length = (s.params c).pollLength ∧
                e.station < 8192) ∨
              (e.kind = 3 ∧ e.offset < (s.params c).planLength ∧ e.length = (s.params c).joinLength) ∨
              (e.kind = 4 ∧ e.offset < (s.params c).planLength ∧ (s.params c).requestLength ≤ e.length ∧
                e.length % (s.params c).requestLength = 0) ∨
              (e.kind = 5 ∧ e.offset < (s.params c).planLength ∧ 1 ≤ e.length ∧
                e.length ≤ (s.params c).planLength) ∨
              (e.kind = 6 ∧ e.offset < (s.params c).planLength ∧ e.offset = 0 ∧ e.length = 0 ∧
                e.station < 8192 ∧ e.flow < 16384)) then .badValue
          else if 240 < (s.buildHalf c).elements.length + es.length then .full
          else .done) ∧
        (code = .done →
          results = be 1 ((s.buildHalf c).elements.length + es.length) ∧
          t = { s.managed t with
                planStores :=
                  (s.putBuildHalf c
                    { s.buildHalf c with
                      elements :=
                        (s.buildHalf c).elements ++
                          es.map (fun e =>
                            { offset := e.offset, length := e.length
                              body :=
                                match e.kind with
                                | 0 => .data (Fin.ofNat 8192 e.station) (Fin.ofNat 16384 e.flow) none
                                | 1 => .periodic (Fin.ofNat 8192 e.station) (Fin.ofNat 16384 e.flow)
                                | 2 => .poll (Fin.ofNat 8192 e.station)
                                | 3 => .join
                                | 4 => .request (e.length / (s.params c).requestLength)
                                | 5 => .idle
                                | _ => .hold (Fin.ofNat 8192 e.station) (Fin.ofNat 16384 e.flow) }) }).planStores })

/-- R132, R134, R135: PLAN-READY accepts a half whose timed elements cover [0, Lp) in order, exactly once, ahead of every HOLD;
READY is then yes. Otherwise nothing changes and the answer is LAYOUT with the position of the first element that fails (a timed
one not where the one before it ends, or one behind a HOLD: that this one is named and not the HOLD is MODEL, assumption 23), or,
where none does, how many elements there are when they end before Lp, and the last timed one when it runs past Lp (MODEL,
assumption 23). PLAN-DISCARD removes every element and sets READY to no, keeping the header. Either needs a channel RUNNING, or DRAINING before its final swap, in SOURCE MODE DIRECTED. -/
def Obligations.PlanReadyAndDiscard : Prop :=
  ∀ (s : State) (f : RawFrame) (q : List RawFrame) (i : Nat),
    (s.Executes f q (.planReady i) →
      ∃ t code results, exec .planReady s = .next t ∧ s.Answers t f q code results ∧
        (8 ≤ i → code = .badIndex) ∧ (code ≠ .done → t = s.managed t) ∧ (code ≠ .layout → results = []) ∧
        ∀ (c : ChanNo) (writable : Prop), c.val = i →
          (writable ↔
            ((s.context c).state = .running ∨
              ((s.context c).state = .draining ∧ (s.context c).drainMark = .beforeFinalSwap)) ∧
            (s.params c).sourceMode = .directed) →
          (¬ writable → code = .state) ∧
          (writable → (s.buildHalf c).ready = true → code = .done ∧ t = s.managed t) ∧
          (writable → (s.buildHalf c).ready = false →
            (code = .done ↔
              ∃ timed holds : List Element, (s.buildHalf c).elements = timed ++ holds ∧
                (∀ e ∈ timed, e.isHold = false) ∧ (∀ e ∈ holds, e.isHold = true) ∧
                (∀ (k : Nat) (e : Element), timed[k]? = some e →
                  e.offset = ((timed.take k).map Element.length).sum) ∧
                (timed.map Element.length).sum = (s.params c).planLength) ∧
            (code = .done →
              t = { s.managed t with
                    planStores := (s.putBuildHalf c { s.buildHalf c with ready := true }).planStores }) ∧
            (code ≠ .done → code = .layout) ∧
            (∀ (k : Nat) (e : Element), (s.buildHalf c).elements[k]? = some e → e.isHold = false →
              (∃ h ∈ (s.buildHalf c).elements.take k, h.isHold = true) ∨
                e.offset ≠ (((s.buildHalf c).elements.take k).map Element.length).sum →
              (∀ (j : Nat) (g : Element), j < k → (s.buildHalf c).elements[j]? = some g → g.isHold = false →
                (∀ h ∈ (s.buildHalf c).elements.take j, h.isHold = false) ∧
                g.offset = (((s.buildHalf c).elements.take j).map Element.length).sum) →
              code = .layout ∧ results = be 1 k) ∧
            (∀ timed holds : List Element, (s.buildHalf c).elements = timed ++ holds →
              (∀ e ∈ timed, e.isHold = false) → (∀ e ∈ holds, e.isHold = true) →
              (∀ (k : Nat) (e : Element), timed[k]? = some e →
                e.offset = ((timed.take k).map Element.length).sum) →
              ((timed.map Element.length).sum < (s.params c).planLength →
                code = .layout ∧ results = be 1 (s.buildHalf c).elements.length) ∧
              ((s.params c).planLength < (timed.map Element.length).sum →
                code = .layout ∧ results = be 1 (timed.length - 1))))) ∧
    (s.Executes f q (.planDiscard i) →
      ∃ t code, exec .planDiscard s = .next t ∧ s.Answers t f q code [] ∧ (8 ≤ i → code = .badIndex) ∧
        (code ≠ .done → t = s.managed t) ∧
        ∀ c : ChanNo, c.val = i →
          code =
            (if ((s.context c).state = .running ∨
                ((s.context c).state = .draining ∧ (s.context c).drainMark = .beforeFinalSwap)) ∧
              (s.params c).sourceMode = .directed then .done else .state) ∧
          (code = .done →
            t = { s.managed t with
                  planStores :=
                    (s.putBuildHalf c { s.buildHalf c with elements := [], ready := false }).planStores }))

/-- R158, R159, R23, R151: the checks of READ in their order. One record is read whole in the event; several are reached one at a
time by READ_RECORD, each as it then stands (of STRAY, the ring as it was when the READ was taken: MODEL, assumption 13), and the
response joins with the last. The images hold the fields of section 11.1 (that of DEVICE: MODEL, assumption 12). READ changes no
state of a table. A TABLE that names none of the nine is answered BAD-TABLE whatever follows it (MODEL, assumption 25). -/
def Obligations.ReadReturnsRecordImages : Prop :=
  (∀ (s : State) (f : RawFrame) (q : List RawFrame) (k : TableId) (i n : Nat), s.Executes f q (.read k i n) →
    ∃ (t : State) (code : Code), exec .read s = .next t ∧
      code =
        (if s.readSize k ≤ i then .badIndex
        else if n < 1 ∨ k.readLimit < n then .badValue
        else if s.readSize k < i + n then .badIndex
        else .done) ∧
      (code ≠ .done → s.Answers t f q code [] ∧ t = s.managed t) ∧
      (code = .done → n = 1 →
        s.Answers t f q .done (s.readOpening k ++ { s with controlQueue := q }.recordImage s.strayRing k i) ∧
        t = s.managed t) ∧
      (code = .done → 1 < n →
        t = { s with
              controlQueue := q, deviceCounters := (s.countDevice .framesTaken 1).deviceCounters
              execution :=
                some
                  (.reading
                    { tag := f.tag, table := k, next := i, remaining := n, results := s.readOpening k
                      ring := if k = .stray then s.strayRing else [] }) })) ∧
  (∀ (s : State) (f : RawFrame) (q : List RawFrame) (h : HwId) (n : Nat), s.Executes f q (.readIdentity h n) →
    ∃ t, exec .read s = .next t ∧ t = s.managed t ∧
      (n ≠ 1 → s.Answers t f q .badValue []) ∧
      (n = 1 →
        s.Answers t f q .done
          (match s.lookupIdentity h with
          | some m => be 1 1 ++ be 2 m.val
          | none => be 1 0 ++ be 2 0))) ∧
  (∀ (s : State) (f : RawFrame) (q : List RawFrame), s.NamesNoTable f q 14 →
    ∃ t, exec .read s = .next t ∧ s.Answers t f q .badTable [] ∧ t = s.managed t) ∧
  (∀ (s : State) (ring : List StrayEntry),
    (∀ n : StationNo,
      s.recordImage ring .station n.val = State.fieldBytes (State.stationFields n (s.station n))) ∧
    (∀ g : FlowNo, s.recordImage ring .flow g.val = State.fieldBytes (State.flowFields g (s.flow g))) ∧
    (∀ k : ClassNo,
      s.recordImage ring .policyA k.val = State.fieldBytes (State.classFields (s.policyClass .a k)) ∧
      s.recordImage ring .policyB k.val = State.fieldBytes (State.classFields (s.policyClass .b k))) ∧
    (∀ c : ChanNo,
      s.recordImage ring .channelActive c.val =
        State.fieldBytes (State.channelFields (s.context c) (s.contentionOf c)) ∧
      s.recordImage ring .channelPending c.val =
        State.fieldBytes (State.pageFields (s.context c).pendingPage)) ∧
    (∀ (k : Nat) (x : StrayEntry), ring[k]? = some x →
      s.recordImage ring .stray k = State.fieldBytes (State.strayFields x)) ∧
    s.recordImage ring .device 0 = State.fieldBytes s.deviceFields ∧
    s.readOpening .stray = State.fieldBytes [(1, s.strayRing.length), (4, s.overwrites)] ∧
    ∀ k : TableId, k ≠ .stray → s.readOpening k = []) ∧
  ∀ (s : State) (j : ReadJob), s.Quiet → s.execution = some (.reading j) →
    ∃ t, exec .readRecord s = .next t ∧
      (1 < j.remaining →
        t = { s with
              execution :=
                some
                  (.reading
                    { j with
                      next := j.next + 1, remaining := j.remaining - 1
                      results := j.results ++ s.recordImage j.ring j.table j.next }) }) ∧
      (j.remaining ≤ 1 →
        t = { s with
              execution := none
              responseQueue :=
                s.responseQueue ++
                  [{ tag := j.tag, operation := 14#8, code := .done
                     results := j.results ++ s.recordImage j.ring j.table j.next }]
              inboundHold := s.inboundHold || decide (30 ≤ s.responseQueue.length + 1) })

/-- R158, R160, R35, R45, R46, R47, R3, R166: the checks of WRITE in their order. What a write of one field does: POLICY
SELECT of a station; RATE of a flow, which gives, takes or keeps its bucket; DEPTH, which clamps CREDIT; a field of a class
and of a PENDING page; and NOTICE ENABLE, whose DISABLED discards the kind's pending record. A write of RATE and DEPTH
together gives a new bucket the new DEPTH; one of KIND, CLASS and the periodic fields, of all five fields of a class, or of all 29 of
a PENDING page sets each. An INDEX out of range is BAD-INDEX also where MASK names no field (MODEL, assumption 35). A MASK
bit past the last field is answered BAD-FIELD (MODEL, assumption 11), and a
TABLE that names none of the nine BAD-TABLE, whatever follows it (MODEL, assumption 25). -/
def Obligations.WriteChecksAndSetsMaskedFields : Prop :=
  (∀ (s : State) (f : RawFrame) (q : List RawFrame), s.NamesNoTable f q 15 →
    ∃ t, exec .write s = .next t ∧ s.Answers t f q .badTable [] ∧ t = s.managed t) ∧
  ∀ (s : State) (f : RawFrame) (q : List RawFrame) (k : TableId) (i : Nat) (vs : List (Nat × Nat)),
    s.Executes f q (.write k i vs) →
    ∃ t code, exec .write s = .next t ∧ s.Answers t f q code [] ∧ (code ≠ .done → t = s.managed t) ∧
      (k = .channelActive ∨ k = .identity ∨ k = .stray → code = .badTable) ∧
      (¬ (k = .channelActive ∨ k = .identity ∨ k = .stray) →
        code =
          (if k.size ≤ i then .badIndex
          else if ¬ (∀ v ∈ vs, ((k.fields[v.1]?).bind (fun x => x.range)).isSome = true) then .badField
          else if ¬ (∀ v ∈ vs,
              (((k.fields[v.1]?).bind (fun x => x.range)).map (fun r => decide (r.1 ≤ v.2 ∧ v.2 ≤ r.2))).getD
                true = true) then .badValue
          else if (k = .station ∧ vs ≠ [] ∧ (s.station (Fin.ofNat 8192 i)).state = .free) ∨
              (k = .flow ∧ (∃ v ∈ vs, v.1 ∈ [3, 14, 15, 16, 17]) ∧
                (s.flow (Fin.ofNat 16384 i)).state = .active) then .state
          else .done)) ∧
      (code = .done →
        (∀ (n : StationNo) (v : Nat), k = .station → n.val = i → vs = [(5, v)] →
          t = { s.managed t with
                stations :=
                  (s.putStation n { s.station n with policySelect := if v = 0 then .a else .b }).stations }) ∧
        (∀ (g : FlowNo) (v : Nat), k = .flow → g.val = i → vs = [(5, v)] →
          t = { s.managed t with
                flows :=
                  (s.putFlow g
                    (if (s.flow g).rate = 0 ∧ v ≠ 0 then
                      { s.flow g with
                        rate := v, credit := some (s.flow g).depth, residue := 0, fillAnchor := none }
                    else if (s.flow g).rate ≠ 0 ∧ v = 0 then
                      { s.flow g with rate := 0, credit := none, residue := 0, fillAnchor := none }
                    else { s.flow g with rate := v })).flows }) ∧
        (∀ (g : FlowNo) (v : Nat), k = .flow → g.val = i → vs = [(6, v)] →
          t = { s.managed t with
                flows :=
                  (s.putFlow g
                    { s.flow g with
                      depth := v, credit := (s.flow g).credit.map (fun x => min v x) }).flows }) ∧
        (∀ (g : FlowNo) (v w : Nat), k = .flow → g.val = i → vs = [(5, v), (6, w)] → (s.flow g).rate = 0 → v ≠ 0 →
          t = { s.managed t with
                flows :=
                  (s.putFlow g
                    { s.flow g with
                      rate := v, depth := w, credit := some w, residue := 0, fillAnchor := none }).flows }) ∧
        (∀ (c : ClassNo) (a b g h e : Nat), k = .policyB → c.val = i →
          vs = [(0, a), (1, b), (2, g), (3, h), (4, e)] →
          t = { s.managed t with
                policyB :=
                  vput s.policyB c
                    { priority := Fin.ofNat 8 a, weight := b, maxTurn := g, minTurn := h
                      holdsEnabled := decide (e = 0) } }) ∧
        (∀ (c : ClassNo) (v : Nat), k = .policyA → c.val = i → vs = [(1, v)] →
          t = { s.managed t with
                policyA := vput s.policyA c { s.policyClass .a c with weight := v } }) ∧
        (∀ (c : ChanNo) (v : Nat), k = .channelPending → c.val = i → vs = [(0, v)] →
          t = { s.managed t with
                channels :=
                  (s.putContext c
                    { s.context c with
                      pendingPage :=
                        { (s.context c).pendingPage with
                          params := { (s.context c).pendingPage.params with beatLength := v } } }).channels }) ∧
        (∀ (g : FlowNo) (a b d e h p : Nat), k = .flow → g.val = i →
          vs = [(3, a), (4, b), (14, d), (15, e), (16, h), (17, p)] →
          t = { s.managed t with
                flows :=
                  (s.putFlow g
                    { s.flow g with
                      kind := if a = 0 then .elastic else .periodic, cls := Fin.ofNat 8 b, turnBeats := d
                      period := e, jitter := h, phase := p }).flows }) ∧
        (∀ (c : ChanNo) (v : Fin 29 → Nat), k = .channelPending → c.val = i →
          vs = (List.finRange 29).map (fun j => (j.val, v j)) →
          t = { s.managed t with
                channels :=
                  (s.putContext c
                    { s.context c with
                      pendingPage :=
                        { params :=
                            { beatLength := v 0, planLength := v 1, lead := v 2, settle := v 3, flightMargin := v 4
                              sourceMode := if v 5 = 0 then .automatic else .directed, quantum := v 6, maxBurst := v 7
                              requestLength := v 8, joinLength := v 9, joinCadence := v 10, pollLength := v 11
                              pollLimit := v 12, maintenancePeriod := v 13, missLimit := v 14, nmin := v 15
                              nmax := v 16, backoffFloor := v 17, backoffCeiling := v 18, timingTolerance := v 19
                              powerTolerance := v 20, maxPowerStep := v 21 }
                          profile :=
                            { symbolsPerBeat := v 22, bitsPerSymbol := v 23, infoBytes := v 24, parityBytes := v 25
                              shortenedAllowed := decide (v 26 = 0), preambleSymbols := v 27
                              guardSymbols := v 28 } } }).channels }) ∧
        (∀ (n : NoticeKind) (v : Nat), k = .device → vs = [(n.index.val, v)] →
          t = { s.managed t with
                noticeEnable := vput s.noticeEnable n.index (decide (v = 0))
                notices := if v = 0 then s.notices else vput s.notices n.index none }) ∧
        (vs = [] →
          (∀ n, t.station n = s.station n) ∧ (∀ g, t.flow g = s.flow g) ∧
          t = { s.managed t with stations := t.stations, flows := t.flows }))

/-- R158, R161, R35, R45: the check of FILL, in its order, starts the walk or refuses it; FILL_RECORD writes the record it reaches, or
skips it where its state forbids the write, and with the last record answers DONE with WRITTEN and SKIPPED. A FREE
station is skipped whatever the MASK names. A MASK bit past the last field is answered BAD-FIELD (MODEL, assumption 11), and a
TABLE that names none of the nine BAD-TABLE, whatever follows it (MODEL, assumption 25). -/
def Obligations.FillWritesRecordByRecord : Prop :=
  (∀ (s : State) (f : RawFrame) (q : List RawFrame), s.NamesNoTable f q 16 →
    ∃ t, exec .fill s = .next t ∧ s.Answers t f q .badTable [] ∧ t = s.managed t) ∧
  (∀ (s : State) (f : RawFrame) (q : List RawFrame) (k : TableId) (i n : Nat) (vs : List (Nat × Nat)),
    s.Executes f q (.fill k i n vs) →
    ∃ (t : State) (code : Code), exec .fill s = .next t ∧
      code =
        (if k = .channelActive ∨ k = .identity ∨ k = .stray ∨ k = .device then .badTable
        else if k.size ≤ i then .badIndex
        else if n < 1 then .badValue
        else if k.size < i + n then .badIndex
        else if ¬ (∀ v ∈ vs, ((k.fields[v.1]?).bind (fun x => x.range)).isSome = true) then .badField
        else if ¬ (∀ v ∈ vs,
            (((k.fields[v.1]?).bind (fun x => x.range)).map (fun r => decide (r.1 ≤ v.2 ∧ v.2 ≤ r.2))).getD
              true = true) then .badValue
        else .done) ∧
      (code ≠ .done → s.Answers t f q code [] ∧ t = s.managed t) ∧
      (code = .done →
        t = { s with
              controlQueue := q, deviceCounters := (s.countDevice .framesTaken 1).deviceCounters
              execution :=
                some
                  (.filling
                    { tag := f.tag, table := k, next := i, remaining := n, writes := vs, written := 0
                      skipped := 0 }) })) ∧
  ∀ (s : State) (j : FillJob), s.Quiet → s.execution = some (.filling j) →
    ∃ (t u : State) (w x : Nat), exec .fillRecord s = .next t ∧
      ((j.table = .station ∧ (s.station (Fin.ofNat 8192 j.next)).state = .free) ∨
          (j.table = .flow ∧ (∃ v ∈ j.writes, v.1 ∈ [3, 14, 15, 16, 17]) ∧
            (s.flow (Fin.ofNat 16384 j.next)).state = .active) →
        w = j.written ∧ x = j.skipped + 1 ∧ u = s) ∧
      (¬ ((j.table = .station ∧ (s.station (Fin.ofNat 8192 j.next)).state = .free) ∨
          (j.table = .flow ∧ (∃ v ∈ j.writes, v.1 ∈ [3, 14, 15, 16, 17]) ∧
            (s.flow (Fin.ofNat 16384 j.next)).state = .active)) →
        w = j.written + 1 ∧ x = j.skipped ∧ u = s.writeRecord j.table j.next j.writes) ∧
      (1 < j.remaining →
        t = { u with
              execution :=
                some
                  (.filling
                    { j with next := j.next + 1, remaining := j.remaining - 1, written := w, skipped := x }) }) ∧
      (j.remaining ≤ 1 →
        t = { u with
              execution := none
              responseQueue :=
                s.responseQueue ++
                  [{ tag := j.tag, operation := 16#8, code := .done, results := be 2 w ++ be 2 x }]
              inboundHold := s.inboundHold || decide (30 ≤ s.responseQueue.length + 1) })

/-- R164, R163: COUNTERS returns every counter of the set, 4 bytes each in the set's order, and clears the set when it is
told to. FRAMES TAKEN has by then counted the COUNTERS itself. -/
def Obligations.CountersReturnsAndClears : Prop :=
  ∀ (s : State) (f : RawFrame) (q : List RawFrame) (i x : Nat), s.Executes f q (.counters i x) →
    ∃ t, exec .counters s = .next t ∧
      (8 < i → s.Answers t f q .badIndex [] ∧ t = s.managed t) ∧
      (i ≤ 8 → 1 < x → s.Answers t f q .badValue [] ∧ t = s.managed t) ∧
      (∀ c : ChanNo, c.val = i → x ≤ 1 →
        s.Answers t f q .done ((vget s.channelCounters c).toList.flatMap (fun n => be 4 n)) ∧
        t = { s.managed t with
              channelCounters :=
                if x = 1 then vput s.channelCounters c (Vector.replicate 48 0) else s.channelCounters }) ∧
      (i = 8 → x ≤ 1 →
        t = s.managed t ∧ t.controlQueue = q ∧
        t.responseQueue =
          s.responseQueue ++
            [State.responseTo f .done
              ((s.countDevice .framesTaken 1).deviceCounters.toList.flatMap (fun n => be 4 n))] ∧
        t.deviceCounters =
          (if x = 1 then Vector.replicate 11 0 else (s.countDevice .framesTaken 1).deviceCounters))

/-- R169, R2: CLEAR gives every block its value for CLEAR and keeps both pages and PROFILE NUMBER of each channel, the
policy tables, the notice enables, LAST REFERENCE, the links, the control queue behind it and the response queue, which its
own DONE joins; every counter is then 0. MODEL: that a reference count has been seen is kept (assumption 26), and the fields
that are not the manual's own: the waiting commands (1), the logs of frames sent (8), the frame that may still arrive (9) and the
count of free draws (3). -/
def Obligations.ClearKeepsTheConfiguration : Prop :=
  ∀ (s : State) (f : RawFrame) (q : List RawFrame), s.Executes f q .clear →
    ∃ t, exec .clear s = .next t ∧
      (∀ c, t.context c =
        { ChannelContext.reset with
          profileNumber := (s.context c).profileNumber, activePage := (s.context c).activePage
          pendingPage := (s.context c).pendingPage }) ∧
      t = { State.reset with
            pending := s.pending, lastReference := s.lastReference, referenceSeen := s.referenceSeen
            channels := t.channels, policyA := s.policyA, policyB := s.policyB, noticeEnable := s.noticeEnable
            planLinkHold := s.planLinkHold, planLink := s.planLink, systemLink := s.systemLink
            controlQueue := q
            responseQueue := s.responseQueue ++ [State.responseTo f .done []]
            inboundHold := decide (30 ≤ s.responseQueue.length + 1), heldArrival := s.heldArrival
            freeDraws := s.freeDraws }

/-! ## Headline results -/

/-- R17, R18: capacity(G) is the largest payload whose burst fits in G beats, and beats(L) never decreases. -/
def Obligations.CapacityIsTheLargestPayloadThatFits : Prop :=
  ∀ (p : Profile) (g : Nat), 1 ≤ p.symbolsPerBeat → 1 ≤ p.bitsPerSymbol → 1 ≤ p.infoBytes → 1 ≤ g →
    capacity p g ≤ 1048575 ∧
    (∀ l, l ≤ 1048575 → (burstBeats p l ≤ g ↔ l ≤ capacity p g)) ∧
    ∀ l m, l ≤ m → burstBeats p l ≤ burstBeats p m

/-- R1, R12, R13, R14, R7, R60, R61, R63, R66: a step keeps every channel context lawful: DRAIN MARK is NONE except in DRAINING, and a STOPPED
channel holds no armed profile and reaches no beats. It keeps the builds lawful: at most one request of a channel waits, BUILD
CONDITION is QUEUED or UNDER BUILD exactly while a request waits or the engine builds, only for a channel with builds to come,
and no plan holds more than 240 elements, twice its free spans counted while it is built. -/
def Obligations.EveryStepKeepsChannelsLawful : Prop :=
  ∀ s t : State, step s = .next t →
    (s.ChannelsLawful → t.ChannelsLawful) ∧ (s.BuildsLawful → t.BuildsLawful)

/-- R154, R155: a step keeps room for every response: the control queue holds at most 16 frames and the response queue at
most 32 responses, counting the response of the execution under way and the one frame that may still arrive. -/
def Obligations.EveryStepKeepsRoomForResponses : Prop :=
  ∀ s t : State, s.QueuesHaveRoom → step s = .next t → t.QueuesHaveRoom ∧ t.responseQueue.length ≤ 32

/-- R163, R150, R152, R108, R165, R53, R84, R22, R23, R30, R56, R110: a step keeps every counter within 32 bits, and the stray ring, the forward buffer, the
adjust queue, the poll queues and the counts of the pending notices within their capacities. The station and flow tables
stay in the model's canonical form. It keeps BACKLOG, CREDIT, DEFICIT and EXTRAS OWED of every flow, and the calendars, within
their bounds; and the laws of the records: the free list and the identity map hold the FREE numbers and the hardware IDs of the
others; FLOW LISTs hold the flows bound; poll queues hold the stations with IN POLL QUEUE yes; a flow is enlisted exactly when the
enlistment law says, and stands in one list, once; a calendar holds ACTIVE PERIODIC flows of stations ONLINE on its channel. -/
def Obligations.EveryStepKeepsBounds : Prop :=
  ∀ s t : State, step s = .next t →
    (s.CountersBounded → t.CountersBounded) ∧ (s.CollectionsBounded → t.CollectionsBounded) ∧
    (s.TablesInForm → t.TablesInForm) ∧ (s.FlowsBounded → t.FlowsBounded) ∧
    (s.TablesInForm → s.RecordsLawful → t.RecordsLawful)

/-- The invariants hold of the part as a reset leaves it. -/
def Obligations.InvariantsHoldAtReset : Prop :=
  State.reset.ChannelsLawful ∧ State.reset.QueuesHaveRoom ∧ State.reset.CountersBounded ∧
  State.reset.CollectionsBounded ∧ State.reset.TablesInForm ∧ State.reset.FlowsBounded ∧ State.reset.BuildsLawful ∧
  State.reset.RecordsLawful ∧ State.reset.Quiet ∧ State.reset.BuildSettled
end

