-- ==== Sys2Proof/Laws/State.lean ====
section
/-! SUPPORT. One lemma for each field after each update of Machine/Ops.lean, and for each accessor an update leaves alone.
The lemmas say what an update does not change, and, for an update that replaces a whole field, what the field holds. -/

namespace Sys2Proof.Machine.State

/-! ### putContext -/

@[simp] theorem putContext_pending (s : State) (c : ChanNo) (x : ChannelContext) : (s.putContext c x).pending = s.pending := rfl
@[simp] theorem putContext_lastReference (s : State) (c : ChanNo) (x : ChannelContext) : (s.putContext c x).lastReference = s.lastReference := rfl
@[simp] theorem putContext_referenceSeen (s : State) (c : ChanNo) (x : ChannelContext) : (s.putContext c x).referenceSeen = s.referenceSeen := rfl
@[simp] theorem putContext_stations (s : State) (c : ChanNo) (x : ChannelContext) : (s.putContext c x).stations = s.stations := rfl
@[simp] theorem putContext_freeList (s : State) (c : ChanNo) (x : ChannelContext) : (s.putContext c x).freeList = s.freeList := rfl
@[simp] theorem putContext_identity (s : State) (c : ChanNo) (x : ChannelContext) : (s.putContext c x).identity = s.identity := rfl
@[simp] theorem putContext_flows (s : State) (c : ChanNo) (x : ChannelContext) : (s.putContext c x).flows = s.flows := rfl
@[simp] theorem putContext_policyA (s : State) (c : ChanNo) (x : ChannelContext) : (s.putContext c x).policyA = s.policyA := rfl
@[simp] theorem putContext_policyB (s : State) (c : ChanNo) (x : ChannelContext) : (s.putContext c x).policyB = s.policyB := rfl
@[simp] theorem putContext_requestMarks (s : State) (c : ChanNo) (x : ChannelContext) : (s.putContext c x).requestMarks = s.requestMarks := rfl
@[simp] theorem putContext_activeLists (s : State) (c : ChanNo) (x : ChannelContext) : (s.putContext c x).activeLists = s.activeLists := rfl
@[simp] theorem putContext_calendars (s : State) (c : ChanNo) (x : ChannelContext) : (s.putContext c x).calendars = s.calendars := rfl
@[simp] theorem putContext_contention (s : State) (c : ChanNo) (x : ChannelContext) : (s.putContext c x).contention = s.contention := rfl
@[simp] theorem putContext_pollQueues (s : State) (c : ChanNo) (x : ChannelContext) : (s.putContext c x).pollQueues = s.pollQueues := rfl
@[simp] theorem putContext_sweepPointers (s : State) (c : ChanNo) (x : ChannelContext) : (s.putContext c x).sweepPointers = s.sweepPointers := rfl
@[simp] theorem putContext_adjustQueue (s : State) (c : ChanNo) (x : ChannelContext) : (s.putContext c x).adjustQueue = s.adjustQueue := rfl
@[simp] theorem putContext_engine (s : State) (c : ChanNo) (x : ChannelContext) : (s.putContext c x).engine = s.engine := rfl
@[simp] theorem putContext_buildConditions (s : State) (c : ChanNo) (x : ChannelContext) : (s.putContext c x).buildConditions = s.buildConditions := rfl
@[simp] theorem putContext_buildQueue (s : State) (c : ChanNo) (x : ChannelContext) : (s.putContext c x).buildQueue = s.buildQueue := rfl
@[simp] theorem putContext_planStores (s : State) (c : ChanNo) (x : ChannelContext) : (s.putContext c x).planStores = s.planStores := rfl
@[simp] theorem putContext_planLinkHold (s : State) (c : ChanNo) (x : ChannelContext) : (s.putContext c x).planLinkHold = s.planLinkHold := rfl
@[simp] theorem putContext_planLink (s : State) (c : ChanNo) (x : ChannelContext) : (s.putContext c x).planLink = s.planLink := rfl
@[simp] theorem putContext_expectQueues (s : State) (c : ChanNo) (x : ChannelContext) : (s.putContext c x).expectQueues = s.expectQueues := rfl
@[simp] theorem putContext_strayRing (s : State) (c : ChanNo) (x : ChannelContext) : (s.putContext c x).strayRing = s.strayRing := rfl
@[simp] theorem putContext_overwrites (s : State) (c : ChanNo) (x : ChannelContext) : (s.putContext c x).overwrites = s.overwrites := rfl
@[simp] theorem putContext_forwardBuffer (s : State) (c : ChanNo) (x : ChannelContext) : (s.putContext c x).forwardBuffer = s.forwardBuffer := rfl
@[simp] theorem putContext_systemLink (s : State) (c : ChanNo) (x : ChannelContext) : (s.putContext c x).systemLink = s.systemLink := rfl
@[simp] theorem putContext_controlQueue (s : State) (c : ChanNo) (x : ChannelContext) : (s.putContext c x).controlQueue = s.controlQueue := rfl
@[simp] theorem putContext_inboundHold (s : State) (c : ChanNo) (x : ChannelContext) : (s.putContext c x).inboundHold = s.inboundHold := rfl
@[simp] theorem putContext_heldArrival (s : State) (c : ChanNo) (x : ChannelContext) : (s.putContext c x).heldArrival = s.heldArrival := rfl
@[simp] theorem putContext_execution (s : State) (c : ChanNo) (x : ChannelContext) : (s.putContext c x).execution = s.execution := rfl
@[simp] theorem putContext_responseQueue (s : State) (c : ChanNo) (x : ChannelContext) : (s.putContext c x).responseQueue = s.responseQueue := rfl
@[simp] theorem putContext_channelCounters (s : State) (c : ChanNo) (x : ChannelContext) : (s.putContext c x).channelCounters = s.channelCounters := rfl
@[simp] theorem putContext_deviceCounters (s : State) (c : ChanNo) (x : ChannelContext) : (s.putContext c x).deviceCounters = s.deviceCounters := rfl
@[simp] theorem putContext_noticeEnable (s : State) (c : ChanNo) (x : ChannelContext) : (s.putContext c x).noticeEnable = s.noticeEnable := rfl
@[simp] theorem putContext_notices (s : State) (c : ChanNo) (x : ChannelContext) : (s.putContext c x).notices = s.notices := rfl
@[simp] theorem putContext_freeDraws (s : State) (c : ChanNo) (x : ChannelContext) : (s.putContext c x).freeDraws = s.freeDraws := rfl
@[simp] theorem putContext_station (s : State) (c : ChanNo) (x : ChannelContext) (n' : StationNo) : (s.putContext c x).station n' = s.station n' := rfl
@[simp] theorem putContext_flow (s : State) (c : ChanNo) (x : ChannelContext) (f' : FlowNo) : (s.putContext c x).flow f' = s.flow f' := rfl
@[simp] theorem putContext_policyClass (s : State) (c : ChanNo) (x : ChannelContext) (p' : PolicySelect) (j : ClassNo) : (s.putContext c x).policyClass p' j = s.policyClass p' j := rfl
@[simp] theorem putContext_active (s : State) (c : ChanNo) (x : ChannelContext) (d' : ChanNo) (l' : Level) : (s.putContext c x).active d' l' = s.active d' l' := rfl
@[simp] theorem putContext_calendar (s : State) (c : ChanNo) (x : ChannelContext) (d' : ChanNo) : (s.putContext c x).calendar d' = s.calendar d' := rfl
@[simp] theorem putContext_contentionOf (s : State) (c : ChanNo) (x : ChannelContext) (d' : ChanNo) : (s.putContext c x).contentionOf d' = s.contentionOf d' := rfl
@[simp] theorem putContext_pollQueue (s : State) (c : ChanNo) (x : ChannelContext) (d' : ChanNo) : (s.putContext c x).pollQueue d' = s.pollQueue d' := rfl
@[simp] theorem putContext_sweepPointer (s : State) (c : ChanNo) (x : ChannelContext) (d' : ChanNo) : (s.putContext c x).sweepPointer d' = s.sweepPointer d' := rfl
@[simp] theorem putContext_buildCondition (s : State) (c : ChanNo) (x : ChannelContext) (d' : ChanNo) : (s.putContext c x).buildCondition d' = s.buildCondition d' := rfl
@[simp] theorem putContext_planStore (s : State) (c : ChanNo) (x : ChannelContext) (d' : ChanNo) : (s.putContext c x).planStore d' = s.planStore d' := rfl
@[simp] theorem putContext_expectQueue (s : State) (c : ChanNo) (x : ChannelContext) (d' : ChanNo) : (s.putContext c x).expectQueue d' = s.expectQueue d' := rfl
@[simp] theorem putContext_counter (s : State) (c : ChanNo) (x : ChannelContext) (d' : ChanNo) (j : ChannelCounter) : (s.putContext c x).counter d' j = s.counter d' j := rfl
@[simp] theorem putContext_deviceCounter (s : State) (c : ChanNo) (x : ChannelContext) (j : DeviceCounter) : (s.putContext c x).deviceCounter j = s.deviceCounter j := rfl
@[simp] theorem putContext_notice (s : State) (c : ChanNo) (x : ChannelContext) (j : NoticeKind) : (s.putContext c x).notice j = s.notice j := rfl
@[simp] theorem putContext_lookupIdentity (s : State) (c : ChanNo) (x : ChannelContext) (h' : HwId) : (s.putContext c x).lookupIdentity h' = s.lookupIdentity h' := rfl

/-! ### putStation -/

@[simp] theorem putStation_pending (s : State) (n : StationNo) (x : Station) : (s.putStation n x).pending = s.pending := rfl
@[simp] theorem putStation_lastReference (s : State) (n : StationNo) (x : Station) : (s.putStation n x).lastReference = s.lastReference := rfl
@[simp] theorem putStation_referenceSeen (s : State) (n : StationNo) (x : Station) : (s.putStation n x).referenceSeen = s.referenceSeen := rfl
@[simp] theorem putStation_channels (s : State) (n : StationNo) (x : Station) : (s.putStation n x).channels = s.channels := rfl
@[simp] theorem putStation_freeList (s : State) (n : StationNo) (x : Station) : (s.putStation n x).freeList = s.freeList := rfl
@[simp] theorem putStation_identity (s : State) (n : StationNo) (x : Station) : (s.putStation n x).identity = s.identity := rfl
@[simp] theorem putStation_flows (s : State) (n : StationNo) (x : Station) : (s.putStation n x).flows = s.flows := rfl
@[simp] theorem putStation_policyA (s : State) (n : StationNo) (x : Station) : (s.putStation n x).policyA = s.policyA := rfl
@[simp] theorem putStation_policyB (s : State) (n : StationNo) (x : Station) : (s.putStation n x).policyB = s.policyB := rfl
@[simp] theorem putStation_requestMarks (s : State) (n : StationNo) (x : Station) : (s.putStation n x).requestMarks = s.requestMarks := rfl
@[simp] theorem putStation_activeLists (s : State) (n : StationNo) (x : Station) : (s.putStation n x).activeLists = s.activeLists := rfl
@[simp] theorem putStation_calendars (s : State) (n : StationNo) (x : Station) : (s.putStation n x).calendars = s.calendars := rfl
@[simp] theorem putStation_contention (s : State) (n : StationNo) (x : Station) : (s.putStation n x).contention = s.contention := rfl
@[simp] theorem putStation_pollQueues (s : State) (n : StationNo) (x : Station) : (s.putStation n x).pollQueues = s.pollQueues := rfl
@[simp] theorem putStation_sweepPointers (s : State) (n : StationNo) (x : Station) : (s.putStation n x).sweepPointers = s.sweepPointers := rfl
@[simp] theorem putStation_adjustQueue (s : State) (n : StationNo) (x : Station) : (s.putStation n x).adjustQueue = s.adjustQueue := rfl
@[simp] theorem putStation_engine (s : State) (n : StationNo) (x : Station) : (s.putStation n x).engine = s.engine := rfl
@[simp] theorem putStation_buildConditions (s : State) (n : StationNo) (x : Station) : (s.putStation n x).buildConditions = s.buildConditions := rfl
@[simp] theorem putStation_buildQueue (s : State) (n : StationNo) (x : Station) : (s.putStation n x).buildQueue = s.buildQueue := rfl
@[simp] theorem putStation_planStores (s : State) (n : StationNo) (x : Station) : (s.putStation n x).planStores = s.planStores := rfl
@[simp] theorem putStation_planLinkHold (s : State) (n : StationNo) (x : Station) : (s.putStation n x).planLinkHold = s.planLinkHold := rfl
@[simp] theorem putStation_planLink (s : State) (n : StationNo) (x : Station) : (s.putStation n x).planLink = s.planLink := rfl
@[simp] theorem putStation_expectQueues (s : State) (n : StationNo) (x : Station) : (s.putStation n x).expectQueues = s.expectQueues := rfl
@[simp] theorem putStation_strayRing (s : State) (n : StationNo) (x : Station) : (s.putStation n x).strayRing = s.strayRing := rfl
@[simp] theorem putStation_overwrites (s : State) (n : StationNo) (x : Station) : (s.putStation n x).overwrites = s.overwrites := rfl
@[simp] theorem putStation_forwardBuffer (s : State) (n : StationNo) (x : Station) : (s.putStation n x).forwardBuffer = s.forwardBuffer := rfl
@[simp] theorem putStation_systemLink (s : State) (n : StationNo) (x : Station) : (s.putStation n x).systemLink = s.systemLink := rfl
@[simp] theorem putStation_controlQueue (s : State) (n : StationNo) (x : Station) : (s.putStation n x).controlQueue = s.controlQueue := rfl
@[simp] theorem putStation_inboundHold (s : State) (n : StationNo) (x : Station) : (s.putStation n x).inboundHold = s.inboundHold := rfl
@[simp] theorem putStation_heldArrival (s : State) (n : StationNo) (x : Station) : (s.putStation n x).heldArrival = s.heldArrival := rfl
@[simp] theorem putStation_execution (s : State) (n : StationNo) (x : Station) : (s.putStation n x).execution = s.execution := rfl
@[simp] theorem putStation_responseQueue (s : State) (n : StationNo) (x : Station) : (s.putStation n x).responseQueue = s.responseQueue := rfl
@[simp] theorem putStation_channelCounters (s : State) (n : StationNo) (x : Station) : (s.putStation n x).channelCounters = s.channelCounters := rfl
@[simp] theorem putStation_deviceCounters (s : State) (n : StationNo) (x : Station) : (s.putStation n x).deviceCounters = s.deviceCounters := rfl
@[simp] theorem putStation_noticeEnable (s : State) (n : StationNo) (x : Station) : (s.putStation n x).noticeEnable = s.noticeEnable := rfl
@[simp] theorem putStation_notices (s : State) (n : StationNo) (x : Station) : (s.putStation n x).notices = s.notices := rfl
@[simp] theorem putStation_freeDraws (s : State) (n : StationNo) (x : Station) : (s.putStation n x).freeDraws = s.freeDraws := rfl
@[simp] theorem putStation_context (s : State) (n : StationNo) (x : Station) (d' : ChanNo) : (s.putStation n x).context d' = s.context d' := rfl
@[simp] theorem putStation_params (s : State) (n : StationNo) (x : Station) (d' : ChanNo) : (s.putStation n x).params d' = s.params d' := rfl
@[simp] theorem putStation_profile (s : State) (n : StationNo) (x : Station) (d' : ChanNo) : (s.putStation n x).profile d' = s.profile d' := rfl
@[simp] theorem putStation_flow (s : State) (n : StationNo) (x : Station) (f' : FlowNo) : (s.putStation n x).flow f' = s.flow f' := rfl
@[simp] theorem putStation_policyClass (s : State) (n : StationNo) (x : Station) (p' : PolicySelect) (j : ClassNo) : (s.putStation n x).policyClass p' j = s.policyClass p' j := rfl
@[simp] theorem putStation_active (s : State) (n : StationNo) (x : Station) (d' : ChanNo) (l' : Level) : (s.putStation n x).active d' l' = s.active d' l' := rfl
@[simp] theorem putStation_calendar (s : State) (n : StationNo) (x : Station) (d' : ChanNo) : (s.putStation n x).calendar d' = s.calendar d' := rfl
@[simp] theorem putStation_contentionOf (s : State) (n : StationNo) (x : Station) (d' : ChanNo) : (s.putStation n x).contentionOf d' = s.contentionOf d' := rfl
@[simp] theorem putStation_pollQueue (s : State) (n : StationNo) (x : Station) (d' : ChanNo) : (s.putStation n x).pollQueue d' = s.pollQueue d' := rfl
@[simp] theorem putStation_sweepPointer (s : State) (n : StationNo) (x : Station) (d' : ChanNo) : (s.putStation n x).sweepPointer d' = s.sweepPointer d' := rfl
@[simp] theorem putStation_buildCondition (s : State) (n : StationNo) (x : Station) (d' : ChanNo) : (s.putStation n x).buildCondition d' = s.buildCondition d' := rfl
@[simp] theorem putStation_planStore (s : State) (n : StationNo) (x : Station) (d' : ChanNo) : (s.putStation n x).planStore d' = s.planStore d' := rfl
@[simp] theorem putStation_expectQueue (s : State) (n : StationNo) (x : Station) (d' : ChanNo) : (s.putStation n x).expectQueue d' = s.expectQueue d' := rfl
@[simp] theorem putStation_counter (s : State) (n : StationNo) (x : Station) (d' : ChanNo) (j : ChannelCounter) : (s.putStation n x).counter d' j = s.counter d' j := rfl
@[simp] theorem putStation_deviceCounter (s : State) (n : StationNo) (x : Station) (j : DeviceCounter) : (s.putStation n x).deviceCounter j = s.deviceCounter j := rfl
@[simp] theorem putStation_notice (s : State) (n : StationNo) (x : Station) (j : NoticeKind) : (s.putStation n x).notice j = s.notice j := rfl
@[simp] theorem putStation_lookupIdentity (s : State) (n : StationNo) (x : Station) (h' : HwId) : (s.putStation n x).lookupIdentity h' = s.lookupIdentity h' := rfl

/-! ### putFreeList -/

@[simp] theorem putFreeList_pending (s : State) (q : List StationNo) : (s.putFreeList q).pending = s.pending := rfl
@[simp] theorem putFreeList_lastReference (s : State) (q : List StationNo) : (s.putFreeList q).lastReference = s.lastReference := rfl
@[simp] theorem putFreeList_referenceSeen (s : State) (q : List StationNo) : (s.putFreeList q).referenceSeen = s.referenceSeen := rfl
@[simp] theorem putFreeList_channels (s : State) (q : List StationNo) : (s.putFreeList q).channels = s.channels := rfl
@[simp] theorem putFreeList_stations (s : State) (q : List StationNo) : (s.putFreeList q).stations = s.stations := rfl
@[simp] theorem putFreeList_identity (s : State) (q : List StationNo) : (s.putFreeList q).identity = s.identity := rfl
@[simp] theorem putFreeList_flows (s : State) (q : List StationNo) : (s.putFreeList q).flows = s.flows := rfl
@[simp] theorem putFreeList_policyA (s : State) (q : List StationNo) : (s.putFreeList q).policyA = s.policyA := rfl
@[simp] theorem putFreeList_policyB (s : State) (q : List StationNo) : (s.putFreeList q).policyB = s.policyB := rfl
@[simp] theorem putFreeList_requestMarks (s : State) (q : List StationNo) : (s.putFreeList q).requestMarks = s.requestMarks := rfl
@[simp] theorem putFreeList_activeLists (s : State) (q : List StationNo) : (s.putFreeList q).activeLists = s.activeLists := rfl
@[simp] theorem putFreeList_calendars (s : State) (q : List StationNo) : (s.putFreeList q).calendars = s.calendars := rfl
@[simp] theorem putFreeList_contention (s : State) (q : List StationNo) : (s.putFreeList q).contention = s.contention := rfl
@[simp] theorem putFreeList_pollQueues (s : State) (q : List StationNo) : (s.putFreeList q).pollQueues = s.pollQueues := rfl
@[simp] theorem putFreeList_sweepPointers (s : State) (q : List StationNo) : (s.putFreeList q).sweepPointers = s.sweepPointers := rfl
@[simp] theorem putFreeList_adjustQueue (s : State) (q : List StationNo) : (s.putFreeList q).adjustQueue = s.adjustQueue := rfl
@[simp] theorem putFreeList_engine (s : State) (q : List StationNo) : (s.putFreeList q).engine = s.engine := rfl
@[simp] theorem putFreeList_buildConditions (s : State) (q : List StationNo) : (s.putFreeList q).buildConditions = s.buildConditions := rfl
@[simp] theorem putFreeList_buildQueue (s : State) (q : List StationNo) : (s.putFreeList q).buildQueue = s.buildQueue := rfl
@[simp] theorem putFreeList_planStores (s : State) (q : List StationNo) : (s.putFreeList q).planStores = s.planStores := rfl
@[simp] theorem putFreeList_planLinkHold (s : State) (q : List StationNo) : (s.putFreeList q).planLinkHold = s.planLinkHold := rfl
@[simp] theorem putFreeList_planLink (s : State) (q : List StationNo) : (s.putFreeList q).planLink = s.planLink := rfl
@[simp] theorem putFreeList_expectQueues (s : State) (q : List StationNo) : (s.putFreeList q).expectQueues = s.expectQueues := rfl
@[simp] theorem putFreeList_strayRing (s : State) (q : List StationNo) : (s.putFreeList q).strayRing = s.strayRing := rfl
@[simp] theorem putFreeList_overwrites (s : State) (q : List StationNo) : (s.putFreeList q).overwrites = s.overwrites := rfl
@[simp] theorem putFreeList_forwardBuffer (s : State) (q : List StationNo) : (s.putFreeList q).forwardBuffer = s.forwardBuffer := rfl
@[simp] theorem putFreeList_systemLink (s : State) (q : List StationNo) : (s.putFreeList q).systemLink = s.systemLink := rfl
@[simp] theorem putFreeList_controlQueue (s : State) (q : List StationNo) : (s.putFreeList q).controlQueue = s.controlQueue := rfl
@[simp] theorem putFreeList_inboundHold (s : State) (q : List StationNo) : (s.putFreeList q).inboundHold = s.inboundHold := rfl
@[simp] theorem putFreeList_heldArrival (s : State) (q : List StationNo) : (s.putFreeList q).heldArrival = s.heldArrival := rfl
@[simp] theorem putFreeList_execution (s : State) (q : List StationNo) : (s.putFreeList q).execution = s.execution := rfl
@[simp] theorem putFreeList_responseQueue (s : State) (q : List StationNo) : (s.putFreeList q).responseQueue = s.responseQueue := rfl
@[simp] theorem putFreeList_channelCounters (s : State) (q : List StationNo) : (s.putFreeList q).channelCounters = s.channelCounters := rfl
@[simp] theorem putFreeList_deviceCounters (s : State) (q : List StationNo) : (s.putFreeList q).deviceCounters = s.deviceCounters := rfl
@[simp] theorem putFreeList_noticeEnable (s : State) (q : List StationNo) : (s.putFreeList q).noticeEnable = s.noticeEnable := rfl
@[simp] theorem putFreeList_notices (s : State) (q : List StationNo) : (s.putFreeList q).notices = s.notices := rfl
@[simp] theorem putFreeList_freeDraws (s : State) (q : List StationNo) : (s.putFreeList q).freeDraws = s.freeDraws := rfl
@[simp] theorem putFreeList_freeList (s : State) (q : List StationNo) : (s.putFreeList q).freeList = q := rfl
@[simp] theorem putFreeList_context (s : State) (q : List StationNo) (d' : ChanNo) : (s.putFreeList q).context d' = s.context d' := rfl
@[simp] theorem putFreeList_params (s : State) (q : List StationNo) (d' : ChanNo) : (s.putFreeList q).params d' = s.params d' := rfl
@[simp] theorem putFreeList_profile (s : State) (q : List StationNo) (d' : ChanNo) : (s.putFreeList q).profile d' = s.profile d' := rfl
@[simp] theorem putFreeList_station (s : State) (q : List StationNo) (n' : StationNo) : (s.putFreeList q).station n' = s.station n' := rfl
@[simp] theorem putFreeList_flow (s : State) (q : List StationNo) (f' : FlowNo) : (s.putFreeList q).flow f' = s.flow f' := rfl
@[simp] theorem putFreeList_policyClass (s : State) (q : List StationNo) (p' : PolicySelect) (j : ClassNo) : (s.putFreeList q).policyClass p' j = s.policyClass p' j := rfl
@[simp] theorem putFreeList_active (s : State) (q : List StationNo) (d' : ChanNo) (l' : Level) : (s.putFreeList q).active d' l' = s.active d' l' := rfl
@[simp] theorem putFreeList_calendar (s : State) (q : List StationNo) (d' : ChanNo) : (s.putFreeList q).calendar d' = s.calendar d' := rfl
@[simp] theorem putFreeList_contentionOf (s : State) (q : List StationNo) (d' : ChanNo) : (s.putFreeList q).contentionOf d' = s.contentionOf d' := rfl
@[simp] theorem putFreeList_pollQueue (s : State) (q : List StationNo) (d' : ChanNo) : (s.putFreeList q).pollQueue d' = s.pollQueue d' := rfl
@[simp] theorem putFreeList_sweepPointer (s : State) (q : List StationNo) (d' : ChanNo) : (s.putFreeList q).sweepPointer d' = s.sweepPointer d' := rfl
@[simp] theorem putFreeList_buildCondition (s : State) (q : List StationNo) (d' : ChanNo) : (s.putFreeList q).buildCondition d' = s.buildCondition d' := rfl
@[simp] theorem putFreeList_planStore (s : State) (q : List StationNo) (d' : ChanNo) : (s.putFreeList q).planStore d' = s.planStore d' := rfl
@[simp] theorem putFreeList_expectQueue (s : State) (q : List StationNo) (d' : ChanNo) : (s.putFreeList q).expectQueue d' = s.expectQueue d' := rfl
@[simp] theorem putFreeList_counter (s : State) (q : List StationNo) (d' : ChanNo) (j : ChannelCounter) : (s.putFreeList q).counter d' j = s.counter d' j := rfl
@[simp] theorem putFreeList_deviceCounter (s : State) (q : List StationNo) (j : DeviceCounter) : (s.putFreeList q).deviceCounter j = s.deviceCounter j := rfl
@[simp] theorem putFreeList_notice (s : State) (q : List StationNo) (j : NoticeKind) : (s.putFreeList q).notice j = s.notice j := rfl
@[simp] theorem putFreeList_lookupIdentity (s : State) (q : List StationNo) (h' : HwId) : (s.putFreeList q).lookupIdentity h' = s.lookupIdentity h' := rfl

/-! ### putIdentity -/

@[simp] theorem putIdentity_pending (s : State) (m : List (HwId × StationNo)) : (s.putIdentity m).pending = s.pending := rfl
@[simp] theorem putIdentity_lastReference (s : State) (m : List (HwId × StationNo)) : (s.putIdentity m).lastReference = s.lastReference := rfl
@[simp] theorem putIdentity_referenceSeen (s : State) (m : List (HwId × StationNo)) : (s.putIdentity m).referenceSeen = s.referenceSeen := rfl
@[simp] theorem putIdentity_channels (s : State) (m : List (HwId × StationNo)) : (s.putIdentity m).channels = s.channels := rfl
@[simp] theorem putIdentity_stations (s : State) (m : List (HwId × StationNo)) : (s.putIdentity m).stations = s.stations := rfl
@[simp] theorem putIdentity_freeList (s : State) (m : List (HwId × StationNo)) : (s.putIdentity m).freeList = s.freeList := rfl
@[simp] theorem putIdentity_flows (s : State) (m : List (HwId × StationNo)) : (s.putIdentity m).flows = s.flows := rfl
@[simp] theorem putIdentity_policyA (s : State) (m : List (HwId × StationNo)) : (s.putIdentity m).policyA = s.policyA := rfl
@[simp] theorem putIdentity_policyB (s : State) (m : List (HwId × StationNo)) : (s.putIdentity m).policyB = s.policyB := rfl
@[simp] theorem putIdentity_requestMarks (s : State) (m : List (HwId × StationNo)) : (s.putIdentity m).requestMarks = s.requestMarks := rfl
@[simp] theorem putIdentity_activeLists (s : State) (m : List (HwId × StationNo)) : (s.putIdentity m).activeLists = s.activeLists := rfl
@[simp] theorem putIdentity_calendars (s : State) (m : List (HwId × StationNo)) : (s.putIdentity m).calendars = s.calendars := rfl
@[simp] theorem putIdentity_contention (s : State) (m : List (HwId × StationNo)) : (s.putIdentity m).contention = s.contention := rfl
@[simp] theorem putIdentity_pollQueues (s : State) (m : List (HwId × StationNo)) : (s.putIdentity m).pollQueues = s.pollQueues := rfl
@[simp] theorem putIdentity_sweepPointers (s : State) (m : List (HwId × StationNo)) : (s.putIdentity m).sweepPointers = s.sweepPointers := rfl
@[simp] theorem putIdentity_adjustQueue (s : State) (m : List (HwId × StationNo)) : (s.putIdentity m).adjustQueue = s.adjustQueue := rfl
@[simp] theorem putIdentity_engine (s : State) (m : List (HwId × StationNo)) : (s.putIdentity m).engine = s.engine := rfl
@[simp] theorem putIdentity_buildConditions (s : State) (m : List (HwId × StationNo)) : (s.putIdentity m).buildConditions = s.buildConditions := rfl
@[simp] theorem putIdentity_buildQueue (s : State) (m : List (HwId × StationNo)) : (s.putIdentity m).buildQueue = s.buildQueue := rfl
@[simp] theorem putIdentity_planStores (s : State) (m : List (HwId × StationNo)) : (s.putIdentity m).planStores = s.planStores := rfl
@[simp] theorem putIdentity_planLinkHold (s : State) (m : List (HwId × StationNo)) : (s.putIdentity m).planLinkHold = s.planLinkHold := rfl
@[simp] theorem putIdentity_planLink (s : State) (m : List (HwId × StationNo)) : (s.putIdentity m).planLink = s.planLink := rfl
@[simp] theorem putIdentity_expectQueues (s : State) (m : List (HwId × StationNo)) : (s.putIdentity m).expectQueues = s.expectQueues := rfl
@[simp] theorem putIdentity_strayRing (s : State) (m : List (HwId × StationNo)) : (s.putIdentity m).strayRing = s.strayRing := rfl
@[simp] theorem putIdentity_overwrites (s : State) (m : List (HwId × StationNo)) : (s.putIdentity m).overwrites = s.overwrites := rfl
@[simp] theorem putIdentity_forwardBuffer (s : State) (m : List (HwId × StationNo)) : (s.putIdentity m).forwardBuffer = s.forwardBuffer := rfl
@[simp] theorem putIdentity_systemLink (s : State) (m : List (HwId × StationNo)) : (s.putIdentity m).systemLink = s.systemLink := rfl
@[simp] theorem putIdentity_controlQueue (s : State) (m : List (HwId × StationNo)) : (s.putIdentity m).controlQueue = s.controlQueue := rfl
@[simp] theorem putIdentity_inboundHold (s : State) (m : List (HwId × StationNo)) : (s.putIdentity m).inboundHold = s.inboundHold := rfl
@[simp] theorem putIdentity_heldArrival (s : State) (m : List (HwId × StationNo)) : (s.putIdentity m).heldArrival = s.heldArrival := rfl
@[simp] theorem putIdentity_execution (s : State) (m : List (HwId × StationNo)) : (s.putIdentity m).execution = s.execution := rfl
@[simp] theorem putIdentity_responseQueue (s : State) (m : List (HwId × StationNo)) : (s.putIdentity m).responseQueue = s.responseQueue := rfl
@[simp] theorem putIdentity_channelCounters (s : State) (m : List (HwId × StationNo)) : (s.putIdentity m).channelCounters = s.channelCounters := rfl
@[simp] theorem putIdentity_deviceCounters (s : State) (m : List (HwId × StationNo)) : (s.putIdentity m).deviceCounters = s.deviceCounters := rfl
@[simp] theorem putIdentity_noticeEnable (s : State) (m : List (HwId × StationNo)) : (s.putIdentity m).noticeEnable = s.noticeEnable := rfl
@[simp] theorem putIdentity_notices (s : State) (m : List (HwId × StationNo)) : (s.putIdentity m).notices = s.notices := rfl
@[simp] theorem putIdentity_freeDraws (s : State) (m : List (HwId × StationNo)) : (s.putIdentity m).freeDraws = s.freeDraws := rfl
@[simp] theorem putIdentity_identity (s : State) (m : List (HwId × StationNo)) : (s.putIdentity m).identity = m := rfl
@[simp] theorem putIdentity_context (s : State) (m : List (HwId × StationNo)) (d' : ChanNo) : (s.putIdentity m).context d' = s.context d' := rfl
@[simp] theorem putIdentity_params (s : State) (m : List (HwId × StationNo)) (d' : ChanNo) : (s.putIdentity m).params d' = s.params d' := rfl
@[simp] theorem putIdentity_profile (s : State) (m : List (HwId × StationNo)) (d' : ChanNo) : (s.putIdentity m).profile d' = s.profile d' := rfl
@[simp] theorem putIdentity_station (s : State) (m : List (HwId × StationNo)) (n' : StationNo) : (s.putIdentity m).station n' = s.station n' := rfl
@[simp] theorem putIdentity_flow (s : State) (m : List (HwId × StationNo)) (f' : FlowNo) : (s.putIdentity m).flow f' = s.flow f' := rfl
@[simp] theorem putIdentity_policyClass (s : State) (m : List (HwId × StationNo)) (p' : PolicySelect) (j : ClassNo) : (s.putIdentity m).policyClass p' j = s.policyClass p' j := rfl
@[simp] theorem putIdentity_active (s : State) (m : List (HwId × StationNo)) (d' : ChanNo) (l' : Level) : (s.putIdentity m).active d' l' = s.active d' l' := rfl
@[simp] theorem putIdentity_calendar (s : State) (m : List (HwId × StationNo)) (d' : ChanNo) : (s.putIdentity m).calendar d' = s.calendar d' := rfl
@[simp] theorem putIdentity_contentionOf (s : State) (m : List (HwId × StationNo)) (d' : ChanNo) : (s.putIdentity m).contentionOf d' = s.contentionOf d' := rfl
@[simp] theorem putIdentity_pollQueue (s : State) (m : List (HwId × StationNo)) (d' : ChanNo) : (s.putIdentity m).pollQueue d' = s.pollQueue d' := rfl
@[simp] theorem putIdentity_sweepPointer (s : State) (m : List (HwId × StationNo)) (d' : ChanNo) : (s.putIdentity m).sweepPointer d' = s.sweepPointer d' := rfl
@[simp] theorem putIdentity_buildCondition (s : State) (m : List (HwId × StationNo)) (d' : ChanNo) : (s.putIdentity m).buildCondition d' = s.buildCondition d' := rfl
@[simp] theorem putIdentity_planStore (s : State) (m : List (HwId × StationNo)) (d' : ChanNo) : (s.putIdentity m).planStore d' = s.planStore d' := rfl
@[simp] theorem putIdentity_expectQueue (s : State) (m : List (HwId × StationNo)) (d' : ChanNo) : (s.putIdentity m).expectQueue d' = s.expectQueue d' := rfl
@[simp] theorem putIdentity_counter (s : State) (m : List (HwId × StationNo)) (d' : ChanNo) (j : ChannelCounter) : (s.putIdentity m).counter d' j = s.counter d' j := rfl
@[simp] theorem putIdentity_deviceCounter (s : State) (m : List (HwId × StationNo)) (j : DeviceCounter) : (s.putIdentity m).deviceCounter j = s.deviceCounter j := rfl
@[simp] theorem putIdentity_notice (s : State) (m : List (HwId × StationNo)) (j : NoticeKind) : (s.putIdentity m).notice j = s.notice j := rfl

/-! ### putFlow -/

@[simp] theorem putFlow_pending (s : State) (f : FlowNo) (x : Flow) : (s.putFlow f x).pending = s.pending := rfl
@[simp] theorem putFlow_lastReference (s : State) (f : FlowNo) (x : Flow) : (s.putFlow f x).lastReference = s.lastReference := rfl
@[simp] theorem putFlow_referenceSeen (s : State) (f : FlowNo) (x : Flow) : (s.putFlow f x).referenceSeen = s.referenceSeen := rfl
@[simp] theorem putFlow_channels (s : State) (f : FlowNo) (x : Flow) : (s.putFlow f x).channels = s.channels := rfl
@[simp] theorem putFlow_stations (s : State) (f : FlowNo) (x : Flow) : (s.putFlow f x).stations = s.stations := rfl
@[simp] theorem putFlow_freeList (s : State) (f : FlowNo) (x : Flow) : (s.putFlow f x).freeList = s.freeList := rfl
@[simp] theorem putFlow_identity (s : State) (f : FlowNo) (x : Flow) : (s.putFlow f x).identity = s.identity := rfl
@[simp] theorem putFlow_policyA (s : State) (f : FlowNo) (x : Flow) : (s.putFlow f x).policyA = s.policyA := rfl
@[simp] theorem putFlow_policyB (s : State) (f : FlowNo) (x : Flow) : (s.putFlow f x).policyB = s.policyB := rfl
@[simp] theorem putFlow_requestMarks (s : State) (f : FlowNo) (x : Flow) : (s.putFlow f x).requestMarks = s.requestMarks := rfl
@[simp] theorem putFlow_activeLists (s : State) (f : FlowNo) (x : Flow) : (s.putFlow f x).activeLists = s.activeLists := rfl
@[simp] theorem putFlow_calendars (s : State) (f : FlowNo) (x : Flow) : (s.putFlow f x).calendars = s.calendars := rfl
@[simp] theorem putFlow_contention (s : State) (f : FlowNo) (x : Flow) : (s.putFlow f x).contention = s.contention := rfl
@[simp] theorem putFlow_pollQueues (s : State) (f : FlowNo) (x : Flow) : (s.putFlow f x).pollQueues = s.pollQueues := rfl
@[simp] theorem putFlow_sweepPointers (s : State) (f : FlowNo) (x : Flow) : (s.putFlow f x).sweepPointers = s.sweepPointers := rfl
@[simp] theorem putFlow_adjustQueue (s : State) (f : FlowNo) (x : Flow) : (s.putFlow f x).adjustQueue = s.adjustQueue := rfl
@[simp] theorem putFlow_engine (s : State) (f : FlowNo) (x : Flow) : (s.putFlow f x).engine = s.engine := rfl
@[simp] theorem putFlow_buildConditions (s : State) (f : FlowNo) (x : Flow) : (s.putFlow f x).buildConditions = s.buildConditions := rfl
@[simp] theorem putFlow_buildQueue (s : State) (f : FlowNo) (x : Flow) : (s.putFlow f x).buildQueue = s.buildQueue := rfl
@[simp] theorem putFlow_planStores (s : State) (f : FlowNo) (x : Flow) : (s.putFlow f x).planStores = s.planStores := rfl
@[simp] theorem putFlow_planLinkHold (s : State) (f : FlowNo) (x : Flow) : (s.putFlow f x).planLinkHold = s.planLinkHold := rfl
@[simp] theorem putFlow_planLink (s : State) (f : FlowNo) (x : Flow) : (s.putFlow f x).planLink = s.planLink := rfl
@[simp] theorem putFlow_expectQueues (s : State) (f : FlowNo) (x : Flow) : (s.putFlow f x).expectQueues = s.expectQueues := rfl
@[simp] theorem putFlow_strayRing (s : State) (f : FlowNo) (x : Flow) : (s.putFlow f x).strayRing = s.strayRing := rfl
@[simp] theorem putFlow_overwrites (s : State) (f : FlowNo) (x : Flow) : (s.putFlow f x).overwrites = s.overwrites := rfl
@[simp] theorem putFlow_forwardBuffer (s : State) (f : FlowNo) (x : Flow) : (s.putFlow f x).forwardBuffer = s.forwardBuffer := rfl
@[simp] theorem putFlow_systemLink (s : State) (f : FlowNo) (x : Flow) : (s.putFlow f x).systemLink = s.systemLink := rfl
@[simp] theorem putFlow_controlQueue (s : State) (f : FlowNo) (x : Flow) : (s.putFlow f x).controlQueue = s.controlQueue := rfl
@[simp] theorem putFlow_inboundHold (s : State) (f : FlowNo) (x : Flow) : (s.putFlow f x).inboundHold = s.inboundHold := rfl
@[simp] theorem putFlow_heldArrival (s : State) (f : FlowNo) (x : Flow) : (s.putFlow f x).heldArrival = s.heldArrival := rfl
@[simp] theorem putFlow_execution (s : State) (f : FlowNo) (x : Flow) : (s.putFlow f x).execution = s.execution := rfl
@[simp] theorem putFlow_responseQueue (s : State) (f : FlowNo) (x : Flow) : (s.putFlow f x).responseQueue = s.responseQueue := rfl
@[simp] theorem putFlow_channelCounters (s : State) (f : FlowNo) (x : Flow) : (s.putFlow f x).channelCounters = s.channelCounters := rfl
@[simp] theorem putFlow_deviceCounters (s : State) (f : FlowNo) (x : Flow) : (s.putFlow f x).deviceCounters = s.deviceCounters := rfl
@[simp] theorem putFlow_noticeEnable (s : State) (f : FlowNo) (x : Flow) : (s.putFlow f x).noticeEnable = s.noticeEnable := rfl
@[simp] theorem putFlow_notices (s : State) (f : FlowNo) (x : Flow) : (s.putFlow f x).notices = s.notices := rfl
@[simp] theorem putFlow_freeDraws (s : State) (f : FlowNo) (x : Flow) : (s.putFlow f x).freeDraws = s.freeDraws := rfl
@[simp] theorem putFlow_context (s : State) (f : FlowNo) (x : Flow) (d' : ChanNo) : (s.putFlow f x).context d' = s.context d' := rfl
@[simp] theorem putFlow_params (s : State) (f : FlowNo) (x : Flow) (d' : ChanNo) : (s.putFlow f x).params d' = s.params d' := rfl
@[simp] theorem putFlow_profile (s : State) (f : FlowNo) (x : Flow) (d' : ChanNo) : (s.putFlow f x).profile d' = s.profile d' := rfl
@[simp] theorem putFlow_station (s : State) (f : FlowNo) (x : Flow) (n' : StationNo) : (s.putFlow f x).station n' = s.station n' := rfl
@[simp] theorem putFlow_policyClass (s : State) (f : FlowNo) (x : Flow) (p' : PolicySelect) (j : ClassNo) : (s.putFlow f x).policyClass p' j = s.policyClass p' j := rfl
@[simp] theorem putFlow_active (s : State) (f : FlowNo) (x : Flow) (d' : ChanNo) (l' : Level) : (s.putFlow f x).active d' l' = s.active d' l' := rfl
@[simp] theorem putFlow_calendar (s : State) (f : FlowNo) (x : Flow) (d' : ChanNo) : (s.putFlow f x).calendar d' = s.calendar d' := rfl
@[simp] theorem putFlow_contentionOf (s : State) (f : FlowNo) (x : Flow) (d' : ChanNo) : (s.putFlow f x).contentionOf d' = s.contentionOf d' := rfl
@[simp] theorem putFlow_pollQueue (s : State) (f : FlowNo) (x : Flow) (d' : ChanNo) : (s.putFlow f x).pollQueue d' = s.pollQueue d' := rfl
@[simp] theorem putFlow_sweepPointer (s : State) (f : FlowNo) (x : Flow) (d' : ChanNo) : (s.putFlow f x).sweepPointer d' = s.sweepPointer d' := rfl
@[simp] theorem putFlow_buildCondition (s : State) (f : FlowNo) (x : Flow) (d' : ChanNo) : (s.putFlow f x).buildCondition d' = s.buildCondition d' := rfl
@[simp] theorem putFlow_planStore (s : State) (f : FlowNo) (x : Flow) (d' : ChanNo) : (s.putFlow f x).planStore d' = s.planStore d' := rfl
@[simp] theorem putFlow_expectQueue (s : State) (f : FlowNo) (x : Flow) (d' : ChanNo) : (s.putFlow f x).expectQueue d' = s.expectQueue d' := rfl
@[simp] theorem putFlow_counter (s : State) (f : FlowNo) (x : Flow) (d' : ChanNo) (j : ChannelCounter) : (s.putFlow f x).counter d' j = s.counter d' j := rfl
@[simp] theorem putFlow_deviceCounter (s : State) (f : FlowNo) (x : Flow) (j : DeviceCounter) : (s.putFlow f x).deviceCounter j = s.deviceCounter j := rfl
@[simp] theorem putFlow_notice (s : State) (f : FlowNo) (x : Flow) (j : NoticeKind) : (s.putFlow f x).notice j = s.notice j := rfl
@[simp] theorem putFlow_lookupIdentity (s : State) (f : FlowNo) (x : Flow) (h' : HwId) : (s.putFlow f x).lookupIdentity h' = s.lookupIdentity h' := rfl

/-! ### putPolicyClass -/

@[simp] theorem putPolicyClass_pending (s : State) (p : PolicySelect) (k : ClassNo) (x : PolicyClass) : (s.putPolicyClass p k x).pending = s.pending := rfl
@[simp] theorem putPolicyClass_lastReference (s : State) (p : PolicySelect) (k : ClassNo) (x : PolicyClass) : (s.putPolicyClass p k x).lastReference = s.lastReference := rfl
@[simp] theorem putPolicyClass_referenceSeen (s : State) (p : PolicySelect) (k : ClassNo) (x : PolicyClass) : (s.putPolicyClass p k x).referenceSeen = s.referenceSeen := rfl
@[simp] theorem putPolicyClass_channels (s : State) (p : PolicySelect) (k : ClassNo) (x : PolicyClass) : (s.putPolicyClass p k x).channels = s.channels := rfl
@[simp] theorem putPolicyClass_stations (s : State) (p : PolicySelect) (k : ClassNo) (x : PolicyClass) : (s.putPolicyClass p k x).stations = s.stations := rfl
@[simp] theorem putPolicyClass_freeList (s : State) (p : PolicySelect) (k : ClassNo) (x : PolicyClass) : (s.putPolicyClass p k x).freeList = s.freeList := rfl
@[simp] theorem putPolicyClass_identity (s : State) (p : PolicySelect) (k : ClassNo) (x : PolicyClass) : (s.putPolicyClass p k x).identity = s.identity := rfl
@[simp] theorem putPolicyClass_flows (s : State) (p : PolicySelect) (k : ClassNo) (x : PolicyClass) : (s.putPolicyClass p k x).flows = s.flows := rfl
@[simp] theorem putPolicyClass_requestMarks (s : State) (p : PolicySelect) (k : ClassNo) (x : PolicyClass) : (s.putPolicyClass p k x).requestMarks = s.requestMarks := rfl
@[simp] theorem putPolicyClass_activeLists (s : State) (p : PolicySelect) (k : ClassNo) (x : PolicyClass) : (s.putPolicyClass p k x).activeLists = s.activeLists := rfl
@[simp] theorem putPolicyClass_calendars (s : State) (p : PolicySelect) (k : ClassNo) (x : PolicyClass) : (s.putPolicyClass p k x).calendars = s.calendars := rfl
@[simp] theorem putPolicyClass_contention (s : State) (p : PolicySelect) (k : ClassNo) (x : PolicyClass) : (s.putPolicyClass p k x).contention = s.contention := rfl
@[simp] theorem putPolicyClass_pollQueues (s : State) (p : PolicySelect) (k : ClassNo) (x : PolicyClass) : (s.putPolicyClass p k x).pollQueues = s.pollQueues := rfl
@[simp] theorem putPolicyClass_sweepPointers (s : State) (p : PolicySelect) (k : ClassNo) (x : PolicyClass) : (s.putPolicyClass p k x).sweepPointers = s.sweepPointers := rfl
@[simp] theorem putPolicyClass_adjustQueue (s : State) (p : PolicySelect) (k : ClassNo) (x : PolicyClass) : (s.putPolicyClass p k x).adjustQueue = s.adjustQueue := rfl
@[simp] theorem putPolicyClass_engine (s : State) (p : PolicySelect) (k : ClassNo) (x : PolicyClass) : (s.putPolicyClass p k x).engine = s.engine := rfl
@[simp] theorem putPolicyClass_buildConditions (s : State) (p : PolicySelect) (k : ClassNo) (x : PolicyClass) : (s.putPolicyClass p k x).buildConditions = s.buildConditions := rfl
@[simp] theorem putPolicyClass_buildQueue (s : State) (p : PolicySelect) (k : ClassNo) (x : PolicyClass) : (s.putPolicyClass p k x).buildQueue = s.buildQueue := rfl
@[simp] theorem putPolicyClass_planStores (s : State) (p : PolicySelect) (k : ClassNo) (x : PolicyClass) : (s.putPolicyClass p k x).planStores = s.planStores := rfl
@[simp] theorem putPolicyClass_planLinkHold (s : State) (p : PolicySelect) (k : ClassNo) (x : PolicyClass) : (s.putPolicyClass p k x).planLinkHold = s.planLinkHold := rfl
@[simp] theorem putPolicyClass_planLink (s : State) (p : PolicySelect) (k : ClassNo) (x : PolicyClass) : (s.putPolicyClass p k x).planLink = s.planLink := rfl
@[simp] theorem putPolicyClass_expectQueues (s : State) (p : PolicySelect) (k : ClassNo) (x : PolicyClass) : (s.putPolicyClass p k x).expectQueues = s.expectQueues := rfl
@[simp] theorem putPolicyClass_strayRing (s : State) (p : PolicySelect) (k : ClassNo) (x : PolicyClass) : (s.putPolicyClass p k x).strayRing = s.strayRing := rfl
@[simp] theorem putPolicyClass_overwrites (s : State) (p : PolicySelect) (k : ClassNo) (x : PolicyClass) : (s.putPolicyClass p k x).overwrites = s.overwrites := rfl
@[simp] theorem putPolicyClass_forwardBuffer (s : State) (p : PolicySelect) (k : ClassNo) (x : PolicyClass) : (s.putPolicyClass p k x).forwardBuffer = s.forwardBuffer := rfl
@[simp] theorem putPolicyClass_systemLink (s : State) (p : PolicySelect) (k : ClassNo) (x : PolicyClass) : (s.putPolicyClass p k x).systemLink = s.systemLink := rfl
@[simp] theorem putPolicyClass_controlQueue (s : State) (p : PolicySelect) (k : ClassNo) (x : PolicyClass) : (s.putPolicyClass p k x).controlQueue = s.controlQueue := rfl
@[simp] theorem putPolicyClass_inboundHold (s : State) (p : PolicySelect) (k : ClassNo) (x : PolicyClass) : (s.putPolicyClass p k x).inboundHold = s.inboundHold := rfl
@[simp] theorem putPolicyClass_heldArrival (s : State) (p : PolicySelect) (k : ClassNo) (x : PolicyClass) : (s.putPolicyClass p k x).heldArrival = s.heldArrival := rfl
@[simp] theorem putPolicyClass_execution (s : State) (p : PolicySelect) (k : ClassNo) (x : PolicyClass) : (s.putPolicyClass p k x).execution = s.execution := rfl
@[simp] theorem putPolicyClass_responseQueue (s : State) (p : PolicySelect) (k : ClassNo) (x : PolicyClass) : (s.putPolicyClass p k x).responseQueue = s.responseQueue := rfl
@[simp] theorem putPolicyClass_channelCounters (s : State) (p : PolicySelect) (k : ClassNo) (x : PolicyClass) : (s.putPolicyClass p k x).channelCounters = s.channelCounters := rfl
@[simp] theorem putPolicyClass_deviceCounters (s : State) (p : PolicySelect) (k : ClassNo) (x : PolicyClass) : (s.putPolicyClass p k x).deviceCounters = s.deviceCounters := rfl
@[simp] theorem putPolicyClass_noticeEnable (s : State) (p : PolicySelect) (k : ClassNo) (x : PolicyClass) : (s.putPolicyClass p k x).noticeEnable = s.noticeEnable := rfl
@[simp] theorem putPolicyClass_notices (s : State) (p : PolicySelect) (k : ClassNo) (x : PolicyClass) : (s.putPolicyClass p k x).notices = s.notices := rfl
@[simp] theorem putPolicyClass_freeDraws (s : State) (p : PolicySelect) (k : ClassNo) (x : PolicyClass) : (s.putPolicyClass p k x).freeDraws = s.freeDraws := rfl
@[simp] theorem putPolicyClass_context (s : State) (p : PolicySelect) (k : ClassNo) (x : PolicyClass) (d' : ChanNo) : (s.putPolicyClass p k x).context d' = s.context d' := rfl
@[simp] theorem putPolicyClass_params (s : State) (p : PolicySelect) (k : ClassNo) (x : PolicyClass) (d' : ChanNo) : (s.putPolicyClass p k x).params d' = s.params d' := rfl
@[simp] theorem putPolicyClass_profile (s : State) (p : PolicySelect) (k : ClassNo) (x : PolicyClass) (d' : ChanNo) : (s.putPolicyClass p k x).profile d' = s.profile d' := rfl
@[simp] theorem putPolicyClass_station (s : State) (p : PolicySelect) (k : ClassNo) (x : PolicyClass) (n' : StationNo) : (s.putPolicyClass p k x).station n' = s.station n' := rfl
@[simp] theorem putPolicyClass_flow (s : State) (p : PolicySelect) (k : ClassNo) (x : PolicyClass) (f' : FlowNo) : (s.putPolicyClass p k x).flow f' = s.flow f' := rfl
@[simp] theorem putPolicyClass_active (s : State) (p : PolicySelect) (k : ClassNo) (x : PolicyClass) (d' : ChanNo) (l' : Level) : (s.putPolicyClass p k x).active d' l' = s.active d' l' := rfl
@[simp] theorem putPolicyClass_calendar (s : State) (p : PolicySelect) (k : ClassNo) (x : PolicyClass) (d' : ChanNo) : (s.putPolicyClass p k x).calendar d' = s.calendar d' := rfl
@[simp] theorem putPolicyClass_contentionOf (s : State) (p : PolicySelect) (k : ClassNo) (x : PolicyClass) (d' : ChanNo) : (s.putPolicyClass p k x).contentionOf d' = s.contentionOf d' := rfl
@[simp] theorem putPolicyClass_pollQueue (s : State) (p : PolicySelect) (k : ClassNo) (x : PolicyClass) (d' : ChanNo) : (s.putPolicyClass p k x).pollQueue d' = s.pollQueue d' := rfl
@[simp] theorem putPolicyClass_sweepPointer (s : State) (p : PolicySelect) (k : ClassNo) (x : PolicyClass) (d' : ChanNo) : (s.putPolicyClass p k x).sweepPointer d' = s.sweepPointer d' := rfl
@[simp] theorem putPolicyClass_buildCondition (s : State) (p : PolicySelect) (k : ClassNo) (x : PolicyClass) (d' : ChanNo) : (s.putPolicyClass p k x).buildCondition d' = s.buildCondition d' := rfl
@[simp] theorem putPolicyClass_planStore (s : State) (p : PolicySelect) (k : ClassNo) (x : PolicyClass) (d' : ChanNo) : (s.putPolicyClass p k x).planStore d' = s.planStore d' := rfl
@[simp] theorem putPolicyClass_expectQueue (s : State) (p : PolicySelect) (k : ClassNo) (x : PolicyClass) (d' : ChanNo) : (s.putPolicyClass p k x).expectQueue d' = s.expectQueue d' := rfl
@[simp] theorem putPolicyClass_counter (s : State) (p : PolicySelect) (k : ClassNo) (x : PolicyClass) (d' : ChanNo) (j : ChannelCounter) : (s.putPolicyClass p k x).counter d' j = s.counter d' j := rfl
@[simp] theorem putPolicyClass_deviceCounter (s : State) (p : PolicySelect) (k : ClassNo) (x : PolicyClass) (j : DeviceCounter) : (s.putPolicyClass p k x).deviceCounter j = s.deviceCounter j := rfl
@[simp] theorem putPolicyClass_notice (s : State) (p : PolicySelect) (k : ClassNo) (x : PolicyClass) (j : NoticeKind) : (s.putPolicyClass p k x).notice j = s.notice j := rfl
@[simp] theorem putPolicyClass_lookupIdentity (s : State) (p : PolicySelect) (k : ClassNo) (x : PolicyClass) (h' : HwId) : (s.putPolicyClass p k x).lookupIdentity h' = s.lookupIdentity h' := rfl

/-! ### putRequestMark -/

@[simp] theorem putRequestMark_pending (s : State) (c : ChanNo) (m : Option Beat) : (s.putRequestMark c m).pending = s.pending := rfl
@[simp] theorem putRequestMark_lastReference (s : State) (c : ChanNo) (m : Option Beat) : (s.putRequestMark c m).lastReference = s.lastReference := rfl
@[simp] theorem putRequestMark_referenceSeen (s : State) (c : ChanNo) (m : Option Beat) : (s.putRequestMark c m).referenceSeen = s.referenceSeen := rfl
@[simp] theorem putRequestMark_channels (s : State) (c : ChanNo) (m : Option Beat) : (s.putRequestMark c m).channels = s.channels := rfl
@[simp] theorem putRequestMark_stations (s : State) (c : ChanNo) (m : Option Beat) : (s.putRequestMark c m).stations = s.stations := rfl
@[simp] theorem putRequestMark_freeList (s : State) (c : ChanNo) (m : Option Beat) : (s.putRequestMark c m).freeList = s.freeList := rfl
@[simp] theorem putRequestMark_identity (s : State) (c : ChanNo) (m : Option Beat) : (s.putRequestMark c m).identity = s.identity := rfl
@[simp] theorem putRequestMark_flows (s : State) (c : ChanNo) (m : Option Beat) : (s.putRequestMark c m).flows = s.flows := rfl
@[simp] theorem putRequestMark_policyA (s : State) (c : ChanNo) (m : Option Beat) : (s.putRequestMark c m).policyA = s.policyA := rfl
@[simp] theorem putRequestMark_policyB (s : State) (c : ChanNo) (m : Option Beat) : (s.putRequestMark c m).policyB = s.policyB := rfl
@[simp] theorem putRequestMark_activeLists (s : State) (c : ChanNo) (m : Option Beat) : (s.putRequestMark c m).activeLists = s.activeLists := rfl
@[simp] theorem putRequestMark_calendars (s : State) (c : ChanNo) (m : Option Beat) : (s.putRequestMark c m).calendars = s.calendars := rfl
@[simp] theorem putRequestMark_contention (s : State) (c : ChanNo) (m : Option Beat) : (s.putRequestMark c m).contention = s.contention := rfl
@[simp] theorem putRequestMark_pollQueues (s : State) (c : ChanNo) (m : Option Beat) : (s.putRequestMark c m).pollQueues = s.pollQueues := rfl
@[simp] theorem putRequestMark_sweepPointers (s : State) (c : ChanNo) (m : Option Beat) : (s.putRequestMark c m).sweepPointers = s.sweepPointers := rfl
@[simp] theorem putRequestMark_adjustQueue (s : State) (c : ChanNo) (m : Option Beat) : (s.putRequestMark c m).adjustQueue = s.adjustQueue := rfl
@[simp] theorem putRequestMark_engine (s : State) (c : ChanNo) (m : Option Beat) : (s.putRequestMark c m).engine = s.engine := rfl
@[simp] theorem putRequestMark_buildConditions (s : State) (c : ChanNo) (m : Option Beat) : (s.putRequestMark c m).buildConditions = s.buildConditions := rfl
@[simp] theorem putRequestMark_buildQueue (s : State) (c : ChanNo) (m : Option Beat) : (s.putRequestMark c m).buildQueue = s.buildQueue := rfl
@[simp] theorem putRequestMark_planStores (s : State) (c : ChanNo) (m : Option Beat) : (s.putRequestMark c m).planStores = s.planStores := rfl
@[simp] theorem putRequestMark_planLinkHold (s : State) (c : ChanNo) (m : Option Beat) : (s.putRequestMark c m).planLinkHold = s.planLinkHold := rfl
@[simp] theorem putRequestMark_planLink (s : State) (c : ChanNo) (m : Option Beat) : (s.putRequestMark c m).planLink = s.planLink := rfl
@[simp] theorem putRequestMark_expectQueues (s : State) (c : ChanNo) (m : Option Beat) : (s.putRequestMark c m).expectQueues = s.expectQueues := rfl
@[simp] theorem putRequestMark_strayRing (s : State) (c : ChanNo) (m : Option Beat) : (s.putRequestMark c m).strayRing = s.strayRing := rfl
@[simp] theorem putRequestMark_overwrites (s : State) (c : ChanNo) (m : Option Beat) : (s.putRequestMark c m).overwrites = s.overwrites := rfl
@[simp] theorem putRequestMark_forwardBuffer (s : State) (c : ChanNo) (m : Option Beat) : (s.putRequestMark c m).forwardBuffer = s.forwardBuffer := rfl
@[simp] theorem putRequestMark_systemLink (s : State) (c : ChanNo) (m : Option Beat) : (s.putRequestMark c m).systemLink = s.systemLink := rfl
@[simp] theorem putRequestMark_controlQueue (s : State) (c : ChanNo) (m : Option Beat) : (s.putRequestMark c m).controlQueue = s.controlQueue := rfl
@[simp] theorem putRequestMark_inboundHold (s : State) (c : ChanNo) (m : Option Beat) : (s.putRequestMark c m).inboundHold = s.inboundHold := rfl
@[simp] theorem putRequestMark_heldArrival (s : State) (c : ChanNo) (m : Option Beat) : (s.putRequestMark c m).heldArrival = s.heldArrival := rfl
@[simp] theorem putRequestMark_execution (s : State) (c : ChanNo) (m : Option Beat) : (s.putRequestMark c m).execution = s.execution := rfl
@[simp] theorem putRequestMark_responseQueue (s : State) (c : ChanNo) (m : Option Beat) : (s.putRequestMark c m).responseQueue = s.responseQueue := rfl
@[simp] theorem putRequestMark_channelCounters (s : State) (c : ChanNo) (m : Option Beat) : (s.putRequestMark c m).channelCounters = s.channelCounters := rfl
@[simp] theorem putRequestMark_deviceCounters (s : State) (c : ChanNo) (m : Option Beat) : (s.putRequestMark c m).deviceCounters = s.deviceCounters := rfl
@[simp] theorem putRequestMark_noticeEnable (s : State) (c : ChanNo) (m : Option Beat) : (s.putRequestMark c m).noticeEnable = s.noticeEnable := rfl
@[simp] theorem putRequestMark_notices (s : State) (c : ChanNo) (m : Option Beat) : (s.putRequestMark c m).notices = s.notices := rfl
@[simp] theorem putRequestMark_freeDraws (s : State) (c : ChanNo) (m : Option Beat) : (s.putRequestMark c m).freeDraws = s.freeDraws := rfl
@[simp] theorem putRequestMark_context (s : State) (c : ChanNo) (m : Option Beat) (d' : ChanNo) : (s.putRequestMark c m).context d' = s.context d' := rfl
@[simp] theorem putRequestMark_params (s : State) (c : ChanNo) (m : Option Beat) (d' : ChanNo) : (s.putRequestMark c m).params d' = s.params d' := rfl
@[simp] theorem putRequestMark_profile (s : State) (c : ChanNo) (m : Option Beat) (d' : ChanNo) : (s.putRequestMark c m).profile d' = s.profile d' := rfl
@[simp] theorem putRequestMark_station (s : State) (c : ChanNo) (m : Option Beat) (n' : StationNo) : (s.putRequestMark c m).station n' = s.station n' := rfl
@[simp] theorem putRequestMark_flow (s : State) (c : ChanNo) (m : Option Beat) (f' : FlowNo) : (s.putRequestMark c m).flow f' = s.flow f' := rfl
@[simp] theorem putRequestMark_policyClass (s : State) (c : ChanNo) (m : Option Beat) (p' : PolicySelect) (j : ClassNo) : (s.putRequestMark c m).policyClass p' j = s.policyClass p' j := rfl
@[simp] theorem putRequestMark_active (s : State) (c : ChanNo) (m : Option Beat) (d' : ChanNo) (l' : Level) : (s.putRequestMark c m).active d' l' = s.active d' l' := rfl
@[simp] theorem putRequestMark_calendar (s : State) (c : ChanNo) (m : Option Beat) (d' : ChanNo) : (s.putRequestMark c m).calendar d' = s.calendar d' := rfl
@[simp] theorem putRequestMark_contentionOf (s : State) (c : ChanNo) (m : Option Beat) (d' : ChanNo) : (s.putRequestMark c m).contentionOf d' = s.contentionOf d' := rfl
@[simp] theorem putRequestMark_pollQueue (s : State) (c : ChanNo) (m : Option Beat) (d' : ChanNo) : (s.putRequestMark c m).pollQueue d' = s.pollQueue d' := rfl
@[simp] theorem putRequestMark_sweepPointer (s : State) (c : ChanNo) (m : Option Beat) (d' : ChanNo) : (s.putRequestMark c m).sweepPointer d' = s.sweepPointer d' := rfl
@[simp] theorem putRequestMark_buildCondition (s : State) (c : ChanNo) (m : Option Beat) (d' : ChanNo) : (s.putRequestMark c m).buildCondition d' = s.buildCondition d' := rfl
@[simp] theorem putRequestMark_planStore (s : State) (c : ChanNo) (m : Option Beat) (d' : ChanNo) : (s.putRequestMark c m).planStore d' = s.planStore d' := rfl
@[simp] theorem putRequestMark_expectQueue (s : State) (c : ChanNo) (m : Option Beat) (d' : ChanNo) : (s.putRequestMark c m).expectQueue d' = s.expectQueue d' := rfl
@[simp] theorem putRequestMark_counter (s : State) (c : ChanNo) (m : Option Beat) (d' : ChanNo) (j : ChannelCounter) : (s.putRequestMark c m).counter d' j = s.counter d' j := rfl
@[simp] theorem putRequestMark_deviceCounter (s : State) (c : ChanNo) (m : Option Beat) (j : DeviceCounter) : (s.putRequestMark c m).deviceCounter j = s.deviceCounter j := rfl
@[simp] theorem putRequestMark_notice (s : State) (c : ChanNo) (m : Option Beat) (j : NoticeKind) : (s.putRequestMark c m).notice j = s.notice j := rfl
@[simp] theorem putRequestMark_lookupIdentity (s : State) (c : ChanNo) (m : Option Beat) (h' : HwId) : (s.putRequestMark c m).lookupIdentity h' = s.lookupIdentity h' := rfl

/-! ### putActive -/

@[simp] theorem putActive_pending (s : State) (c : ChanNo) (l : Level) (q : List FlowNo) : (s.putActive c l q).pending = s.pending := rfl
@[simp] theorem putActive_lastReference (s : State) (c : ChanNo) (l : Level) (q : List FlowNo) : (s.putActive c l q).lastReference = s.lastReference := rfl
@[simp] theorem putActive_referenceSeen (s : State) (c : ChanNo) (l : Level) (q : List FlowNo) : (s.putActive c l q).referenceSeen = s.referenceSeen := rfl
@[simp] theorem putActive_channels (s : State) (c : ChanNo) (l : Level) (q : List FlowNo) : (s.putActive c l q).channels = s.channels := rfl
@[simp] theorem putActive_stations (s : State) (c : ChanNo) (l : Level) (q : List FlowNo) : (s.putActive c l q).stations = s.stations := rfl
@[simp] theorem putActive_freeList (s : State) (c : ChanNo) (l : Level) (q : List FlowNo) : (s.putActive c l q).freeList = s.freeList := rfl
@[simp] theorem putActive_identity (s : State) (c : ChanNo) (l : Level) (q : List FlowNo) : (s.putActive c l q).identity = s.identity := rfl
@[simp] theorem putActive_flows (s : State) (c : ChanNo) (l : Level) (q : List FlowNo) : (s.putActive c l q).flows = s.flows := rfl
@[simp] theorem putActive_policyA (s : State) (c : ChanNo) (l : Level) (q : List FlowNo) : (s.putActive c l q).policyA = s.policyA := rfl
@[simp] theorem putActive_policyB (s : State) (c : ChanNo) (l : Level) (q : List FlowNo) : (s.putActive c l q).policyB = s.policyB := rfl
@[simp] theorem putActive_requestMarks (s : State) (c : ChanNo) (l : Level) (q : List FlowNo) : (s.putActive c l q).requestMarks = s.requestMarks := rfl
@[simp] theorem putActive_calendars (s : State) (c : ChanNo) (l : Level) (q : List FlowNo) : (s.putActive c l q).calendars = s.calendars := rfl
@[simp] theorem putActive_contention (s : State) (c : ChanNo) (l : Level) (q : List FlowNo) : (s.putActive c l q).contention = s.contention := rfl
@[simp] theorem putActive_pollQueues (s : State) (c : ChanNo) (l : Level) (q : List FlowNo) : (s.putActive c l q).pollQueues = s.pollQueues := rfl
@[simp] theorem putActive_sweepPointers (s : State) (c : ChanNo) (l : Level) (q : List FlowNo) : (s.putActive c l q).sweepPointers = s.sweepPointers := rfl
@[simp] theorem putActive_adjustQueue (s : State) (c : ChanNo) (l : Level) (q : List FlowNo) : (s.putActive c l q).adjustQueue = s.adjustQueue := rfl
@[simp] theorem putActive_engine (s : State) (c : ChanNo) (l : Level) (q : List FlowNo) : (s.putActive c l q).engine = s.engine := rfl
@[simp] theorem putActive_buildConditions (s : State) (c : ChanNo) (l : Level) (q : List FlowNo) : (s.putActive c l q).buildConditions = s.buildConditions := rfl
@[simp] theorem putActive_buildQueue (s : State) (c : ChanNo) (l : Level) (q : List FlowNo) : (s.putActive c l q).buildQueue = s.buildQueue := rfl
@[simp] theorem putActive_planStores (s : State) (c : ChanNo) (l : Level) (q : List FlowNo) : (s.putActive c l q).planStores = s.planStores := rfl
@[simp] theorem putActive_planLinkHold (s : State) (c : ChanNo) (l : Level) (q : List FlowNo) : (s.putActive c l q).planLinkHold = s.planLinkHold := rfl
@[simp] theorem putActive_planLink (s : State) (c : ChanNo) (l : Level) (q : List FlowNo) : (s.putActive c l q).planLink = s.planLink := rfl
@[simp] theorem putActive_expectQueues (s : State) (c : ChanNo) (l : Level) (q : List FlowNo) : (s.putActive c l q).expectQueues = s.expectQueues := rfl
@[simp] theorem putActive_strayRing (s : State) (c : ChanNo) (l : Level) (q : List FlowNo) : (s.putActive c l q).strayRing = s.strayRing := rfl
@[simp] theorem putActive_overwrites (s : State) (c : ChanNo) (l : Level) (q : List FlowNo) : (s.putActive c l q).overwrites = s.overwrites := rfl
@[simp] theorem putActive_forwardBuffer (s : State) (c : ChanNo) (l : Level) (q : List FlowNo) : (s.putActive c l q).forwardBuffer = s.forwardBuffer := rfl
@[simp] theorem putActive_systemLink (s : State) (c : ChanNo) (l : Level) (q : List FlowNo) : (s.putActive c l q).systemLink = s.systemLink := rfl
@[simp] theorem putActive_controlQueue (s : State) (c : ChanNo) (l : Level) (q : List FlowNo) : (s.putActive c l q).controlQueue = s.controlQueue := rfl
@[simp] theorem putActive_inboundHold (s : State) (c : ChanNo) (l : Level) (q : List FlowNo) : (s.putActive c l q).inboundHold = s.inboundHold := rfl
@[simp] theorem putActive_heldArrival (s : State) (c : ChanNo) (l : Level) (q : List FlowNo) : (s.putActive c l q).heldArrival = s.heldArrival := rfl
@[simp] theorem putActive_execution (s : State) (c : ChanNo) (l : Level) (q : List FlowNo) : (s.putActive c l q).execution = s.execution := rfl
@[simp] theorem putActive_responseQueue (s : State) (c : ChanNo) (l : Level) (q : List FlowNo) : (s.putActive c l q).responseQueue = s.responseQueue := rfl
@[simp] theorem putActive_channelCounters (s : State) (c : ChanNo) (l : Level) (q : List FlowNo) : (s.putActive c l q).channelCounters = s.channelCounters := rfl
@[simp] theorem putActive_deviceCounters (s : State) (c : ChanNo) (l : Level) (q : List FlowNo) : (s.putActive c l q).deviceCounters = s.deviceCounters := rfl
@[simp] theorem putActive_noticeEnable (s : State) (c : ChanNo) (l : Level) (q : List FlowNo) : (s.putActive c l q).noticeEnable = s.noticeEnable := rfl
@[simp] theorem putActive_notices (s : State) (c : ChanNo) (l : Level) (q : List FlowNo) : (s.putActive c l q).notices = s.notices := rfl
@[simp] theorem putActive_freeDraws (s : State) (c : ChanNo) (l : Level) (q : List FlowNo) : (s.putActive c l q).freeDraws = s.freeDraws := rfl
@[simp] theorem putActive_context (s : State) (c : ChanNo) (l : Level) (q : List FlowNo) (d' : ChanNo) : (s.putActive c l q).context d' = s.context d' := rfl
@[simp] theorem putActive_params (s : State) (c : ChanNo) (l : Level) (q : List FlowNo) (d' : ChanNo) : (s.putActive c l q).params d' = s.params d' := rfl
@[simp] theorem putActive_profile (s : State) (c : ChanNo) (l : Level) (q : List FlowNo) (d' : ChanNo) : (s.putActive c l q).profile d' = s.profile d' := rfl
@[simp] theorem putActive_station (s : State) (c : ChanNo) (l : Level) (q : List FlowNo) (n' : StationNo) : (s.putActive c l q).station n' = s.station n' := rfl
@[simp] theorem putActive_flow (s : State) (c : ChanNo) (l : Level) (q : List FlowNo) (f' : FlowNo) : (s.putActive c l q).flow f' = s.flow f' := rfl
@[simp] theorem putActive_policyClass (s : State) (c : ChanNo) (l : Level) (q : List FlowNo) (p' : PolicySelect) (j : ClassNo) : (s.putActive c l q).policyClass p' j = s.policyClass p' j := rfl
@[simp] theorem putActive_calendar (s : State) (c : ChanNo) (l : Level) (q : List FlowNo) (d' : ChanNo) : (s.putActive c l q).calendar d' = s.calendar d' := rfl
@[simp] theorem putActive_contentionOf (s : State) (c : ChanNo) (l : Level) (q : List FlowNo) (d' : ChanNo) : (s.putActive c l q).contentionOf d' = s.contentionOf d' := rfl
@[simp] theorem putActive_pollQueue (s : State) (c : ChanNo) (l : Level) (q : List FlowNo) (d' : ChanNo) : (s.putActive c l q).pollQueue d' = s.pollQueue d' := rfl
@[simp] theorem putActive_sweepPointer (s : State) (c : ChanNo) (l : Level) (q : List FlowNo) (d' : ChanNo) : (s.putActive c l q).sweepPointer d' = s.sweepPointer d' := rfl
@[simp] theorem putActive_buildCondition (s : State) (c : ChanNo) (l : Level) (q : List FlowNo) (d' : ChanNo) : (s.putActive c l q).buildCondition d' = s.buildCondition d' := rfl
@[simp] theorem putActive_planStore (s : State) (c : ChanNo) (l : Level) (q : List FlowNo) (d' : ChanNo) : (s.putActive c l q).planStore d' = s.planStore d' := rfl
@[simp] theorem putActive_expectQueue (s : State) (c : ChanNo) (l : Level) (q : List FlowNo) (d' : ChanNo) : (s.putActive c l q).expectQueue d' = s.expectQueue d' := rfl
@[simp] theorem putActive_counter (s : State) (c : ChanNo) (l : Level) (q : List FlowNo) (d' : ChanNo) (j : ChannelCounter) : (s.putActive c l q).counter d' j = s.counter d' j := rfl
@[simp] theorem putActive_deviceCounter (s : State) (c : ChanNo) (l : Level) (q : List FlowNo) (j : DeviceCounter) : (s.putActive c l q).deviceCounter j = s.deviceCounter j := rfl
@[simp] theorem putActive_notice (s : State) (c : ChanNo) (l : Level) (q : List FlowNo) (j : NoticeKind) : (s.putActive c l q).notice j = s.notice j := rfl
@[simp] theorem putActive_lookupIdentity (s : State) (c : ChanNo) (l : Level) (q : List FlowNo) (h' : HwId) : (s.putActive c l q).lookupIdentity h' = s.lookupIdentity h' := rfl

/-! ### putCalendar -/

@[simp] theorem putCalendar_pending (s : State) (c : ChanNo) (x : Calendar) : (s.putCalendar c x).pending = s.pending := rfl
@[simp] theorem putCalendar_lastReference (s : State) (c : ChanNo) (x : Calendar) : (s.putCalendar c x).lastReference = s.lastReference := rfl
@[simp] theorem putCalendar_referenceSeen (s : State) (c : ChanNo) (x : Calendar) : (s.putCalendar c x).referenceSeen = s.referenceSeen := rfl
@[simp] theorem putCalendar_channels (s : State) (c : ChanNo) (x : Calendar) : (s.putCalendar c x).channels = s.channels := rfl
@[simp] theorem putCalendar_stations (s : State) (c : ChanNo) (x : Calendar) : (s.putCalendar c x).stations = s.stations := rfl
@[simp] theorem putCalendar_freeList (s : State) (c : ChanNo) (x : Calendar) : (s.putCalendar c x).freeList = s.freeList := rfl
@[simp] theorem putCalendar_identity (s : State) (c : ChanNo) (x : Calendar) : (s.putCalendar c x).identity = s.identity := rfl
@[simp] theorem putCalendar_flows (s : State) (c : ChanNo) (x : Calendar) : (s.putCalendar c x).flows = s.flows := rfl
@[simp] theorem putCalendar_policyA (s : State) (c : ChanNo) (x : Calendar) : (s.putCalendar c x).policyA = s.policyA := rfl
@[simp] theorem putCalendar_policyB (s : State) (c : ChanNo) (x : Calendar) : (s.putCalendar c x).policyB = s.policyB := rfl
@[simp] theorem putCalendar_requestMarks (s : State) (c : ChanNo) (x : Calendar) : (s.putCalendar c x).requestMarks = s.requestMarks := rfl
@[simp] theorem putCalendar_activeLists (s : State) (c : ChanNo) (x : Calendar) : (s.putCalendar c x).activeLists = s.activeLists := rfl
@[simp] theorem putCalendar_contention (s : State) (c : ChanNo) (x : Calendar) : (s.putCalendar c x).contention = s.contention := rfl
@[simp] theorem putCalendar_pollQueues (s : State) (c : ChanNo) (x : Calendar) : (s.putCalendar c x).pollQueues = s.pollQueues := rfl
@[simp] theorem putCalendar_sweepPointers (s : State) (c : ChanNo) (x : Calendar) : (s.putCalendar c x).sweepPointers = s.sweepPointers := rfl
@[simp] theorem putCalendar_adjustQueue (s : State) (c : ChanNo) (x : Calendar) : (s.putCalendar c x).adjustQueue = s.adjustQueue := rfl
@[simp] theorem putCalendar_engine (s : State) (c : ChanNo) (x : Calendar) : (s.putCalendar c x).engine = s.engine := rfl
@[simp] theorem putCalendar_buildConditions (s : State) (c : ChanNo) (x : Calendar) : (s.putCalendar c x).buildConditions = s.buildConditions := rfl
@[simp] theorem putCalendar_buildQueue (s : State) (c : ChanNo) (x : Calendar) : (s.putCalendar c x).buildQueue = s.buildQueue := rfl
@[simp] theorem putCalendar_planStores (s : State) (c : ChanNo) (x : Calendar) : (s.putCalendar c x).planStores = s.planStores := rfl
@[simp] theorem putCalendar_planLinkHold (s : State) (c : ChanNo) (x : Calendar) : (s.putCalendar c x).planLinkHold = s.planLinkHold := rfl
@[simp] theorem putCalendar_planLink (s : State) (c : ChanNo) (x : Calendar) : (s.putCalendar c x).planLink = s.planLink := rfl
@[simp] theorem putCalendar_expectQueues (s : State) (c : ChanNo) (x : Calendar) : (s.putCalendar c x).expectQueues = s.expectQueues := rfl
@[simp] theorem putCalendar_strayRing (s : State) (c : ChanNo) (x : Calendar) : (s.putCalendar c x).strayRing = s.strayRing := rfl
@[simp] theorem putCalendar_overwrites (s : State) (c : ChanNo) (x : Calendar) : (s.putCalendar c x).overwrites = s.overwrites := rfl
@[simp] theorem putCalendar_forwardBuffer (s : State) (c : ChanNo) (x : Calendar) : (s.putCalendar c x).forwardBuffer = s.forwardBuffer := rfl
@[simp] theorem putCalendar_systemLink (s : State) (c : ChanNo) (x : Calendar) : (s.putCalendar c x).systemLink = s.systemLink := rfl
@[simp] theorem putCalendar_controlQueue (s : State) (c : ChanNo) (x : Calendar) : (s.putCalendar c x).controlQueue = s.controlQueue := rfl
@[simp] theorem putCalendar_inboundHold (s : State) (c : ChanNo) (x : Calendar) : (s.putCalendar c x).inboundHold = s.inboundHold := rfl
@[simp] theorem putCalendar_heldArrival (s : State) (c : ChanNo) (x : Calendar) : (s.putCalendar c x).heldArrival = s.heldArrival := rfl
@[simp] theorem putCalendar_execution (s : State) (c : ChanNo) (x : Calendar) : (s.putCalendar c x).execution = s.execution := rfl
@[simp] theorem putCalendar_responseQueue (s : State) (c : ChanNo) (x : Calendar) : (s.putCalendar c x).responseQueue = s.responseQueue := rfl
@[simp] theorem putCalendar_channelCounters (s : State) (c : ChanNo) (x : Calendar) : (s.putCalendar c x).channelCounters = s.channelCounters := rfl
@[simp] theorem putCalendar_deviceCounters (s : State) (c : ChanNo) (x : Calendar) : (s.putCalendar c x).deviceCounters = s.deviceCounters := rfl
@[simp] theorem putCalendar_noticeEnable (s : State) (c : ChanNo) (x : Calendar) : (s.putCalendar c x).noticeEnable = s.noticeEnable := rfl
@[simp] theorem putCalendar_notices (s : State) (c : ChanNo) (x : Calendar) : (s.putCalendar c x).notices = s.notices := rfl
@[simp] theorem putCalendar_freeDraws (s : State) (c : ChanNo) (x : Calendar) : (s.putCalendar c x).freeDraws = s.freeDraws := rfl
@[simp] theorem putCalendar_context (s : State) (c : ChanNo) (x : Calendar) (d' : ChanNo) : (s.putCalendar c x).context d' = s.context d' := rfl
@[simp] theorem putCalendar_params (s : State) (c : ChanNo) (x : Calendar) (d' : ChanNo) : (s.putCalendar c x).params d' = s.params d' := rfl
@[simp] theorem putCalendar_profile (s : State) (c : ChanNo) (x : Calendar) (d' : ChanNo) : (s.putCalendar c x).profile d' = s.profile d' := rfl
@[simp] theorem putCalendar_station (s : State) (c : ChanNo) (x : Calendar) (n' : StationNo) : (s.putCalendar c x).station n' = s.station n' := rfl
@[simp] theorem putCalendar_flow (s : State) (c : ChanNo) (x : Calendar) (f' : FlowNo) : (s.putCalendar c x).flow f' = s.flow f' := rfl
@[simp] theorem putCalendar_policyClass (s : State) (c : ChanNo) (x : Calendar) (p' : PolicySelect) (j : ClassNo) : (s.putCalendar c x).policyClass p' j = s.policyClass p' j := rfl
@[simp] theorem putCalendar_active (s : State) (c : ChanNo) (x : Calendar) (d' : ChanNo) (l' : Level) : (s.putCalendar c x).active d' l' = s.active d' l' := rfl
@[simp] theorem putCalendar_contentionOf (s : State) (c : ChanNo) (x : Calendar) (d' : ChanNo) : (s.putCalendar c x).contentionOf d' = s.contentionOf d' := rfl
@[simp] theorem putCalendar_pollQueue (s : State) (c : ChanNo) (x : Calendar) (d' : ChanNo) : (s.putCalendar c x).pollQueue d' = s.pollQueue d' := rfl
@[simp] theorem putCalendar_sweepPointer (s : State) (c : ChanNo) (x : Calendar) (d' : ChanNo) : (s.putCalendar c x).sweepPointer d' = s.sweepPointer d' := rfl
@[simp] theorem putCalendar_buildCondition (s : State) (c : ChanNo) (x : Calendar) (d' : ChanNo) : (s.putCalendar c x).buildCondition d' = s.buildCondition d' := rfl
@[simp] theorem putCalendar_planStore (s : State) (c : ChanNo) (x : Calendar) (d' : ChanNo) : (s.putCalendar c x).planStore d' = s.planStore d' := rfl
@[simp] theorem putCalendar_expectQueue (s : State) (c : ChanNo) (x : Calendar) (d' : ChanNo) : (s.putCalendar c x).expectQueue d' = s.expectQueue d' := rfl
@[simp] theorem putCalendar_counter (s : State) (c : ChanNo) (x : Calendar) (d' : ChanNo) (j : ChannelCounter) : (s.putCalendar c x).counter d' j = s.counter d' j := rfl
@[simp] theorem putCalendar_deviceCounter (s : State) (c : ChanNo) (x : Calendar) (j : DeviceCounter) : (s.putCalendar c x).deviceCounter j = s.deviceCounter j := rfl
@[simp] theorem putCalendar_notice (s : State) (c : ChanNo) (x : Calendar) (j : NoticeKind) : (s.putCalendar c x).notice j = s.notice j := rfl
@[simp] theorem putCalendar_lookupIdentity (s : State) (c : ChanNo) (x : Calendar) (h' : HwId) : (s.putCalendar c x).lookupIdentity h' = s.lookupIdentity h' := rfl

/-! ### putContention -/

@[simp] theorem putContention_pending (s : State) (c : ChanNo) (x : Contention) : (s.putContention c x).pending = s.pending := rfl
@[simp] theorem putContention_lastReference (s : State) (c : ChanNo) (x : Contention) : (s.putContention c x).lastReference = s.lastReference := rfl
@[simp] theorem putContention_referenceSeen (s : State) (c : ChanNo) (x : Contention) : (s.putContention c x).referenceSeen = s.referenceSeen := rfl
@[simp] theorem putContention_channels (s : State) (c : ChanNo) (x : Contention) : (s.putContention c x).channels = s.channels := rfl
@[simp] theorem putContention_stations (s : State) (c : ChanNo) (x : Contention) : (s.putContention c x).stations = s.stations := rfl
@[simp] theorem putContention_freeList (s : State) (c : ChanNo) (x : Contention) : (s.putContention c x).freeList = s.freeList := rfl
@[simp] theorem putContention_identity (s : State) (c : ChanNo) (x : Contention) : (s.putContention c x).identity = s.identity := rfl
@[simp] theorem putContention_flows (s : State) (c : ChanNo) (x : Contention) : (s.putContention c x).flows = s.flows := rfl
@[simp] theorem putContention_policyA (s : State) (c : ChanNo) (x : Contention) : (s.putContention c x).policyA = s.policyA := rfl
@[simp] theorem putContention_policyB (s : State) (c : ChanNo) (x : Contention) : (s.putContention c x).policyB = s.policyB := rfl
@[simp] theorem putContention_requestMarks (s : State) (c : ChanNo) (x : Contention) : (s.putContention c x).requestMarks = s.requestMarks := rfl
@[simp] theorem putContention_activeLists (s : State) (c : ChanNo) (x : Contention) : (s.putContention c x).activeLists = s.activeLists := rfl
@[simp] theorem putContention_calendars (s : State) (c : ChanNo) (x : Contention) : (s.putContention c x).calendars = s.calendars := rfl
@[simp] theorem putContention_pollQueues (s : State) (c : ChanNo) (x : Contention) : (s.putContention c x).pollQueues = s.pollQueues := rfl
@[simp] theorem putContention_sweepPointers (s : State) (c : ChanNo) (x : Contention) : (s.putContention c x).sweepPointers = s.sweepPointers := rfl
@[simp] theorem putContention_adjustQueue (s : State) (c : ChanNo) (x : Contention) : (s.putContention c x).adjustQueue = s.adjustQueue := rfl
@[simp] theorem putContention_engine (s : State) (c : ChanNo) (x : Contention) : (s.putContention c x).engine = s.engine := rfl
@[simp] theorem putContention_buildConditions (s : State) (c : ChanNo) (x : Contention) : (s.putContention c x).buildConditions = s.buildConditions := rfl
@[simp] theorem putContention_buildQueue (s : State) (c : ChanNo) (x : Contention) : (s.putContention c x).buildQueue = s.buildQueue := rfl
@[simp] theorem putContention_planStores (s : State) (c : ChanNo) (x : Contention) : (s.putContention c x).planStores = s.planStores := rfl
@[simp] theorem putContention_planLinkHold (s : State) (c : ChanNo) (x : Contention) : (s.putContention c x).planLinkHold = s.planLinkHold := rfl
@[simp] theorem putContention_planLink (s : State) (c : ChanNo) (x : Contention) : (s.putContention c x).planLink = s.planLink := rfl
@[simp] theorem putContention_expectQueues (s : State) (c : ChanNo) (x : Contention) : (s.putContention c x).expectQueues = s.expectQueues := rfl
@[simp] theorem putContention_strayRing (s : State) (c : ChanNo) (x : Contention) : (s.putContention c x).strayRing = s.strayRing := rfl
@[simp] theorem putContention_overwrites (s : State) (c : ChanNo) (x : Contention) : (s.putContention c x).overwrites = s.overwrites := rfl
@[simp] theorem putContention_forwardBuffer (s : State) (c : ChanNo) (x : Contention) : (s.putContention c x).forwardBuffer = s.forwardBuffer := rfl
@[simp] theorem putContention_systemLink (s : State) (c : ChanNo) (x : Contention) : (s.putContention c x).systemLink = s.systemLink := rfl
@[simp] theorem putContention_controlQueue (s : State) (c : ChanNo) (x : Contention) : (s.putContention c x).controlQueue = s.controlQueue := rfl
@[simp] theorem putContention_inboundHold (s : State) (c : ChanNo) (x : Contention) : (s.putContention c x).inboundHold = s.inboundHold := rfl
@[simp] theorem putContention_heldArrival (s : State) (c : ChanNo) (x : Contention) : (s.putContention c x).heldArrival = s.heldArrival := rfl
@[simp] theorem putContention_execution (s : State) (c : ChanNo) (x : Contention) : (s.putContention c x).execution = s.execution := rfl
@[simp] theorem putContention_responseQueue (s : State) (c : ChanNo) (x : Contention) : (s.putContention c x).responseQueue = s.responseQueue := rfl
@[simp] theorem putContention_channelCounters (s : State) (c : ChanNo) (x : Contention) : (s.putContention c x).channelCounters = s.channelCounters := rfl
@[simp] theorem putContention_deviceCounters (s : State) (c : ChanNo) (x : Contention) : (s.putContention c x).deviceCounters = s.deviceCounters := rfl
@[simp] theorem putContention_noticeEnable (s : State) (c : ChanNo) (x : Contention) : (s.putContention c x).noticeEnable = s.noticeEnable := rfl
@[simp] theorem putContention_notices (s : State) (c : ChanNo) (x : Contention) : (s.putContention c x).notices = s.notices := rfl
@[simp] theorem putContention_freeDraws (s : State) (c : ChanNo) (x : Contention) : (s.putContention c x).freeDraws = s.freeDraws := rfl
@[simp] theorem putContention_context (s : State) (c : ChanNo) (x : Contention) (d' : ChanNo) : (s.putContention c x).context d' = s.context d' := rfl
@[simp] theorem putContention_params (s : State) (c : ChanNo) (x : Contention) (d' : ChanNo) : (s.putContention c x).params d' = s.params d' := rfl
@[simp] theorem putContention_profile (s : State) (c : ChanNo) (x : Contention) (d' : ChanNo) : (s.putContention c x).profile d' = s.profile d' := rfl
@[simp] theorem putContention_station (s : State) (c : ChanNo) (x : Contention) (n' : StationNo) : (s.putContention c x).station n' = s.station n' := rfl
@[simp] theorem putContention_flow (s : State) (c : ChanNo) (x : Contention) (f' : FlowNo) : (s.putContention c x).flow f' = s.flow f' := rfl
@[simp] theorem putContention_policyClass (s : State) (c : ChanNo) (x : Contention) (p' : PolicySelect) (j : ClassNo) : (s.putContention c x).policyClass p' j = s.policyClass p' j := rfl
@[simp] theorem putContention_active (s : State) (c : ChanNo) (x : Contention) (d' : ChanNo) (l' : Level) : (s.putContention c x).active d' l' = s.active d' l' := rfl
@[simp] theorem putContention_calendar (s : State) (c : ChanNo) (x : Contention) (d' : ChanNo) : (s.putContention c x).calendar d' = s.calendar d' := rfl
@[simp] theorem putContention_pollQueue (s : State) (c : ChanNo) (x : Contention) (d' : ChanNo) : (s.putContention c x).pollQueue d' = s.pollQueue d' := rfl
@[simp] theorem putContention_sweepPointer (s : State) (c : ChanNo) (x : Contention) (d' : ChanNo) : (s.putContention c x).sweepPointer d' = s.sweepPointer d' := rfl
@[simp] theorem putContention_buildCondition (s : State) (c : ChanNo) (x : Contention) (d' : ChanNo) : (s.putContention c x).buildCondition d' = s.buildCondition d' := rfl
@[simp] theorem putContention_planStore (s : State) (c : ChanNo) (x : Contention) (d' : ChanNo) : (s.putContention c x).planStore d' = s.planStore d' := rfl
@[simp] theorem putContention_expectQueue (s : State) (c : ChanNo) (x : Contention) (d' : ChanNo) : (s.putContention c x).expectQueue d' = s.expectQueue d' := rfl
@[simp] theorem putContention_counter (s : State) (c : ChanNo) (x : Contention) (d' : ChanNo) (j : ChannelCounter) : (s.putContention c x).counter d' j = s.counter d' j := rfl
@[simp] theorem putContention_deviceCounter (s : State) (c : ChanNo) (x : Contention) (j : DeviceCounter) : (s.putContention c x).deviceCounter j = s.deviceCounter j := rfl
@[simp] theorem putContention_notice (s : State) (c : ChanNo) (x : Contention) (j : NoticeKind) : (s.putContention c x).notice j = s.notice j := rfl
@[simp] theorem putContention_lookupIdentity (s : State) (c : ChanNo) (x : Contention) (h' : HwId) : (s.putContention c x).lookupIdentity h' = s.lookupIdentity h' := rfl

/-! ### putPollQueue -/

@[simp] theorem putPollQueue_pending (s : State) (c : ChanNo) (q : List StationNo) : (s.putPollQueue c q).pending = s.pending := rfl
@[simp] theorem putPollQueue_lastReference (s : State) (c : ChanNo) (q : List StationNo) : (s.putPollQueue c q).lastReference = s.lastReference := rfl
@[simp] theorem putPollQueue_referenceSeen (s : State) (c : ChanNo) (q : List StationNo) : (s.putPollQueue c q).referenceSeen = s.referenceSeen := rfl
@[simp] theorem putPollQueue_channels (s : State) (c : ChanNo) (q : List StationNo) : (s.putPollQueue c q).channels = s.channels := rfl
@[simp] theorem putPollQueue_stations (s : State) (c : ChanNo) (q : List StationNo) : (s.putPollQueue c q).stations = s.stations := rfl
@[simp] theorem putPollQueue_freeList (s : State) (c : ChanNo) (q : List StationNo) : (s.putPollQueue c q).freeList = s.freeList := rfl
@[simp] theorem putPollQueue_identity (s : State) (c : ChanNo) (q : List StationNo) : (s.putPollQueue c q).identity = s.identity := rfl
@[simp] theorem putPollQueue_flows (s : State) (c : ChanNo) (q : List StationNo) : (s.putPollQueue c q).flows = s.flows := rfl
@[simp] theorem putPollQueue_policyA (s : State) (c : ChanNo) (q : List StationNo) : (s.putPollQueue c q).policyA = s.policyA := rfl
@[simp] theorem putPollQueue_policyB (s : State) (c : ChanNo) (q : List StationNo) : (s.putPollQueue c q).policyB = s.policyB := rfl
@[simp] theorem putPollQueue_requestMarks (s : State) (c : ChanNo) (q : List StationNo) : (s.putPollQueue c q).requestMarks = s.requestMarks := rfl
@[simp] theorem putPollQueue_activeLists (s : State) (c : ChanNo) (q : List StationNo) : (s.putPollQueue c q).activeLists = s.activeLists := rfl
@[simp] theorem putPollQueue_calendars (s : State) (c : ChanNo) (q : List StationNo) : (s.putPollQueue c q).calendars = s.calendars := rfl
@[simp] theorem putPollQueue_contention (s : State) (c : ChanNo) (q : List StationNo) : (s.putPollQueue c q).contention = s.contention := rfl
@[simp] theorem putPollQueue_sweepPointers (s : State) (c : ChanNo) (q : List StationNo) : (s.putPollQueue c q).sweepPointers = s.sweepPointers := rfl
@[simp] theorem putPollQueue_adjustQueue (s : State) (c : ChanNo) (q : List StationNo) : (s.putPollQueue c q).adjustQueue = s.adjustQueue := rfl
@[simp] theorem putPollQueue_engine (s : State) (c : ChanNo) (q : List StationNo) : (s.putPollQueue c q).engine = s.engine := rfl
@[simp] theorem putPollQueue_buildConditions (s : State) (c : ChanNo) (q : List StationNo) : (s.putPollQueue c q).buildConditions = s.buildConditions := rfl
@[simp] theorem putPollQueue_buildQueue (s : State) (c : ChanNo) (q : List StationNo) : (s.putPollQueue c q).buildQueue = s.buildQueue := rfl
@[simp] theorem putPollQueue_planStores (s : State) (c : ChanNo) (q : List StationNo) : (s.putPollQueue c q).planStores = s.planStores := rfl
@[simp] theorem putPollQueue_planLinkHold (s : State) (c : ChanNo) (q : List StationNo) : (s.putPollQueue c q).planLinkHold = s.planLinkHold := rfl
@[simp] theorem putPollQueue_planLink (s : State) (c : ChanNo) (q : List StationNo) : (s.putPollQueue c q).planLink = s.planLink := rfl
@[simp] theorem putPollQueue_expectQueues (s : State) (c : ChanNo) (q : List StationNo) : (s.putPollQueue c q).expectQueues = s.expectQueues := rfl
@[simp] theorem putPollQueue_strayRing (s : State) (c : ChanNo) (q : List StationNo) : (s.putPollQueue c q).strayRing = s.strayRing := rfl
@[simp] theorem putPollQueue_overwrites (s : State) (c : ChanNo) (q : List StationNo) : (s.putPollQueue c q).overwrites = s.overwrites := rfl
@[simp] theorem putPollQueue_forwardBuffer (s : State) (c : ChanNo) (q : List StationNo) : (s.putPollQueue c q).forwardBuffer = s.forwardBuffer := rfl
@[simp] theorem putPollQueue_systemLink (s : State) (c : ChanNo) (q : List StationNo) : (s.putPollQueue c q).systemLink = s.systemLink := rfl
@[simp] theorem putPollQueue_controlQueue (s : State) (c : ChanNo) (q : List StationNo) : (s.putPollQueue c q).controlQueue = s.controlQueue := rfl
@[simp] theorem putPollQueue_inboundHold (s : State) (c : ChanNo) (q : List StationNo) : (s.putPollQueue c q).inboundHold = s.inboundHold := rfl
@[simp] theorem putPollQueue_heldArrival (s : State) (c : ChanNo) (q : List StationNo) : (s.putPollQueue c q).heldArrival = s.heldArrival := rfl
@[simp] theorem putPollQueue_execution (s : State) (c : ChanNo) (q : List StationNo) : (s.putPollQueue c q).execution = s.execution := rfl
@[simp] theorem putPollQueue_responseQueue (s : State) (c : ChanNo) (q : List StationNo) : (s.putPollQueue c q).responseQueue = s.responseQueue := rfl
@[simp] theorem putPollQueue_channelCounters (s : State) (c : ChanNo) (q : List StationNo) : (s.putPollQueue c q).channelCounters = s.channelCounters := rfl
@[simp] theorem putPollQueue_deviceCounters (s : State) (c : ChanNo) (q : List StationNo) : (s.putPollQueue c q).deviceCounters = s.deviceCounters := rfl
@[simp] theorem putPollQueue_noticeEnable (s : State) (c : ChanNo) (q : List StationNo) : (s.putPollQueue c q).noticeEnable = s.noticeEnable := rfl
@[simp] theorem putPollQueue_notices (s : State) (c : ChanNo) (q : List StationNo) : (s.putPollQueue c q).notices = s.notices := rfl
@[simp] theorem putPollQueue_freeDraws (s : State) (c : ChanNo) (q : List StationNo) : (s.putPollQueue c q).freeDraws = s.freeDraws := rfl
@[simp] theorem putPollQueue_context (s : State) (c : ChanNo) (q : List StationNo) (d' : ChanNo) : (s.putPollQueue c q).context d' = s.context d' := rfl
@[simp] theorem putPollQueue_params (s : State) (c : ChanNo) (q : List StationNo) (d' : ChanNo) : (s.putPollQueue c q).params d' = s.params d' := rfl
@[simp] theorem putPollQueue_profile (s : State) (c : ChanNo) (q : List StationNo) (d' : ChanNo) : (s.putPollQueue c q).profile d' = s.profile d' := rfl
@[simp] theorem putPollQueue_station (s : State) (c : ChanNo) (q : List StationNo) (n' : StationNo) : (s.putPollQueue c q).station n' = s.station n' := rfl
@[simp] theorem putPollQueue_flow (s : State) (c : ChanNo) (q : List StationNo) (f' : FlowNo) : (s.putPollQueue c q).flow f' = s.flow f' := rfl
@[simp] theorem putPollQueue_policyClass (s : State) (c : ChanNo) (q : List StationNo) (p' : PolicySelect) (j : ClassNo) : (s.putPollQueue c q).policyClass p' j = s.policyClass p' j := rfl
@[simp] theorem putPollQueue_active (s : State) (c : ChanNo) (q : List StationNo) (d' : ChanNo) (l' : Level) : (s.putPollQueue c q).active d' l' = s.active d' l' := rfl
@[simp] theorem putPollQueue_calendar (s : State) (c : ChanNo) (q : List StationNo) (d' : ChanNo) : (s.putPollQueue c q).calendar d' = s.calendar d' := rfl
@[simp] theorem putPollQueue_contentionOf (s : State) (c : ChanNo) (q : List StationNo) (d' : ChanNo) : (s.putPollQueue c q).contentionOf d' = s.contentionOf d' := rfl
@[simp] theorem putPollQueue_sweepPointer (s : State) (c : ChanNo) (q : List StationNo) (d' : ChanNo) : (s.putPollQueue c q).sweepPointer d' = s.sweepPointer d' := rfl
@[simp] theorem putPollQueue_buildCondition (s : State) (c : ChanNo) (q : List StationNo) (d' : ChanNo) : (s.putPollQueue c q).buildCondition d' = s.buildCondition d' := rfl
@[simp] theorem putPollQueue_planStore (s : State) (c : ChanNo) (q : List StationNo) (d' : ChanNo) : (s.putPollQueue c q).planStore d' = s.planStore d' := rfl
@[simp] theorem putPollQueue_expectQueue (s : State) (c : ChanNo) (q : List StationNo) (d' : ChanNo) : (s.putPollQueue c q).expectQueue d' = s.expectQueue d' := rfl
@[simp] theorem putPollQueue_counter (s : State) (c : ChanNo) (q : List StationNo) (d' : ChanNo) (j : ChannelCounter) : (s.putPollQueue c q).counter d' j = s.counter d' j := rfl
@[simp] theorem putPollQueue_deviceCounter (s : State) (c : ChanNo) (q : List StationNo) (j : DeviceCounter) : (s.putPollQueue c q).deviceCounter j = s.deviceCounter j := rfl
@[simp] theorem putPollQueue_notice (s : State) (c : ChanNo) (q : List StationNo) (j : NoticeKind) : (s.putPollQueue c q).notice j = s.notice j := rfl
@[simp] theorem putPollQueue_lookupIdentity (s : State) (c : ChanNo) (q : List StationNo) (h' : HwId) : (s.putPollQueue c q).lookupIdentity h' = s.lookupIdentity h' := rfl

/-! ### putSweepPointer -/

@[simp] theorem putSweepPointer_pending (s : State) (c : ChanNo) (n : StationNo) : (s.putSweepPointer c n).pending = s.pending := rfl
@[simp] theorem putSweepPointer_lastReference (s : State) (c : ChanNo) (n : StationNo) : (s.putSweepPointer c n).lastReference = s.lastReference := rfl
@[simp] theorem putSweepPointer_referenceSeen (s : State) (c : ChanNo) (n : StationNo) : (s.putSweepPointer c n).referenceSeen = s.referenceSeen := rfl
@[simp] theorem putSweepPointer_channels (s : State) (c : ChanNo) (n : StationNo) : (s.putSweepPointer c n).channels = s.channels := rfl
@[simp] theorem putSweepPointer_stations (s : State) (c : ChanNo) (n : StationNo) : (s.putSweepPointer c n).stations = s.stations := rfl
@[simp] theorem putSweepPointer_freeList (s : State) (c : ChanNo) (n : StationNo) : (s.putSweepPointer c n).freeList = s.freeList := rfl
@[simp] theorem putSweepPointer_identity (s : State) (c : ChanNo) (n : StationNo) : (s.putSweepPointer c n).identity = s.identity := rfl
@[simp] theorem putSweepPointer_flows (s : State) (c : ChanNo) (n : StationNo) : (s.putSweepPointer c n).flows = s.flows := rfl
@[simp] theorem putSweepPointer_policyA (s : State) (c : ChanNo) (n : StationNo) : (s.putSweepPointer c n).policyA = s.policyA := rfl
@[simp] theorem putSweepPointer_policyB (s : State) (c : ChanNo) (n : StationNo) : (s.putSweepPointer c n).policyB = s.policyB := rfl
@[simp] theorem putSweepPointer_requestMarks (s : State) (c : ChanNo) (n : StationNo) : (s.putSweepPointer c n).requestMarks = s.requestMarks := rfl
@[simp] theorem putSweepPointer_activeLists (s : State) (c : ChanNo) (n : StationNo) : (s.putSweepPointer c n).activeLists = s.activeLists := rfl
@[simp] theorem putSweepPointer_calendars (s : State) (c : ChanNo) (n : StationNo) : (s.putSweepPointer c n).calendars = s.calendars := rfl
@[simp] theorem putSweepPointer_contention (s : State) (c : ChanNo) (n : StationNo) : (s.putSweepPointer c n).contention = s.contention := rfl
@[simp] theorem putSweepPointer_pollQueues (s : State) (c : ChanNo) (n : StationNo) : (s.putSweepPointer c n).pollQueues = s.pollQueues := rfl
@[simp] theorem putSweepPointer_adjustQueue (s : State) (c : ChanNo) (n : StationNo) : (s.putSweepPointer c n).adjustQueue = s.adjustQueue := rfl
@[simp] theorem putSweepPointer_engine (s : State) (c : ChanNo) (n : StationNo) : (s.putSweepPointer c n).engine = s.engine := rfl
@[simp] theorem putSweepPointer_buildConditions (s : State) (c : ChanNo) (n : StationNo) : (s.putSweepPointer c n).buildConditions = s.buildConditions := rfl
@[simp] theorem putSweepPointer_buildQueue (s : State) (c : ChanNo) (n : StationNo) : (s.putSweepPointer c n).buildQueue = s.buildQueue := rfl
@[simp] theorem putSweepPointer_planStores (s : State) (c : ChanNo) (n : StationNo) : (s.putSweepPointer c n).planStores = s.planStores := rfl
@[simp] theorem putSweepPointer_planLinkHold (s : State) (c : ChanNo) (n : StationNo) : (s.putSweepPointer c n).planLinkHold = s.planLinkHold := rfl
@[simp] theorem putSweepPointer_planLink (s : State) (c : ChanNo) (n : StationNo) : (s.putSweepPointer c n).planLink = s.planLink := rfl
@[simp] theorem putSweepPointer_expectQueues (s : State) (c : ChanNo) (n : StationNo) : (s.putSweepPointer c n).expectQueues = s.expectQueues := rfl
@[simp] theorem putSweepPointer_strayRing (s : State) (c : ChanNo) (n : StationNo) : (s.putSweepPointer c n).strayRing = s.strayRing := rfl
@[simp] theorem putSweepPointer_overwrites (s : State) (c : ChanNo) (n : StationNo) : (s.putSweepPointer c n).overwrites = s.overwrites := rfl
@[simp] theorem putSweepPointer_forwardBuffer (s : State) (c : ChanNo) (n : StationNo) : (s.putSweepPointer c n).forwardBuffer = s.forwardBuffer := rfl
@[simp] theorem putSweepPointer_systemLink (s : State) (c : ChanNo) (n : StationNo) : (s.putSweepPointer c n).systemLink = s.systemLink := rfl
@[simp] theorem putSweepPointer_controlQueue (s : State) (c : ChanNo) (n : StationNo) : (s.putSweepPointer c n).controlQueue = s.controlQueue := rfl
@[simp] theorem putSweepPointer_inboundHold (s : State) (c : ChanNo) (n : StationNo) : (s.putSweepPointer c n).inboundHold = s.inboundHold := rfl
@[simp] theorem putSweepPointer_heldArrival (s : State) (c : ChanNo) (n : StationNo) : (s.putSweepPointer c n).heldArrival = s.heldArrival := rfl
@[simp] theorem putSweepPointer_execution (s : State) (c : ChanNo) (n : StationNo) : (s.putSweepPointer c n).execution = s.execution := rfl
@[simp] theorem putSweepPointer_responseQueue (s : State) (c : ChanNo) (n : StationNo) : (s.putSweepPointer c n).responseQueue = s.responseQueue := rfl
@[simp] theorem putSweepPointer_channelCounters (s : State) (c : ChanNo) (n : StationNo) : (s.putSweepPointer c n).channelCounters = s.channelCounters := rfl
@[simp] theorem putSweepPointer_deviceCounters (s : State) (c : ChanNo) (n : StationNo) : (s.putSweepPointer c n).deviceCounters = s.deviceCounters := rfl
@[simp] theorem putSweepPointer_noticeEnable (s : State) (c : ChanNo) (n : StationNo) : (s.putSweepPointer c n).noticeEnable = s.noticeEnable := rfl
@[simp] theorem putSweepPointer_notices (s : State) (c : ChanNo) (n : StationNo) : (s.putSweepPointer c n).notices = s.notices := rfl
@[simp] theorem putSweepPointer_freeDraws (s : State) (c : ChanNo) (n : StationNo) : (s.putSweepPointer c n).freeDraws = s.freeDraws := rfl
@[simp] theorem putSweepPointer_context (s : State) (c : ChanNo) (n : StationNo) (d' : ChanNo) : (s.putSweepPointer c n).context d' = s.context d' := rfl
@[simp] theorem putSweepPointer_params (s : State) (c : ChanNo) (n : StationNo) (d' : ChanNo) : (s.putSweepPointer c n).params d' = s.params d' := rfl
@[simp] theorem putSweepPointer_profile (s : State) (c : ChanNo) (n : StationNo) (d' : ChanNo) : (s.putSweepPointer c n).profile d' = s.profile d' := rfl
@[simp] theorem putSweepPointer_station (s : State) (c : ChanNo) (n : StationNo) (n' : StationNo) : (s.putSweepPointer c n).station n' = s.station n' := rfl
@[simp] theorem putSweepPointer_flow (s : State) (c : ChanNo) (n : StationNo) (f' : FlowNo) : (s.putSweepPointer c n).flow f' = s.flow f' := rfl
@[simp] theorem putSweepPointer_policyClass (s : State) (c : ChanNo) (n : StationNo) (p' : PolicySelect) (j : ClassNo) : (s.putSweepPointer c n).policyClass p' j = s.policyClass p' j := rfl
@[simp] theorem putSweepPointer_active (s : State) (c : ChanNo) (n : StationNo) (d' : ChanNo) (l' : Level) : (s.putSweepPointer c n).active d' l' = s.active d' l' := rfl
@[simp] theorem putSweepPointer_calendar (s : State) (c : ChanNo) (n : StationNo) (d' : ChanNo) : (s.putSweepPointer c n).calendar d' = s.calendar d' := rfl
@[simp] theorem putSweepPointer_contentionOf (s : State) (c : ChanNo) (n : StationNo) (d' : ChanNo) : (s.putSweepPointer c n).contentionOf d' = s.contentionOf d' := rfl
@[simp] theorem putSweepPointer_pollQueue (s : State) (c : ChanNo) (n : StationNo) (d' : ChanNo) : (s.putSweepPointer c n).pollQueue d' = s.pollQueue d' := rfl
@[simp] theorem putSweepPointer_buildCondition (s : State) (c : ChanNo) (n : StationNo) (d' : ChanNo) : (s.putSweepPointer c n).buildCondition d' = s.buildCondition d' := rfl
@[simp] theorem putSweepPointer_planStore (s : State) (c : ChanNo) (n : StationNo) (d' : ChanNo) : (s.putSweepPointer c n).planStore d' = s.planStore d' := rfl
@[simp] theorem putSweepPointer_expectQueue (s : State) (c : ChanNo) (n : StationNo) (d' : ChanNo) : (s.putSweepPointer c n).expectQueue d' = s.expectQueue d' := rfl
@[simp] theorem putSweepPointer_counter (s : State) (c : ChanNo) (n : StationNo) (d' : ChanNo) (j : ChannelCounter) : (s.putSweepPointer c n).counter d' j = s.counter d' j := rfl
@[simp] theorem putSweepPointer_deviceCounter (s : State) (c : ChanNo) (n : StationNo) (j : DeviceCounter) : (s.putSweepPointer c n).deviceCounter j = s.deviceCounter j := rfl
@[simp] theorem putSweepPointer_notice (s : State) (c : ChanNo) (n : StationNo) (j : NoticeKind) : (s.putSweepPointer c n).notice j = s.notice j := rfl
@[simp] theorem putSweepPointer_lookupIdentity (s : State) (c : ChanNo) (n : StationNo) (h' : HwId) : (s.putSweepPointer c n).lookupIdentity h' = s.lookupIdentity h' := rfl

/-! ### putAdjustQueue -/

@[simp] theorem putAdjustQueue_pending (s : State) (q : List AdjustEntry) : (s.putAdjustQueue q).pending = s.pending := rfl
@[simp] theorem putAdjustQueue_lastReference (s : State) (q : List AdjustEntry) : (s.putAdjustQueue q).lastReference = s.lastReference := rfl
@[simp] theorem putAdjustQueue_referenceSeen (s : State) (q : List AdjustEntry) : (s.putAdjustQueue q).referenceSeen = s.referenceSeen := rfl
@[simp] theorem putAdjustQueue_channels (s : State) (q : List AdjustEntry) : (s.putAdjustQueue q).channels = s.channels := rfl
@[simp] theorem putAdjustQueue_stations (s : State) (q : List AdjustEntry) : (s.putAdjustQueue q).stations = s.stations := rfl
@[simp] theorem putAdjustQueue_freeList (s : State) (q : List AdjustEntry) : (s.putAdjustQueue q).freeList = s.freeList := rfl
@[simp] theorem putAdjustQueue_identity (s : State) (q : List AdjustEntry) : (s.putAdjustQueue q).identity = s.identity := rfl
@[simp] theorem putAdjustQueue_flows (s : State) (q : List AdjustEntry) : (s.putAdjustQueue q).flows = s.flows := rfl
@[simp] theorem putAdjustQueue_policyA (s : State) (q : List AdjustEntry) : (s.putAdjustQueue q).policyA = s.policyA := rfl
@[simp] theorem putAdjustQueue_policyB (s : State) (q : List AdjustEntry) : (s.putAdjustQueue q).policyB = s.policyB := rfl
@[simp] theorem putAdjustQueue_requestMarks (s : State) (q : List AdjustEntry) : (s.putAdjustQueue q).requestMarks = s.requestMarks := rfl
@[simp] theorem putAdjustQueue_activeLists (s : State) (q : List AdjustEntry) : (s.putAdjustQueue q).activeLists = s.activeLists := rfl
@[simp] theorem putAdjustQueue_calendars (s : State) (q : List AdjustEntry) : (s.putAdjustQueue q).calendars = s.calendars := rfl
@[simp] theorem putAdjustQueue_contention (s : State) (q : List AdjustEntry) : (s.putAdjustQueue q).contention = s.contention := rfl
@[simp] theorem putAdjustQueue_pollQueues (s : State) (q : List AdjustEntry) : (s.putAdjustQueue q).pollQueues = s.pollQueues := rfl
@[simp] theorem putAdjustQueue_sweepPointers (s : State) (q : List AdjustEntry) : (s.putAdjustQueue q).sweepPointers = s.sweepPointers := rfl
@[simp] theorem putAdjustQueue_engine (s : State) (q : List AdjustEntry) : (s.putAdjustQueue q).engine = s.engine := rfl
@[simp] theorem putAdjustQueue_buildConditions (s : State) (q : List AdjustEntry) : (s.putAdjustQueue q).buildConditions = s.buildConditions := rfl
@[simp] theorem putAdjustQueue_buildQueue (s : State) (q : List AdjustEntry) : (s.putAdjustQueue q).buildQueue = s.buildQueue := rfl
@[simp] theorem putAdjustQueue_planStores (s : State) (q : List AdjustEntry) : (s.putAdjustQueue q).planStores = s.planStores := rfl
@[simp] theorem putAdjustQueue_planLinkHold (s : State) (q : List AdjustEntry) : (s.putAdjustQueue q).planLinkHold = s.planLinkHold := rfl
@[simp] theorem putAdjustQueue_planLink (s : State) (q : List AdjustEntry) : (s.putAdjustQueue q).planLink = s.planLink := rfl
@[simp] theorem putAdjustQueue_expectQueues (s : State) (q : List AdjustEntry) : (s.putAdjustQueue q).expectQueues = s.expectQueues := rfl
@[simp] theorem putAdjustQueue_strayRing (s : State) (q : List AdjustEntry) : (s.putAdjustQueue q).strayRing = s.strayRing := rfl
@[simp] theorem putAdjustQueue_overwrites (s : State) (q : List AdjustEntry) : (s.putAdjustQueue q).overwrites = s.overwrites := rfl
@[simp] theorem putAdjustQueue_forwardBuffer (s : State) (q : List AdjustEntry) : (s.putAdjustQueue q).forwardBuffer = s.forwardBuffer := rfl
@[simp] theorem putAdjustQueue_systemLink (s : State) (q : List AdjustEntry) : (s.putAdjustQueue q).systemLink = s.systemLink := rfl
@[simp] theorem putAdjustQueue_controlQueue (s : State) (q : List AdjustEntry) : (s.putAdjustQueue q).controlQueue = s.controlQueue := rfl
@[simp] theorem putAdjustQueue_inboundHold (s : State) (q : List AdjustEntry) : (s.putAdjustQueue q).inboundHold = s.inboundHold := rfl
@[simp] theorem putAdjustQueue_heldArrival (s : State) (q : List AdjustEntry) : (s.putAdjustQueue q).heldArrival = s.heldArrival := rfl
@[simp] theorem putAdjustQueue_execution (s : State) (q : List AdjustEntry) : (s.putAdjustQueue q).execution = s.execution := rfl
@[simp] theorem putAdjustQueue_responseQueue (s : State) (q : List AdjustEntry) : (s.putAdjustQueue q).responseQueue = s.responseQueue := rfl
@[simp] theorem putAdjustQueue_channelCounters (s : State) (q : List AdjustEntry) : (s.putAdjustQueue q).channelCounters = s.channelCounters := rfl
@[simp] theorem putAdjustQueue_deviceCounters (s : State) (q : List AdjustEntry) : (s.putAdjustQueue q).deviceCounters = s.deviceCounters := rfl
@[simp] theorem putAdjustQueue_noticeEnable (s : State) (q : List AdjustEntry) : (s.putAdjustQueue q).noticeEnable = s.noticeEnable := rfl
@[simp] theorem putAdjustQueue_notices (s : State) (q : List AdjustEntry) : (s.putAdjustQueue q).notices = s.notices := rfl
@[simp] theorem putAdjustQueue_freeDraws (s : State) (q : List AdjustEntry) : (s.putAdjustQueue q).freeDraws = s.freeDraws := rfl
@[simp] theorem putAdjustQueue_adjustQueue (s : State) (q : List AdjustEntry) : (s.putAdjustQueue q).adjustQueue = q := rfl
@[simp] theorem putAdjustQueue_context (s : State) (q : List AdjustEntry) (d' : ChanNo) : (s.putAdjustQueue q).context d' = s.context d' := rfl
@[simp] theorem putAdjustQueue_params (s : State) (q : List AdjustEntry) (d' : ChanNo) : (s.putAdjustQueue q).params d' = s.params d' := rfl
@[simp] theorem putAdjustQueue_profile (s : State) (q : List AdjustEntry) (d' : ChanNo) : (s.putAdjustQueue q).profile d' = s.profile d' := rfl
@[simp] theorem putAdjustQueue_station (s : State) (q : List AdjustEntry) (n' : StationNo) : (s.putAdjustQueue q).station n' = s.station n' := rfl
@[simp] theorem putAdjustQueue_flow (s : State) (q : List AdjustEntry) (f' : FlowNo) : (s.putAdjustQueue q).flow f' = s.flow f' := rfl
@[simp] theorem putAdjustQueue_policyClass (s : State) (q : List AdjustEntry) (p' : PolicySelect) (j : ClassNo) : (s.putAdjustQueue q).policyClass p' j = s.policyClass p' j := rfl
@[simp] theorem putAdjustQueue_active (s : State) (q : List AdjustEntry) (d' : ChanNo) (l' : Level) : (s.putAdjustQueue q).active d' l' = s.active d' l' := rfl
@[simp] theorem putAdjustQueue_calendar (s : State) (q : List AdjustEntry) (d' : ChanNo) : (s.putAdjustQueue q).calendar d' = s.calendar d' := rfl
@[simp] theorem putAdjustQueue_contentionOf (s : State) (q : List AdjustEntry) (d' : ChanNo) : (s.putAdjustQueue q).contentionOf d' = s.contentionOf d' := rfl
@[simp] theorem putAdjustQueue_pollQueue (s : State) (q : List AdjustEntry) (d' : ChanNo) : (s.putAdjustQueue q).pollQueue d' = s.pollQueue d' := rfl
@[simp] theorem putAdjustQueue_sweepPointer (s : State) (q : List AdjustEntry) (d' : ChanNo) : (s.putAdjustQueue q).sweepPointer d' = s.sweepPointer d' := rfl
@[simp] theorem putAdjustQueue_buildCondition (s : State) (q : List AdjustEntry) (d' : ChanNo) : (s.putAdjustQueue q).buildCondition d' = s.buildCondition d' := rfl
@[simp] theorem putAdjustQueue_planStore (s : State) (q : List AdjustEntry) (d' : ChanNo) : (s.putAdjustQueue q).planStore d' = s.planStore d' := rfl
@[simp] theorem putAdjustQueue_expectQueue (s : State) (q : List AdjustEntry) (d' : ChanNo) : (s.putAdjustQueue q).expectQueue d' = s.expectQueue d' := rfl
@[simp] theorem putAdjustQueue_counter (s : State) (q : List AdjustEntry) (d' : ChanNo) (j : ChannelCounter) : (s.putAdjustQueue q).counter d' j = s.counter d' j := rfl
@[simp] theorem putAdjustQueue_deviceCounter (s : State) (q : List AdjustEntry) (j : DeviceCounter) : (s.putAdjustQueue q).deviceCounter j = s.deviceCounter j := rfl
@[simp] theorem putAdjustQueue_notice (s : State) (q : List AdjustEntry) (j : NoticeKind) : (s.putAdjustQueue q).notice j = s.notice j := rfl
@[simp] theorem putAdjustQueue_lookupIdentity (s : State) (q : List AdjustEntry) (h' : HwId) : (s.putAdjustQueue q).lookupIdentity h' = s.lookupIdentity h' := rfl

/-! ### putEngine -/

@[simp] theorem putEngine_pending (s : State) (e : Option BuildContext) : (s.putEngine e).pending = s.pending := rfl
@[simp] theorem putEngine_lastReference (s : State) (e : Option BuildContext) : (s.putEngine e).lastReference = s.lastReference := rfl
@[simp] theorem putEngine_referenceSeen (s : State) (e : Option BuildContext) : (s.putEngine e).referenceSeen = s.referenceSeen := rfl
@[simp] theorem putEngine_channels (s : State) (e : Option BuildContext) : (s.putEngine e).channels = s.channels := rfl
@[simp] theorem putEngine_stations (s : State) (e : Option BuildContext) : (s.putEngine e).stations = s.stations := rfl
@[simp] theorem putEngine_freeList (s : State) (e : Option BuildContext) : (s.putEngine e).freeList = s.freeList := rfl
@[simp] theorem putEngine_identity (s : State) (e : Option BuildContext) : (s.putEngine e).identity = s.identity := rfl
@[simp] theorem putEngine_flows (s : State) (e : Option BuildContext) : (s.putEngine e).flows = s.flows := rfl
@[simp] theorem putEngine_policyA (s : State) (e : Option BuildContext) : (s.putEngine e).policyA = s.policyA := rfl
@[simp] theorem putEngine_policyB (s : State) (e : Option BuildContext) : (s.putEngine e).policyB = s.policyB := rfl
@[simp] theorem putEngine_requestMarks (s : State) (e : Option BuildContext) : (s.putEngine e).requestMarks = s.requestMarks := rfl
@[simp] theorem putEngine_activeLists (s : State) (e : Option BuildContext) : (s.putEngine e).activeLists = s.activeLists := rfl
@[simp] theorem putEngine_calendars (s : State) (e : Option BuildContext) : (s.putEngine e).calendars = s.calendars := rfl
@[simp] theorem putEngine_contention (s : State) (e : Option BuildContext) : (s.putEngine e).contention = s.contention := rfl
@[simp] theorem putEngine_pollQueues (s : State) (e : Option BuildContext) : (s.putEngine e).pollQueues = s.pollQueues := rfl
@[simp] theorem putEngine_sweepPointers (s : State) (e : Option BuildContext) : (s.putEngine e).sweepPointers = s.sweepPointers := rfl
@[simp] theorem putEngine_adjustQueue (s : State) (e : Option BuildContext) : (s.putEngine e).adjustQueue = s.adjustQueue := rfl
@[simp] theorem putEngine_buildConditions (s : State) (e : Option BuildContext) : (s.putEngine e).buildConditions = s.buildConditions := rfl
@[simp] theorem putEngine_buildQueue (s : State) (e : Option BuildContext) : (s.putEngine e).buildQueue = s.buildQueue := rfl
@[simp] theorem putEngine_planStores (s : State) (e : Option BuildContext) : (s.putEngine e).planStores = s.planStores := rfl
@[simp] theorem putEngine_planLinkHold (s : State) (e : Option BuildContext) : (s.putEngine e).planLinkHold = s.planLinkHold := rfl
@[simp] theorem putEngine_planLink (s : State) (e : Option BuildContext) : (s.putEngine e).planLink = s.planLink := rfl
@[simp] theorem putEngine_expectQueues (s : State) (e : Option BuildContext) : (s.putEngine e).expectQueues = s.expectQueues := rfl
@[simp] theorem putEngine_strayRing (s : State) (e : Option BuildContext) : (s.putEngine e).strayRing = s.strayRing := rfl
@[simp] theorem putEngine_overwrites (s : State) (e : Option BuildContext) : (s.putEngine e).overwrites = s.overwrites := rfl
@[simp] theorem putEngine_forwardBuffer (s : State) (e : Option BuildContext) : (s.putEngine e).forwardBuffer = s.forwardBuffer := rfl
@[simp] theorem putEngine_systemLink (s : State) (e : Option BuildContext) : (s.putEngine e).systemLink = s.systemLink := rfl
@[simp] theorem putEngine_controlQueue (s : State) (e : Option BuildContext) : (s.putEngine e).controlQueue = s.controlQueue := rfl
@[simp] theorem putEngine_inboundHold (s : State) (e : Option BuildContext) : (s.putEngine e).inboundHold = s.inboundHold := rfl
@[simp] theorem putEngine_heldArrival (s : State) (e : Option BuildContext) : (s.putEngine e).heldArrival = s.heldArrival := rfl
@[simp] theorem putEngine_execution (s : State) (e : Option BuildContext) : (s.putEngine e).execution = s.execution := rfl
@[simp] theorem putEngine_responseQueue (s : State) (e : Option BuildContext) : (s.putEngine e).responseQueue = s.responseQueue := rfl
@[simp] theorem putEngine_channelCounters (s : State) (e : Option BuildContext) : (s.putEngine e).channelCounters = s.channelCounters := rfl
@[simp] theorem putEngine_deviceCounters (s : State) (e : Option BuildContext) : (s.putEngine e).deviceCounters = s.deviceCounters := rfl
@[simp] theorem putEngine_noticeEnable (s : State) (e : Option BuildContext) : (s.putEngine e).noticeEnable = s.noticeEnable := rfl
@[simp] theorem putEngine_notices (s : State) (e : Option BuildContext) : (s.putEngine e).notices = s.notices := rfl
@[simp] theorem putEngine_freeDraws (s : State) (e : Option BuildContext) : (s.putEngine e).freeDraws = s.freeDraws := rfl
@[simp] theorem putEngine_engine (s : State) (e : Option BuildContext) : (s.putEngine e).engine = e := rfl
@[simp] theorem putEngine_context (s : State) (e : Option BuildContext) (d' : ChanNo) : (s.putEngine e).context d' = s.context d' := rfl
@[simp] theorem putEngine_params (s : State) (e : Option BuildContext) (d' : ChanNo) : (s.putEngine e).params d' = s.params d' := rfl
@[simp] theorem putEngine_profile (s : State) (e : Option BuildContext) (d' : ChanNo) : (s.putEngine e).profile d' = s.profile d' := rfl
@[simp] theorem putEngine_station (s : State) (e : Option BuildContext) (n' : StationNo) : (s.putEngine e).station n' = s.station n' := rfl
@[simp] theorem putEngine_flow (s : State) (e : Option BuildContext) (f' : FlowNo) : (s.putEngine e).flow f' = s.flow f' := rfl
@[simp] theorem putEngine_policyClass (s : State) (e : Option BuildContext) (p' : PolicySelect) (j : ClassNo) : (s.putEngine e).policyClass p' j = s.policyClass p' j := rfl
@[simp] theorem putEngine_active (s : State) (e : Option BuildContext) (d' : ChanNo) (l' : Level) : (s.putEngine e).active d' l' = s.active d' l' := rfl
@[simp] theorem putEngine_calendar (s : State) (e : Option BuildContext) (d' : ChanNo) : (s.putEngine e).calendar d' = s.calendar d' := rfl
@[simp] theorem putEngine_contentionOf (s : State) (e : Option BuildContext) (d' : ChanNo) : (s.putEngine e).contentionOf d' = s.contentionOf d' := rfl
@[simp] theorem putEngine_pollQueue (s : State) (e : Option BuildContext) (d' : ChanNo) : (s.putEngine e).pollQueue d' = s.pollQueue d' := rfl
@[simp] theorem putEngine_sweepPointer (s : State) (e : Option BuildContext) (d' : ChanNo) : (s.putEngine e).sweepPointer d' = s.sweepPointer d' := rfl
@[simp] theorem putEngine_buildCondition (s : State) (e : Option BuildContext) (d' : ChanNo) : (s.putEngine e).buildCondition d' = s.buildCondition d' := rfl
@[simp] theorem putEngine_planStore (s : State) (e : Option BuildContext) (d' : ChanNo) : (s.putEngine e).planStore d' = s.planStore d' := rfl
@[simp] theorem putEngine_expectQueue (s : State) (e : Option BuildContext) (d' : ChanNo) : (s.putEngine e).expectQueue d' = s.expectQueue d' := rfl
@[simp] theorem putEngine_counter (s : State) (e : Option BuildContext) (d' : ChanNo) (j : ChannelCounter) : (s.putEngine e).counter d' j = s.counter d' j := rfl
@[simp] theorem putEngine_deviceCounter (s : State) (e : Option BuildContext) (j : DeviceCounter) : (s.putEngine e).deviceCounter j = s.deviceCounter j := rfl
@[simp] theorem putEngine_notice (s : State) (e : Option BuildContext) (j : NoticeKind) : (s.putEngine e).notice j = s.notice j := rfl
@[simp] theorem putEngine_lookupIdentity (s : State) (e : Option BuildContext) (h' : HwId) : (s.putEngine e).lookupIdentity h' = s.lookupIdentity h' := rfl

/-! ### putBuildCondition -/

@[simp] theorem putBuildCondition_pending (s : State) (c : ChanNo) (x : BuildCondition) : (s.putBuildCondition c x).pending = s.pending := rfl
@[simp] theorem putBuildCondition_lastReference (s : State) (c : ChanNo) (x : BuildCondition) : (s.putBuildCondition c x).lastReference = s.lastReference := rfl
@[simp] theorem putBuildCondition_referenceSeen (s : State) (c : ChanNo) (x : BuildCondition) : (s.putBuildCondition c x).referenceSeen = s.referenceSeen := rfl
@[simp] theorem putBuildCondition_channels (s : State) (c : ChanNo) (x : BuildCondition) : (s.putBuildCondition c x).channels = s.channels := rfl
@[simp] theorem putBuildCondition_stations (s : State) (c : ChanNo) (x : BuildCondition) : (s.putBuildCondition c x).stations = s.stations := rfl
@[simp] theorem putBuildCondition_freeList (s : State) (c : ChanNo) (x : BuildCondition) : (s.putBuildCondition c x).freeList = s.freeList := rfl
@[simp] theorem putBuildCondition_identity (s : State) (c : ChanNo) (x : BuildCondition) : (s.putBuildCondition c x).identity = s.identity := rfl
@[simp] theorem putBuildCondition_flows (s : State) (c : ChanNo) (x : BuildCondition) : (s.putBuildCondition c x).flows = s.flows := rfl
@[simp] theorem putBuildCondition_policyA (s : State) (c : ChanNo) (x : BuildCondition) : (s.putBuildCondition c x).policyA = s.policyA := rfl
@[simp] theorem putBuildCondition_policyB (s : State) (c : ChanNo) (x : BuildCondition) : (s.putBuildCondition c x).policyB = s.policyB := rfl
@[simp] theorem putBuildCondition_requestMarks (s : State) (c : ChanNo) (x : BuildCondition) : (s.putBuildCondition c x).requestMarks = s.requestMarks := rfl
@[simp] theorem putBuildCondition_activeLists (s : State) (c : ChanNo) (x : BuildCondition) : (s.putBuildCondition c x).activeLists = s.activeLists := rfl
@[simp] theorem putBuildCondition_calendars (s : State) (c : ChanNo) (x : BuildCondition) : (s.putBuildCondition c x).calendars = s.calendars := rfl
@[simp] theorem putBuildCondition_contention (s : State) (c : ChanNo) (x : BuildCondition) : (s.putBuildCondition c x).contention = s.contention := rfl
@[simp] theorem putBuildCondition_pollQueues (s : State) (c : ChanNo) (x : BuildCondition) : (s.putBuildCondition c x).pollQueues = s.pollQueues := rfl
@[simp] theorem putBuildCondition_sweepPointers (s : State) (c : ChanNo) (x : BuildCondition) : (s.putBuildCondition c x).sweepPointers = s.sweepPointers := rfl
@[simp] theorem putBuildCondition_adjustQueue (s : State) (c : ChanNo) (x : BuildCondition) : (s.putBuildCondition c x).adjustQueue = s.adjustQueue := rfl
@[simp] theorem putBuildCondition_engine (s : State) (c : ChanNo) (x : BuildCondition) : (s.putBuildCondition c x).engine = s.engine := rfl
@[simp] theorem putBuildCondition_buildQueue (s : State) (c : ChanNo) (x : BuildCondition) : (s.putBuildCondition c x).buildQueue = s.buildQueue := rfl
@[simp] theorem putBuildCondition_planStores (s : State) (c : ChanNo) (x : BuildCondition) : (s.putBuildCondition c x).planStores = s.planStores := rfl
@[simp] theorem putBuildCondition_planLinkHold (s : State) (c : ChanNo) (x : BuildCondition) : (s.putBuildCondition c x).planLinkHold = s.planLinkHold := rfl
@[simp] theorem putBuildCondition_planLink (s : State) (c : ChanNo) (x : BuildCondition) : (s.putBuildCondition c x).planLink = s.planLink := rfl
@[simp] theorem putBuildCondition_expectQueues (s : State) (c : ChanNo) (x : BuildCondition) : (s.putBuildCondition c x).expectQueues = s.expectQueues := rfl
@[simp] theorem putBuildCondition_strayRing (s : State) (c : ChanNo) (x : BuildCondition) : (s.putBuildCondition c x).strayRing = s.strayRing := rfl
@[simp] theorem putBuildCondition_overwrites (s : State) (c : ChanNo) (x : BuildCondition) : (s.putBuildCondition c x).overwrites = s.overwrites := rfl
@[simp] theorem putBuildCondition_forwardBuffer (s : State) (c : ChanNo) (x : BuildCondition) : (s.putBuildCondition c x).forwardBuffer = s.forwardBuffer := rfl
@[simp] theorem putBuildCondition_systemLink (s : State) (c : ChanNo) (x : BuildCondition) : (s.putBuildCondition c x).systemLink = s.systemLink := rfl
@[simp] theorem putBuildCondition_controlQueue (s : State) (c : ChanNo) (x : BuildCondition) : (s.putBuildCondition c x).controlQueue = s.controlQueue := rfl
@[simp] theorem putBuildCondition_inboundHold (s : State) (c : ChanNo) (x : BuildCondition) : (s.putBuildCondition c x).inboundHold = s.inboundHold := rfl
@[simp] theorem putBuildCondition_heldArrival (s : State) (c : ChanNo) (x : BuildCondition) : (s.putBuildCondition c x).heldArrival = s.heldArrival := rfl
@[simp] theorem putBuildCondition_execution (s : State) (c : ChanNo) (x : BuildCondition) : (s.putBuildCondition c x).execution = s.execution := rfl
@[simp] theorem putBuildCondition_responseQueue (s : State) (c : ChanNo) (x : BuildCondition) : (s.putBuildCondition c x).responseQueue = s.responseQueue := rfl
@[simp] theorem putBuildCondition_channelCounters (s : State) (c : ChanNo) (x : BuildCondition) : (s.putBuildCondition c x).channelCounters = s.channelCounters := rfl
@[simp] theorem putBuildCondition_deviceCounters (s : State) (c : ChanNo) (x : BuildCondition) : (s.putBuildCondition c x).deviceCounters = s.deviceCounters := rfl
@[simp] theorem putBuildCondition_noticeEnable (s : State) (c : ChanNo) (x : BuildCondition) : (s.putBuildCondition c x).noticeEnable = s.noticeEnable := rfl
@[simp] theorem putBuildCondition_notices (s : State) (c : ChanNo) (x : BuildCondition) : (s.putBuildCondition c x).notices = s.notices := rfl
@[simp] theorem putBuildCondition_freeDraws (s : State) (c : ChanNo) (x : BuildCondition) : (s.putBuildCondition c x).freeDraws = s.freeDraws := rfl
@[simp] theorem putBuildCondition_context (s : State) (c : ChanNo) (x : BuildCondition) (d' : ChanNo) : (s.putBuildCondition c x).context d' = s.context d' := rfl
@[simp] theorem putBuildCondition_params (s : State) (c : ChanNo) (x : BuildCondition) (d' : ChanNo) : (s.putBuildCondition c x).params d' = s.params d' := rfl
@[simp] theorem putBuildCondition_profile (s : State) (c : ChanNo) (x : BuildCondition) (d' : ChanNo) : (s.putBuildCondition c x).profile d' = s.profile d' := rfl
@[simp] theorem putBuildCondition_station (s : State) (c : ChanNo) (x : BuildCondition) (n' : StationNo) : (s.putBuildCondition c x).station n' = s.station n' := rfl
@[simp] theorem putBuildCondition_flow (s : State) (c : ChanNo) (x : BuildCondition) (f' : FlowNo) : (s.putBuildCondition c x).flow f' = s.flow f' := rfl
@[simp] theorem putBuildCondition_policyClass (s : State) (c : ChanNo) (x : BuildCondition) (p' : PolicySelect) (j : ClassNo) : (s.putBuildCondition c x).policyClass p' j = s.policyClass p' j := rfl
@[simp] theorem putBuildCondition_active (s : State) (c : ChanNo) (x : BuildCondition) (d' : ChanNo) (l' : Level) : (s.putBuildCondition c x).active d' l' = s.active d' l' := rfl
@[simp] theorem putBuildCondition_calendar (s : State) (c : ChanNo) (x : BuildCondition) (d' : ChanNo) : (s.putBuildCondition c x).calendar d' = s.calendar d' := rfl
@[simp] theorem putBuildCondition_contentionOf (s : State) (c : ChanNo) (x : BuildCondition) (d' : ChanNo) : (s.putBuildCondition c x).contentionOf d' = s.contentionOf d' := rfl
@[simp] theorem putBuildCondition_pollQueue (s : State) (c : ChanNo) (x : BuildCondition) (d' : ChanNo) : (s.putBuildCondition c x).pollQueue d' = s.pollQueue d' := rfl
@[simp] theorem putBuildCondition_sweepPointer (s : State) (c : ChanNo) (x : BuildCondition) (d' : ChanNo) : (s.putBuildCondition c x).sweepPointer d' = s.sweepPointer d' := rfl
@[simp] theorem putBuildCondition_planStore (s : State) (c : ChanNo) (x : BuildCondition) (d' : ChanNo) : (s.putBuildCondition c x).planStore d' = s.planStore d' := rfl
@[simp] theorem putBuildCondition_expectQueue (s : State) (c : ChanNo) (x : BuildCondition) (d' : ChanNo) : (s.putBuildCondition c x).expectQueue d' = s.expectQueue d' := rfl
@[simp] theorem putBuildCondition_counter (s : State) (c : ChanNo) (x : BuildCondition) (d' : ChanNo) (j : ChannelCounter) : (s.putBuildCondition c x).counter d' j = s.counter d' j := rfl
@[simp] theorem putBuildCondition_deviceCounter (s : State) (c : ChanNo) (x : BuildCondition) (j : DeviceCounter) : (s.putBuildCondition c x).deviceCounter j = s.deviceCounter j := rfl
@[simp] theorem putBuildCondition_notice (s : State) (c : ChanNo) (x : BuildCondition) (j : NoticeKind) : (s.putBuildCondition c x).notice j = s.notice j := rfl
@[simp] theorem putBuildCondition_lookupIdentity (s : State) (c : ChanNo) (x : BuildCondition) (h' : HwId) : (s.putBuildCondition c x).lookupIdentity h' = s.lookupIdentity h' := rfl

/-! ### putBuildQueue -/

@[simp] theorem putBuildQueue_pending (s : State) (q : List BuildRequest) : (s.putBuildQueue q).pending = s.pending := rfl
@[simp] theorem putBuildQueue_lastReference (s : State) (q : List BuildRequest) : (s.putBuildQueue q).lastReference = s.lastReference := rfl
@[simp] theorem putBuildQueue_referenceSeen (s : State) (q : List BuildRequest) : (s.putBuildQueue q).referenceSeen = s.referenceSeen := rfl
@[simp] theorem putBuildQueue_channels (s : State) (q : List BuildRequest) : (s.putBuildQueue q).channels = s.channels := rfl
@[simp] theorem putBuildQueue_stations (s : State) (q : List BuildRequest) : (s.putBuildQueue q).stations = s.stations := rfl
@[simp] theorem putBuildQueue_freeList (s : State) (q : List BuildRequest) : (s.putBuildQueue q).freeList = s.freeList := rfl
@[simp] theorem putBuildQueue_identity (s : State) (q : List BuildRequest) : (s.putBuildQueue q).identity = s.identity := rfl
@[simp] theorem putBuildQueue_flows (s : State) (q : List BuildRequest) : (s.putBuildQueue q).flows = s.flows := rfl
@[simp] theorem putBuildQueue_policyA (s : State) (q : List BuildRequest) : (s.putBuildQueue q).policyA = s.policyA := rfl
@[simp] theorem putBuildQueue_policyB (s : State) (q : List BuildRequest) : (s.putBuildQueue q).policyB = s.policyB := rfl
@[simp] theorem putBuildQueue_requestMarks (s : State) (q : List BuildRequest) : (s.putBuildQueue q).requestMarks = s.requestMarks := rfl
@[simp] theorem putBuildQueue_activeLists (s : State) (q : List BuildRequest) : (s.putBuildQueue q).activeLists = s.activeLists := rfl
@[simp] theorem putBuildQueue_calendars (s : State) (q : List BuildRequest) : (s.putBuildQueue q).calendars = s.calendars := rfl
@[simp] theorem putBuildQueue_contention (s : State) (q : List BuildRequest) : (s.putBuildQueue q).contention = s.contention := rfl
@[simp] theorem putBuildQueue_pollQueues (s : State) (q : List BuildRequest) : (s.putBuildQueue q).pollQueues = s.pollQueues := rfl
@[simp] theorem putBuildQueue_sweepPointers (s : State) (q : List BuildRequest) : (s.putBuildQueue q).sweepPointers = s.sweepPointers := rfl
@[simp] theorem putBuildQueue_adjustQueue (s : State) (q : List BuildRequest) : (s.putBuildQueue q).adjustQueue = s.adjustQueue := rfl
@[simp] theorem putBuildQueue_engine (s : State) (q : List BuildRequest) : (s.putBuildQueue q).engine = s.engine := rfl
@[simp] theorem putBuildQueue_buildConditions (s : State) (q : List BuildRequest) : (s.putBuildQueue q).buildConditions = s.buildConditions := rfl
@[simp] theorem putBuildQueue_planStores (s : State) (q : List BuildRequest) : (s.putBuildQueue q).planStores = s.planStores := rfl
@[simp] theorem putBuildQueue_planLinkHold (s : State) (q : List BuildRequest) : (s.putBuildQueue q).planLinkHold = s.planLinkHold := rfl
@[simp] theorem putBuildQueue_planLink (s : State) (q : List BuildRequest) : (s.putBuildQueue q).planLink = s.planLink := rfl
@[simp] theorem putBuildQueue_expectQueues (s : State) (q : List BuildRequest) : (s.putBuildQueue q).expectQueues = s.expectQueues := rfl
@[simp] theorem putBuildQueue_strayRing (s : State) (q : List BuildRequest) : (s.putBuildQueue q).strayRing = s.strayRing := rfl
@[simp] theorem putBuildQueue_overwrites (s : State) (q : List BuildRequest) : (s.putBuildQueue q).overwrites = s.overwrites := rfl
@[simp] theorem putBuildQueue_forwardBuffer (s : State) (q : List BuildRequest) : (s.putBuildQueue q).forwardBuffer = s.forwardBuffer := rfl
@[simp] theorem putBuildQueue_systemLink (s : State) (q : List BuildRequest) : (s.putBuildQueue q).systemLink = s.systemLink := rfl
@[simp] theorem putBuildQueue_controlQueue (s : State) (q : List BuildRequest) : (s.putBuildQueue q).controlQueue = s.controlQueue := rfl
@[simp] theorem putBuildQueue_inboundHold (s : State) (q : List BuildRequest) : (s.putBuildQueue q).inboundHold = s.inboundHold := rfl
@[simp] theorem putBuildQueue_heldArrival (s : State) (q : List BuildRequest) : (s.putBuildQueue q).heldArrival = s.heldArrival := rfl
@[simp] theorem putBuildQueue_execution (s : State) (q : List BuildRequest) : (s.putBuildQueue q).execution = s.execution := rfl
@[simp] theorem putBuildQueue_responseQueue (s : State) (q : List BuildRequest) : (s.putBuildQueue q).responseQueue = s.responseQueue := rfl
@[simp] theorem putBuildQueue_channelCounters (s : State) (q : List BuildRequest) : (s.putBuildQueue q).channelCounters = s.channelCounters := rfl
@[simp] theorem putBuildQueue_deviceCounters (s : State) (q : List BuildRequest) : (s.putBuildQueue q).deviceCounters = s.deviceCounters := rfl
@[simp] theorem putBuildQueue_noticeEnable (s : State) (q : List BuildRequest) : (s.putBuildQueue q).noticeEnable = s.noticeEnable := rfl
@[simp] theorem putBuildQueue_notices (s : State) (q : List BuildRequest) : (s.putBuildQueue q).notices = s.notices := rfl
@[simp] theorem putBuildQueue_freeDraws (s : State) (q : List BuildRequest) : (s.putBuildQueue q).freeDraws = s.freeDraws := rfl
@[simp] theorem putBuildQueue_buildQueue (s : State) (q : List BuildRequest) : (s.putBuildQueue q).buildQueue = q := rfl
@[simp] theorem putBuildQueue_context (s : State) (q : List BuildRequest) (d' : ChanNo) : (s.putBuildQueue q).context d' = s.context d' := rfl
@[simp] theorem putBuildQueue_params (s : State) (q : List BuildRequest) (d' : ChanNo) : (s.putBuildQueue q).params d' = s.params d' := rfl
@[simp] theorem putBuildQueue_profile (s : State) (q : List BuildRequest) (d' : ChanNo) : (s.putBuildQueue q).profile d' = s.profile d' := rfl
@[simp] theorem putBuildQueue_station (s : State) (q : List BuildRequest) (n' : StationNo) : (s.putBuildQueue q).station n' = s.station n' := rfl
@[simp] theorem putBuildQueue_flow (s : State) (q : List BuildRequest) (f' : FlowNo) : (s.putBuildQueue q).flow f' = s.flow f' := rfl
@[simp] theorem putBuildQueue_policyClass (s : State) (q : List BuildRequest) (p' : PolicySelect) (j : ClassNo) : (s.putBuildQueue q).policyClass p' j = s.policyClass p' j := rfl
@[simp] theorem putBuildQueue_active (s : State) (q : List BuildRequest) (d' : ChanNo) (l' : Level) : (s.putBuildQueue q).active d' l' = s.active d' l' := rfl
@[simp] theorem putBuildQueue_calendar (s : State) (q : List BuildRequest) (d' : ChanNo) : (s.putBuildQueue q).calendar d' = s.calendar d' := rfl
@[simp] theorem putBuildQueue_contentionOf (s : State) (q : List BuildRequest) (d' : ChanNo) : (s.putBuildQueue q).contentionOf d' = s.contentionOf d' := rfl
@[simp] theorem putBuildQueue_pollQueue (s : State) (q : List BuildRequest) (d' : ChanNo) : (s.putBuildQueue q).pollQueue d' = s.pollQueue d' := rfl
@[simp] theorem putBuildQueue_sweepPointer (s : State) (q : List BuildRequest) (d' : ChanNo) : (s.putBuildQueue q).sweepPointer d' = s.sweepPointer d' := rfl
@[simp] theorem putBuildQueue_buildCondition (s : State) (q : List BuildRequest) (d' : ChanNo) : (s.putBuildQueue q).buildCondition d' = s.buildCondition d' := rfl
@[simp] theorem putBuildQueue_planStore (s : State) (q : List BuildRequest) (d' : ChanNo) : (s.putBuildQueue q).planStore d' = s.planStore d' := rfl
@[simp] theorem putBuildQueue_expectQueue (s : State) (q : List BuildRequest) (d' : ChanNo) : (s.putBuildQueue q).expectQueue d' = s.expectQueue d' := rfl
@[simp] theorem putBuildQueue_counter (s : State) (q : List BuildRequest) (d' : ChanNo) (j : ChannelCounter) : (s.putBuildQueue q).counter d' j = s.counter d' j := rfl
@[simp] theorem putBuildQueue_deviceCounter (s : State) (q : List BuildRequest) (j : DeviceCounter) : (s.putBuildQueue q).deviceCounter j = s.deviceCounter j := rfl
@[simp] theorem putBuildQueue_notice (s : State) (q : List BuildRequest) (j : NoticeKind) : (s.putBuildQueue q).notice j = s.notice j := rfl
@[simp] theorem putBuildQueue_lookupIdentity (s : State) (q : List BuildRequest) (h' : HwId) : (s.putBuildQueue q).lookupIdentity h' = s.lookupIdentity h' := rfl

/-! ### putPlanStore -/

@[simp] theorem putPlanStore_pending (s : State) (c : ChanNo) (x : PlanStore) : (s.putPlanStore c x).pending = s.pending := rfl
@[simp] theorem putPlanStore_lastReference (s : State) (c : ChanNo) (x : PlanStore) : (s.putPlanStore c x).lastReference = s.lastReference := rfl
@[simp] theorem putPlanStore_referenceSeen (s : State) (c : ChanNo) (x : PlanStore) : (s.putPlanStore c x).referenceSeen = s.referenceSeen := rfl
@[simp] theorem putPlanStore_channels (s : State) (c : ChanNo) (x : PlanStore) : (s.putPlanStore c x).channels = s.channels := rfl
@[simp] theorem putPlanStore_stations (s : State) (c : ChanNo) (x : PlanStore) : (s.putPlanStore c x).stations = s.stations := rfl
@[simp] theorem putPlanStore_freeList (s : State) (c : ChanNo) (x : PlanStore) : (s.putPlanStore c x).freeList = s.freeList := rfl
@[simp] theorem putPlanStore_identity (s : State) (c : ChanNo) (x : PlanStore) : (s.putPlanStore c x).identity = s.identity := rfl
@[simp] theorem putPlanStore_flows (s : State) (c : ChanNo) (x : PlanStore) : (s.putPlanStore c x).flows = s.flows := rfl
@[simp] theorem putPlanStore_policyA (s : State) (c : ChanNo) (x : PlanStore) : (s.putPlanStore c x).policyA = s.policyA := rfl
@[simp] theorem putPlanStore_policyB (s : State) (c : ChanNo) (x : PlanStore) : (s.putPlanStore c x).policyB = s.policyB := rfl
@[simp] theorem putPlanStore_requestMarks (s : State) (c : ChanNo) (x : PlanStore) : (s.putPlanStore c x).requestMarks = s.requestMarks := rfl
@[simp] theorem putPlanStore_activeLists (s : State) (c : ChanNo) (x : PlanStore) : (s.putPlanStore c x).activeLists = s.activeLists := rfl
@[simp] theorem putPlanStore_calendars (s : State) (c : ChanNo) (x : PlanStore) : (s.putPlanStore c x).calendars = s.calendars := rfl
@[simp] theorem putPlanStore_contention (s : State) (c : ChanNo) (x : PlanStore) : (s.putPlanStore c x).contention = s.contention := rfl
@[simp] theorem putPlanStore_pollQueues (s : State) (c : ChanNo) (x : PlanStore) : (s.putPlanStore c x).pollQueues = s.pollQueues := rfl
@[simp] theorem putPlanStore_sweepPointers (s : State) (c : ChanNo) (x : PlanStore) : (s.putPlanStore c x).sweepPointers = s.sweepPointers := rfl
@[simp] theorem putPlanStore_adjustQueue (s : State) (c : ChanNo) (x : PlanStore) : (s.putPlanStore c x).adjustQueue = s.adjustQueue := rfl
@[simp] theorem putPlanStore_engine (s : State) (c : ChanNo) (x : PlanStore) : (s.putPlanStore c x).engine = s.engine := rfl
@[simp] theorem putPlanStore_buildConditions (s : State) (c : ChanNo) (x : PlanStore) : (s.putPlanStore c x).buildConditions = s.buildConditions := rfl
@[simp] theorem putPlanStore_buildQueue (s : State) (c : ChanNo) (x : PlanStore) : (s.putPlanStore c x).buildQueue = s.buildQueue := rfl
@[simp] theorem putPlanStore_planLinkHold (s : State) (c : ChanNo) (x : PlanStore) : (s.putPlanStore c x).planLinkHold = s.planLinkHold := rfl
@[simp] theorem putPlanStore_planLink (s : State) (c : ChanNo) (x : PlanStore) : (s.putPlanStore c x).planLink = s.planLink := rfl
@[simp] theorem putPlanStore_expectQueues (s : State) (c : ChanNo) (x : PlanStore) : (s.putPlanStore c x).expectQueues = s.expectQueues := rfl
@[simp] theorem putPlanStore_strayRing (s : State) (c : ChanNo) (x : PlanStore) : (s.putPlanStore c x).strayRing = s.strayRing := rfl
@[simp] theorem putPlanStore_overwrites (s : State) (c : ChanNo) (x : PlanStore) : (s.putPlanStore c x).overwrites = s.overwrites := rfl
@[simp] theorem putPlanStore_forwardBuffer (s : State) (c : ChanNo) (x : PlanStore) : (s.putPlanStore c x).forwardBuffer = s.forwardBuffer := rfl
@[simp] theorem putPlanStore_systemLink (s : State) (c : ChanNo) (x : PlanStore) : (s.putPlanStore c x).systemLink = s.systemLink := rfl
@[simp] theorem putPlanStore_controlQueue (s : State) (c : ChanNo) (x : PlanStore) : (s.putPlanStore c x).controlQueue = s.controlQueue := rfl
@[simp] theorem putPlanStore_inboundHold (s : State) (c : ChanNo) (x : PlanStore) : (s.putPlanStore c x).inboundHold = s.inboundHold := rfl
@[simp] theorem putPlanStore_heldArrival (s : State) (c : ChanNo) (x : PlanStore) : (s.putPlanStore c x).heldArrival = s.heldArrival := rfl
@[simp] theorem putPlanStore_execution (s : State) (c : ChanNo) (x : PlanStore) : (s.putPlanStore c x).execution = s.execution := rfl
@[simp] theorem putPlanStore_responseQueue (s : State) (c : ChanNo) (x : PlanStore) : (s.putPlanStore c x).responseQueue = s.responseQueue := rfl
@[simp] theorem putPlanStore_channelCounters (s : State) (c : ChanNo) (x : PlanStore) : (s.putPlanStore c x).channelCounters = s.channelCounters := rfl
@[simp] theorem putPlanStore_deviceCounters (s : State) (c : ChanNo) (x : PlanStore) : (s.putPlanStore c x).deviceCounters = s.deviceCounters := rfl
@[simp] theorem putPlanStore_noticeEnable (s : State) (c : ChanNo) (x : PlanStore) : (s.putPlanStore c x).noticeEnable = s.noticeEnable := rfl
@[simp] theorem putPlanStore_notices (s : State) (c : ChanNo) (x : PlanStore) : (s.putPlanStore c x).notices = s.notices := rfl
@[simp] theorem putPlanStore_freeDraws (s : State) (c : ChanNo) (x : PlanStore) : (s.putPlanStore c x).freeDraws = s.freeDraws := rfl
@[simp] theorem putPlanStore_context (s : State) (c : ChanNo) (x : PlanStore) (d' : ChanNo) : (s.putPlanStore c x).context d' = s.context d' := rfl
@[simp] theorem putPlanStore_params (s : State) (c : ChanNo) (x : PlanStore) (d' : ChanNo) : (s.putPlanStore c x).params d' = s.params d' := rfl
@[simp] theorem putPlanStore_profile (s : State) (c : ChanNo) (x : PlanStore) (d' : ChanNo) : (s.putPlanStore c x).profile d' = s.profile d' := rfl
@[simp] theorem putPlanStore_station (s : State) (c : ChanNo) (x : PlanStore) (n' : StationNo) : (s.putPlanStore c x).station n' = s.station n' := rfl
@[simp] theorem putPlanStore_flow (s : State) (c : ChanNo) (x : PlanStore) (f' : FlowNo) : (s.putPlanStore c x).flow f' = s.flow f' := rfl
@[simp] theorem putPlanStore_policyClass (s : State) (c : ChanNo) (x : PlanStore) (p' : PolicySelect) (j : ClassNo) : (s.putPlanStore c x).policyClass p' j = s.policyClass p' j := rfl
@[simp] theorem putPlanStore_active (s : State) (c : ChanNo) (x : PlanStore) (d' : ChanNo) (l' : Level) : (s.putPlanStore c x).active d' l' = s.active d' l' := rfl
@[simp] theorem putPlanStore_calendar (s : State) (c : ChanNo) (x : PlanStore) (d' : ChanNo) : (s.putPlanStore c x).calendar d' = s.calendar d' := rfl
@[simp] theorem putPlanStore_contentionOf (s : State) (c : ChanNo) (x : PlanStore) (d' : ChanNo) : (s.putPlanStore c x).contentionOf d' = s.contentionOf d' := rfl
@[simp] theorem putPlanStore_pollQueue (s : State) (c : ChanNo) (x : PlanStore) (d' : ChanNo) : (s.putPlanStore c x).pollQueue d' = s.pollQueue d' := rfl
@[simp] theorem putPlanStore_sweepPointer (s : State) (c : ChanNo) (x : PlanStore) (d' : ChanNo) : (s.putPlanStore c x).sweepPointer d' = s.sweepPointer d' := rfl
@[simp] theorem putPlanStore_buildCondition (s : State) (c : ChanNo) (x : PlanStore) (d' : ChanNo) : (s.putPlanStore c x).buildCondition d' = s.buildCondition d' := rfl
@[simp] theorem putPlanStore_expectQueue (s : State) (c : ChanNo) (x : PlanStore) (d' : ChanNo) : (s.putPlanStore c x).expectQueue d' = s.expectQueue d' := rfl
@[simp] theorem putPlanStore_counter (s : State) (c : ChanNo) (x : PlanStore) (d' : ChanNo) (j : ChannelCounter) : (s.putPlanStore c x).counter d' j = s.counter d' j := rfl
@[simp] theorem putPlanStore_deviceCounter (s : State) (c : ChanNo) (x : PlanStore) (j : DeviceCounter) : (s.putPlanStore c x).deviceCounter j = s.deviceCounter j := rfl
@[simp] theorem putPlanStore_notice (s : State) (c : ChanNo) (x : PlanStore) (j : NoticeKind) : (s.putPlanStore c x).notice j = s.notice j := rfl
@[simp] theorem putPlanStore_lookupIdentity (s : State) (c : ChanNo) (x : PlanStore) (h' : HwId) : (s.putPlanStore c x).lookupIdentity h' = s.lookupIdentity h' := rfl

/-! ### putPlanLinkHold -/

@[simp] theorem putPlanLinkHold_pending (s : State) (h : Bool) : (s.putPlanLinkHold h).pending = s.pending := rfl
@[simp] theorem putPlanLinkHold_lastReference (s : State) (h : Bool) : (s.putPlanLinkHold h).lastReference = s.lastReference := rfl
@[simp] theorem putPlanLinkHold_referenceSeen (s : State) (h : Bool) : (s.putPlanLinkHold h).referenceSeen = s.referenceSeen := rfl
@[simp] theorem putPlanLinkHold_channels (s : State) (h : Bool) : (s.putPlanLinkHold h).channels = s.channels := rfl
@[simp] theorem putPlanLinkHold_stations (s : State) (h : Bool) : (s.putPlanLinkHold h).stations = s.stations := rfl
@[simp] theorem putPlanLinkHold_freeList (s : State) (h : Bool) : (s.putPlanLinkHold h).freeList = s.freeList := rfl
@[simp] theorem putPlanLinkHold_identity (s : State) (h : Bool) : (s.putPlanLinkHold h).identity = s.identity := rfl
@[simp] theorem putPlanLinkHold_flows (s : State) (h : Bool) : (s.putPlanLinkHold h).flows = s.flows := rfl
@[simp] theorem putPlanLinkHold_policyA (s : State) (h : Bool) : (s.putPlanLinkHold h).policyA = s.policyA := rfl
@[simp] theorem putPlanLinkHold_policyB (s : State) (h : Bool) : (s.putPlanLinkHold h).policyB = s.policyB := rfl
@[simp] theorem putPlanLinkHold_requestMarks (s : State) (h : Bool) : (s.putPlanLinkHold h).requestMarks = s.requestMarks := rfl
@[simp] theorem putPlanLinkHold_activeLists (s : State) (h : Bool) : (s.putPlanLinkHold h).activeLists = s.activeLists := rfl
@[simp] theorem putPlanLinkHold_calendars (s : State) (h : Bool) : (s.putPlanLinkHold h).calendars = s.calendars := rfl
@[simp] theorem putPlanLinkHold_contention (s : State) (h : Bool) : (s.putPlanLinkHold h).contention = s.contention := rfl
@[simp] theorem putPlanLinkHold_pollQueues (s : State) (h : Bool) : (s.putPlanLinkHold h).pollQueues = s.pollQueues := rfl
@[simp] theorem putPlanLinkHold_sweepPointers (s : State) (h : Bool) : (s.putPlanLinkHold h).sweepPointers = s.sweepPointers := rfl
@[simp] theorem putPlanLinkHold_adjustQueue (s : State) (h : Bool) : (s.putPlanLinkHold h).adjustQueue = s.adjustQueue := rfl
@[simp] theorem putPlanLinkHold_engine (s : State) (h : Bool) : (s.putPlanLinkHold h).engine = s.engine := rfl
@[simp] theorem putPlanLinkHold_buildConditions (s : State) (h : Bool) : (s.putPlanLinkHold h).buildConditions = s.buildConditions := rfl
@[simp] theorem putPlanLinkHold_buildQueue (s : State) (h : Bool) : (s.putPlanLinkHold h).buildQueue = s.buildQueue := rfl
@[simp] theorem putPlanLinkHold_planStores (s : State) (h : Bool) : (s.putPlanLinkHold h).planStores = s.planStores := rfl
@[simp] theorem putPlanLinkHold_planLink (s : State) (h : Bool) : (s.putPlanLinkHold h).planLink = s.planLink := rfl
@[simp] theorem putPlanLinkHold_expectQueues (s : State) (h : Bool) : (s.putPlanLinkHold h).expectQueues = s.expectQueues := rfl
@[simp] theorem putPlanLinkHold_strayRing (s : State) (h : Bool) : (s.putPlanLinkHold h).strayRing = s.strayRing := rfl
@[simp] theorem putPlanLinkHold_overwrites (s : State) (h : Bool) : (s.putPlanLinkHold h).overwrites = s.overwrites := rfl
@[simp] theorem putPlanLinkHold_forwardBuffer (s : State) (h : Bool) : (s.putPlanLinkHold h).forwardBuffer = s.forwardBuffer := rfl
@[simp] theorem putPlanLinkHold_systemLink (s : State) (h : Bool) : (s.putPlanLinkHold h).systemLink = s.systemLink := rfl
@[simp] theorem putPlanLinkHold_controlQueue (s : State) (h : Bool) : (s.putPlanLinkHold h).controlQueue = s.controlQueue := rfl
@[simp] theorem putPlanLinkHold_inboundHold (s : State) (h : Bool) : (s.putPlanLinkHold h).inboundHold = s.inboundHold := rfl
@[simp] theorem putPlanLinkHold_heldArrival (s : State) (h : Bool) : (s.putPlanLinkHold h).heldArrival = s.heldArrival := rfl
@[simp] theorem putPlanLinkHold_execution (s : State) (h : Bool) : (s.putPlanLinkHold h).execution = s.execution := rfl
@[simp] theorem putPlanLinkHold_responseQueue (s : State) (h : Bool) : (s.putPlanLinkHold h).responseQueue = s.responseQueue := rfl
@[simp] theorem putPlanLinkHold_channelCounters (s : State) (h : Bool) : (s.putPlanLinkHold h).channelCounters = s.channelCounters := rfl
@[simp] theorem putPlanLinkHold_deviceCounters (s : State) (h : Bool) : (s.putPlanLinkHold h).deviceCounters = s.deviceCounters := rfl
@[simp] theorem putPlanLinkHold_noticeEnable (s : State) (h : Bool) : (s.putPlanLinkHold h).noticeEnable = s.noticeEnable := rfl
@[simp] theorem putPlanLinkHold_notices (s : State) (h : Bool) : (s.putPlanLinkHold h).notices = s.notices := rfl
@[simp] theorem putPlanLinkHold_freeDraws (s : State) (h : Bool) : (s.putPlanLinkHold h).freeDraws = s.freeDraws := rfl
@[simp] theorem putPlanLinkHold_planLinkHold (s : State) (h : Bool) : (s.putPlanLinkHold h).planLinkHold = h := rfl
@[simp] theorem putPlanLinkHold_context (s : State) (h : Bool) (d' : ChanNo) : (s.putPlanLinkHold h).context d' = s.context d' := rfl
@[simp] theorem putPlanLinkHold_params (s : State) (h : Bool) (d' : ChanNo) : (s.putPlanLinkHold h).params d' = s.params d' := rfl
@[simp] theorem putPlanLinkHold_profile (s : State) (h : Bool) (d' : ChanNo) : (s.putPlanLinkHold h).profile d' = s.profile d' := rfl
@[simp] theorem putPlanLinkHold_station (s : State) (h : Bool) (n' : StationNo) : (s.putPlanLinkHold h).station n' = s.station n' := rfl
@[simp] theorem putPlanLinkHold_flow (s : State) (h : Bool) (f' : FlowNo) : (s.putPlanLinkHold h).flow f' = s.flow f' := rfl
@[simp] theorem putPlanLinkHold_policyClass (s : State) (h : Bool) (p' : PolicySelect) (j : ClassNo) : (s.putPlanLinkHold h).policyClass p' j = s.policyClass p' j := rfl
@[simp] theorem putPlanLinkHold_active (s : State) (h : Bool) (d' : ChanNo) (l' : Level) : (s.putPlanLinkHold h).active d' l' = s.active d' l' := rfl
@[simp] theorem putPlanLinkHold_calendar (s : State) (h : Bool) (d' : ChanNo) : (s.putPlanLinkHold h).calendar d' = s.calendar d' := rfl
@[simp] theorem putPlanLinkHold_contentionOf (s : State) (h : Bool) (d' : ChanNo) : (s.putPlanLinkHold h).contentionOf d' = s.contentionOf d' := rfl
@[simp] theorem putPlanLinkHold_pollQueue (s : State) (h : Bool) (d' : ChanNo) : (s.putPlanLinkHold h).pollQueue d' = s.pollQueue d' := rfl
@[simp] theorem putPlanLinkHold_sweepPointer (s : State) (h : Bool) (d' : ChanNo) : (s.putPlanLinkHold h).sweepPointer d' = s.sweepPointer d' := rfl
@[simp] theorem putPlanLinkHold_buildCondition (s : State) (h : Bool) (d' : ChanNo) : (s.putPlanLinkHold h).buildCondition d' = s.buildCondition d' := rfl
@[simp] theorem putPlanLinkHold_planStore (s : State) (h : Bool) (d' : ChanNo) : (s.putPlanLinkHold h).planStore d' = s.planStore d' := rfl
@[simp] theorem putPlanLinkHold_expectQueue (s : State) (h : Bool) (d' : ChanNo) : (s.putPlanLinkHold h).expectQueue d' = s.expectQueue d' := rfl
@[simp] theorem putPlanLinkHold_counter (s : State) (h : Bool) (d' : ChanNo) (j : ChannelCounter) : (s.putPlanLinkHold h).counter d' j = s.counter d' j := rfl
@[simp] theorem putPlanLinkHold_deviceCounter (s : State) (h : Bool) (j : DeviceCounter) : (s.putPlanLinkHold h).deviceCounter j = s.deviceCounter j := rfl
@[simp] theorem putPlanLinkHold_notice (s : State) (h : Bool) (j : NoticeKind) : (s.putPlanLinkHold h).notice j = s.notice j := rfl
@[simp] theorem putPlanLinkHold_lookupIdentity (s : State) (h : Bool) (h' : HwId) : (s.putPlanLinkHold h).lookupIdentity h' = s.lookupIdentity h' := rfl

/-! ### putPlanLink -/

@[simp] theorem putPlanLink_pending (s : State) (l : OutLink) : (s.putPlanLink l).pending = s.pending := rfl
@[simp] theorem putPlanLink_lastReference (s : State) (l : OutLink) : (s.putPlanLink l).lastReference = s.lastReference := rfl
@[simp] theorem putPlanLink_referenceSeen (s : State) (l : OutLink) : (s.putPlanLink l).referenceSeen = s.referenceSeen := rfl
@[simp] theorem putPlanLink_channels (s : State) (l : OutLink) : (s.putPlanLink l).channels = s.channels := rfl
@[simp] theorem putPlanLink_stations (s : State) (l : OutLink) : (s.putPlanLink l).stations = s.stations := rfl
@[simp] theorem putPlanLink_freeList (s : State) (l : OutLink) : (s.putPlanLink l).freeList = s.freeList := rfl
@[simp] theorem putPlanLink_identity (s : State) (l : OutLink) : (s.putPlanLink l).identity = s.identity := rfl
@[simp] theorem putPlanLink_flows (s : State) (l : OutLink) : (s.putPlanLink l).flows = s.flows := rfl
@[simp] theorem putPlanLink_policyA (s : State) (l : OutLink) : (s.putPlanLink l).policyA = s.policyA := rfl
@[simp] theorem putPlanLink_policyB (s : State) (l : OutLink) : (s.putPlanLink l).policyB = s.policyB := rfl
@[simp] theorem putPlanLink_requestMarks (s : State) (l : OutLink) : (s.putPlanLink l).requestMarks = s.requestMarks := rfl
@[simp] theorem putPlanLink_activeLists (s : State) (l : OutLink) : (s.putPlanLink l).activeLists = s.activeLists := rfl
@[simp] theorem putPlanLink_calendars (s : State) (l : OutLink) : (s.putPlanLink l).calendars = s.calendars := rfl
@[simp] theorem putPlanLink_contention (s : State) (l : OutLink) : (s.putPlanLink l).contention = s.contention := rfl
@[simp] theorem putPlanLink_pollQueues (s : State) (l : OutLink) : (s.putPlanLink l).pollQueues = s.pollQueues := rfl
@[simp] theorem putPlanLink_sweepPointers (s : State) (l : OutLink) : (s.putPlanLink l).sweepPointers = s.sweepPointers := rfl
@[simp] theorem putPlanLink_adjustQueue (s : State) (l : OutLink) : (s.putPlanLink l).adjustQueue = s.adjustQueue := rfl
@[simp] theorem putPlanLink_engine (s : State) (l : OutLink) : (s.putPlanLink l).engine = s.engine := rfl
@[simp] theorem putPlanLink_buildConditions (s : State) (l : OutLink) : (s.putPlanLink l).buildConditions = s.buildConditions := rfl
@[simp] theorem putPlanLink_buildQueue (s : State) (l : OutLink) : (s.putPlanLink l).buildQueue = s.buildQueue := rfl
@[simp] theorem putPlanLink_planStores (s : State) (l : OutLink) : (s.putPlanLink l).planStores = s.planStores := rfl
@[simp] theorem putPlanLink_planLinkHold (s : State) (l : OutLink) : (s.putPlanLink l).planLinkHold = s.planLinkHold := rfl
@[simp] theorem putPlanLink_expectQueues (s : State) (l : OutLink) : (s.putPlanLink l).expectQueues = s.expectQueues := rfl
@[simp] theorem putPlanLink_strayRing (s : State) (l : OutLink) : (s.putPlanLink l).strayRing = s.strayRing := rfl
@[simp] theorem putPlanLink_overwrites (s : State) (l : OutLink) : (s.putPlanLink l).overwrites = s.overwrites := rfl
@[simp] theorem putPlanLink_forwardBuffer (s : State) (l : OutLink) : (s.putPlanLink l).forwardBuffer = s.forwardBuffer := rfl
@[simp] theorem putPlanLink_systemLink (s : State) (l : OutLink) : (s.putPlanLink l).systemLink = s.systemLink := rfl
@[simp] theorem putPlanLink_controlQueue (s : State) (l : OutLink) : (s.putPlanLink l).controlQueue = s.controlQueue := rfl
@[simp] theorem putPlanLink_inboundHold (s : State) (l : OutLink) : (s.putPlanLink l).inboundHold = s.inboundHold := rfl
@[simp] theorem putPlanLink_heldArrival (s : State) (l : OutLink) : (s.putPlanLink l).heldArrival = s.heldArrival := rfl
@[simp] theorem putPlanLink_execution (s : State) (l : OutLink) : (s.putPlanLink l).execution = s.execution := rfl
@[simp] theorem putPlanLink_responseQueue (s : State) (l : OutLink) : (s.putPlanLink l).responseQueue = s.responseQueue := rfl
@[simp] theorem putPlanLink_channelCounters (s : State) (l : OutLink) : (s.putPlanLink l).channelCounters = s.channelCounters := rfl
@[simp] theorem putPlanLink_deviceCounters (s : State) (l : OutLink) : (s.putPlanLink l).deviceCounters = s.deviceCounters := rfl
@[simp] theorem putPlanLink_noticeEnable (s : State) (l : OutLink) : (s.putPlanLink l).noticeEnable = s.noticeEnable := rfl
@[simp] theorem putPlanLink_notices (s : State) (l : OutLink) : (s.putPlanLink l).notices = s.notices := rfl
@[simp] theorem putPlanLink_freeDraws (s : State) (l : OutLink) : (s.putPlanLink l).freeDraws = s.freeDraws := rfl
@[simp] theorem putPlanLink_planLink (s : State) (l : OutLink) : (s.putPlanLink l).planLink = l := rfl
@[simp] theorem putPlanLink_context (s : State) (l : OutLink) (d' : ChanNo) : (s.putPlanLink l).context d' = s.context d' := rfl
@[simp] theorem putPlanLink_params (s : State) (l : OutLink) (d' : ChanNo) : (s.putPlanLink l).params d' = s.params d' := rfl
@[simp] theorem putPlanLink_profile (s : State) (l : OutLink) (d' : ChanNo) : (s.putPlanLink l).profile d' = s.profile d' := rfl
@[simp] theorem putPlanLink_station (s : State) (l : OutLink) (n' : StationNo) : (s.putPlanLink l).station n' = s.station n' := rfl
@[simp] theorem putPlanLink_flow (s : State) (l : OutLink) (f' : FlowNo) : (s.putPlanLink l).flow f' = s.flow f' := rfl
@[simp] theorem putPlanLink_policyClass (s : State) (l : OutLink) (p' : PolicySelect) (j : ClassNo) : (s.putPlanLink l).policyClass p' j = s.policyClass p' j := rfl
@[simp] theorem putPlanLink_active (s : State) (l : OutLink) (d' : ChanNo) (l' : Level) : (s.putPlanLink l).active d' l' = s.active d' l' := rfl
@[simp] theorem putPlanLink_calendar (s : State) (l : OutLink) (d' : ChanNo) : (s.putPlanLink l).calendar d' = s.calendar d' := rfl
@[simp] theorem putPlanLink_contentionOf (s : State) (l : OutLink) (d' : ChanNo) : (s.putPlanLink l).contentionOf d' = s.contentionOf d' := rfl
@[simp] theorem putPlanLink_pollQueue (s : State) (l : OutLink) (d' : ChanNo) : (s.putPlanLink l).pollQueue d' = s.pollQueue d' := rfl
@[simp] theorem putPlanLink_sweepPointer (s : State) (l : OutLink) (d' : ChanNo) : (s.putPlanLink l).sweepPointer d' = s.sweepPointer d' := rfl
@[simp] theorem putPlanLink_buildCondition (s : State) (l : OutLink) (d' : ChanNo) : (s.putPlanLink l).buildCondition d' = s.buildCondition d' := rfl
@[simp] theorem putPlanLink_planStore (s : State) (l : OutLink) (d' : ChanNo) : (s.putPlanLink l).planStore d' = s.planStore d' := rfl
@[simp] theorem putPlanLink_expectQueue (s : State) (l : OutLink) (d' : ChanNo) : (s.putPlanLink l).expectQueue d' = s.expectQueue d' := rfl
@[simp] theorem putPlanLink_counter (s : State) (l : OutLink) (d' : ChanNo) (j : ChannelCounter) : (s.putPlanLink l).counter d' j = s.counter d' j := rfl
@[simp] theorem putPlanLink_deviceCounter (s : State) (l : OutLink) (j : DeviceCounter) : (s.putPlanLink l).deviceCounter j = s.deviceCounter j := rfl
@[simp] theorem putPlanLink_notice (s : State) (l : OutLink) (j : NoticeKind) : (s.putPlanLink l).notice j = s.notice j := rfl
@[simp] theorem putPlanLink_lookupIdentity (s : State) (l : OutLink) (h' : HwId) : (s.putPlanLink l).lookupIdentity h' = s.lookupIdentity h' := rfl

/-! ### putExpectQueue -/

@[simp] theorem putExpectQueue_pending (s : State) (c : ChanNo) (q : List ExpectEntry) : (s.putExpectQueue c q).pending = s.pending := rfl
@[simp] theorem putExpectQueue_lastReference (s : State) (c : ChanNo) (q : List ExpectEntry) : (s.putExpectQueue c q).lastReference = s.lastReference := rfl
@[simp] theorem putExpectQueue_referenceSeen (s : State) (c : ChanNo) (q : List ExpectEntry) : (s.putExpectQueue c q).referenceSeen = s.referenceSeen := rfl
@[simp] theorem putExpectQueue_channels (s : State) (c : ChanNo) (q : List ExpectEntry) : (s.putExpectQueue c q).channels = s.channels := rfl
@[simp] theorem putExpectQueue_stations (s : State) (c : ChanNo) (q : List ExpectEntry) : (s.putExpectQueue c q).stations = s.stations := rfl
@[simp] theorem putExpectQueue_freeList (s : State) (c : ChanNo) (q : List ExpectEntry) : (s.putExpectQueue c q).freeList = s.freeList := rfl
@[simp] theorem putExpectQueue_identity (s : State) (c : ChanNo) (q : List ExpectEntry) : (s.putExpectQueue c q).identity = s.identity := rfl
@[simp] theorem putExpectQueue_flows (s : State) (c : ChanNo) (q : List ExpectEntry) : (s.putExpectQueue c q).flows = s.flows := rfl
@[simp] theorem putExpectQueue_policyA (s : State) (c : ChanNo) (q : List ExpectEntry) : (s.putExpectQueue c q).policyA = s.policyA := rfl
@[simp] theorem putExpectQueue_policyB (s : State) (c : ChanNo) (q : List ExpectEntry) : (s.putExpectQueue c q).policyB = s.policyB := rfl
@[simp] theorem putExpectQueue_requestMarks (s : State) (c : ChanNo) (q : List ExpectEntry) : (s.putExpectQueue c q).requestMarks = s.requestMarks := rfl
@[simp] theorem putExpectQueue_activeLists (s : State) (c : ChanNo) (q : List ExpectEntry) : (s.putExpectQueue c q).activeLists = s.activeLists := rfl
@[simp] theorem putExpectQueue_calendars (s : State) (c : ChanNo) (q : List ExpectEntry) : (s.putExpectQueue c q).calendars = s.calendars := rfl
@[simp] theorem putExpectQueue_contention (s : State) (c : ChanNo) (q : List ExpectEntry) : (s.putExpectQueue c q).contention = s.contention := rfl
@[simp] theorem putExpectQueue_pollQueues (s : State) (c : ChanNo) (q : List ExpectEntry) : (s.putExpectQueue c q).pollQueues = s.pollQueues := rfl
@[simp] theorem putExpectQueue_sweepPointers (s : State) (c : ChanNo) (q : List ExpectEntry) : (s.putExpectQueue c q).sweepPointers = s.sweepPointers := rfl
@[simp] theorem putExpectQueue_adjustQueue (s : State) (c : ChanNo) (q : List ExpectEntry) : (s.putExpectQueue c q).adjustQueue = s.adjustQueue := rfl
@[simp] theorem putExpectQueue_engine (s : State) (c : ChanNo) (q : List ExpectEntry) : (s.putExpectQueue c q).engine = s.engine := rfl
@[simp] theorem putExpectQueue_buildConditions (s : State) (c : ChanNo) (q : List ExpectEntry) : (s.putExpectQueue c q).buildConditions = s.buildConditions := rfl
@[simp] theorem putExpectQueue_buildQueue (s : State) (c : ChanNo) (q : List ExpectEntry) : (s.putExpectQueue c q).buildQueue = s.buildQueue := rfl
@[simp] theorem putExpectQueue_planStores (s : State) (c : ChanNo) (q : List ExpectEntry) : (s.putExpectQueue c q).planStores = s.planStores := rfl
@[simp] theorem putExpectQueue_planLinkHold (s : State) (c : ChanNo) (q : List ExpectEntry) : (s.putExpectQueue c q).planLinkHold = s.planLinkHold := rfl
@[simp] theorem putExpectQueue_planLink (s : State) (c : ChanNo) (q : List ExpectEntry) : (s.putExpectQueue c q).planLink = s.planLink := rfl
@[simp] theorem putExpectQueue_strayRing (s : State) (c : ChanNo) (q : List ExpectEntry) : (s.putExpectQueue c q).strayRing = s.strayRing := rfl
@[simp] theorem putExpectQueue_overwrites (s : State) (c : ChanNo) (q : List ExpectEntry) : (s.putExpectQueue c q).overwrites = s.overwrites := rfl
@[simp] theorem putExpectQueue_forwardBuffer (s : State) (c : ChanNo) (q : List ExpectEntry) : (s.putExpectQueue c q).forwardBuffer = s.forwardBuffer := rfl
@[simp] theorem putExpectQueue_systemLink (s : State) (c : ChanNo) (q : List ExpectEntry) : (s.putExpectQueue c q).systemLink = s.systemLink := rfl
@[simp] theorem putExpectQueue_controlQueue (s : State) (c : ChanNo) (q : List ExpectEntry) : (s.putExpectQueue c q).controlQueue = s.controlQueue := rfl
@[simp] theorem putExpectQueue_inboundHold (s : State) (c : ChanNo) (q : List ExpectEntry) : (s.putExpectQueue c q).inboundHold = s.inboundHold := rfl
@[simp] theorem putExpectQueue_heldArrival (s : State) (c : ChanNo) (q : List ExpectEntry) : (s.putExpectQueue c q).heldArrival = s.heldArrival := rfl
@[simp] theorem putExpectQueue_execution (s : State) (c : ChanNo) (q : List ExpectEntry) : (s.putExpectQueue c q).execution = s.execution := rfl
@[simp] theorem putExpectQueue_responseQueue (s : State) (c : ChanNo) (q : List ExpectEntry) : (s.putExpectQueue c q).responseQueue = s.responseQueue := rfl
@[simp] theorem putExpectQueue_channelCounters (s : State) (c : ChanNo) (q : List ExpectEntry) : (s.putExpectQueue c q).channelCounters = s.channelCounters := rfl
@[simp] theorem putExpectQueue_deviceCounters (s : State) (c : ChanNo) (q : List ExpectEntry) : (s.putExpectQueue c q).deviceCounters = s.deviceCounters := rfl
@[simp] theorem putExpectQueue_noticeEnable (s : State) (c : ChanNo) (q : List ExpectEntry) : (s.putExpectQueue c q).noticeEnable = s.noticeEnable := rfl
@[simp] theorem putExpectQueue_notices (s : State) (c : ChanNo) (q : List ExpectEntry) : (s.putExpectQueue c q).notices = s.notices := rfl
@[simp] theorem putExpectQueue_freeDraws (s : State) (c : ChanNo) (q : List ExpectEntry) : (s.putExpectQueue c q).freeDraws = s.freeDraws := rfl
@[simp] theorem putExpectQueue_context (s : State) (c : ChanNo) (q : List ExpectEntry) (d' : ChanNo) : (s.putExpectQueue c q).context d' = s.context d' := rfl
@[simp] theorem putExpectQueue_params (s : State) (c : ChanNo) (q : List ExpectEntry) (d' : ChanNo) : (s.putExpectQueue c q).params d' = s.params d' := rfl
@[simp] theorem putExpectQueue_profile (s : State) (c : ChanNo) (q : List ExpectEntry) (d' : ChanNo) : (s.putExpectQueue c q).profile d' = s.profile d' := rfl
@[simp] theorem putExpectQueue_station (s : State) (c : ChanNo) (q : List ExpectEntry) (n' : StationNo) : (s.putExpectQueue c q).station n' = s.station n' := rfl
@[simp] theorem putExpectQueue_flow (s : State) (c : ChanNo) (q : List ExpectEntry) (f' : FlowNo) : (s.putExpectQueue c q).flow f' = s.flow f' := rfl
@[simp] theorem putExpectQueue_policyClass (s : State) (c : ChanNo) (q : List ExpectEntry) (p' : PolicySelect) (j : ClassNo) : (s.putExpectQueue c q).policyClass p' j = s.policyClass p' j := rfl
@[simp] theorem putExpectQueue_active (s : State) (c : ChanNo) (q : List ExpectEntry) (d' : ChanNo) (l' : Level) : (s.putExpectQueue c q).active d' l' = s.active d' l' := rfl
@[simp] theorem putExpectQueue_calendar (s : State) (c : ChanNo) (q : List ExpectEntry) (d' : ChanNo) : (s.putExpectQueue c q).calendar d' = s.calendar d' := rfl
@[simp] theorem putExpectQueue_contentionOf (s : State) (c : ChanNo) (q : List ExpectEntry) (d' : ChanNo) : (s.putExpectQueue c q).contentionOf d' = s.contentionOf d' := rfl
@[simp] theorem putExpectQueue_pollQueue (s : State) (c : ChanNo) (q : List ExpectEntry) (d' : ChanNo) : (s.putExpectQueue c q).pollQueue d' = s.pollQueue d' := rfl
@[simp] theorem putExpectQueue_sweepPointer (s : State) (c : ChanNo) (q : List ExpectEntry) (d' : ChanNo) : (s.putExpectQueue c q).sweepPointer d' = s.sweepPointer d' := rfl
@[simp] theorem putExpectQueue_buildCondition (s : State) (c : ChanNo) (q : List ExpectEntry) (d' : ChanNo) : (s.putExpectQueue c q).buildCondition d' = s.buildCondition d' := rfl
@[simp] theorem putExpectQueue_planStore (s : State) (c : ChanNo) (q : List ExpectEntry) (d' : ChanNo) : (s.putExpectQueue c q).planStore d' = s.planStore d' := rfl
@[simp] theorem putExpectQueue_counter (s : State) (c : ChanNo) (q : List ExpectEntry) (d' : ChanNo) (j : ChannelCounter) : (s.putExpectQueue c q).counter d' j = s.counter d' j := rfl
@[simp] theorem putExpectQueue_deviceCounter (s : State) (c : ChanNo) (q : List ExpectEntry) (j : DeviceCounter) : (s.putExpectQueue c q).deviceCounter j = s.deviceCounter j := rfl
@[simp] theorem putExpectQueue_notice (s : State) (c : ChanNo) (q : List ExpectEntry) (j : NoticeKind) : (s.putExpectQueue c q).notice j = s.notice j := rfl
@[simp] theorem putExpectQueue_lookupIdentity (s : State) (c : ChanNo) (q : List ExpectEntry) (h' : HwId) : (s.putExpectQueue c q).lookupIdentity h' = s.lookupIdentity h' := rfl

/-! ### putStrayRing -/

@[simp] theorem putStrayRing_pending (s : State) (q : List StrayEntry) (k : Nat) : (s.putStrayRing q k).pending = s.pending := rfl
@[simp] theorem putStrayRing_lastReference (s : State) (q : List StrayEntry) (k : Nat) : (s.putStrayRing q k).lastReference = s.lastReference := rfl
@[simp] theorem putStrayRing_referenceSeen (s : State) (q : List StrayEntry) (k : Nat) : (s.putStrayRing q k).referenceSeen = s.referenceSeen := rfl
@[simp] theorem putStrayRing_channels (s : State) (q : List StrayEntry) (k : Nat) : (s.putStrayRing q k).channels = s.channels := rfl
@[simp] theorem putStrayRing_stations (s : State) (q : List StrayEntry) (k : Nat) : (s.putStrayRing q k).stations = s.stations := rfl
@[simp] theorem putStrayRing_freeList (s : State) (q : List StrayEntry) (k : Nat) : (s.putStrayRing q k).freeList = s.freeList := rfl
@[simp] theorem putStrayRing_identity (s : State) (q : List StrayEntry) (k : Nat) : (s.putStrayRing q k).identity = s.identity := rfl
@[simp] theorem putStrayRing_flows (s : State) (q : List StrayEntry) (k : Nat) : (s.putStrayRing q k).flows = s.flows := rfl
@[simp] theorem putStrayRing_policyA (s : State) (q : List StrayEntry) (k : Nat) : (s.putStrayRing q k).policyA = s.policyA := rfl
@[simp] theorem putStrayRing_policyB (s : State) (q : List StrayEntry) (k : Nat) : (s.putStrayRing q k).policyB = s.policyB := rfl
@[simp] theorem putStrayRing_requestMarks (s : State) (q : List StrayEntry) (k : Nat) : (s.putStrayRing q k).requestMarks = s.requestMarks := rfl
@[simp] theorem putStrayRing_activeLists (s : State) (q : List StrayEntry) (k : Nat) : (s.putStrayRing q k).activeLists = s.activeLists := rfl
@[simp] theorem putStrayRing_calendars (s : State) (q : List StrayEntry) (k : Nat) : (s.putStrayRing q k).calendars = s.calendars := rfl
@[simp] theorem putStrayRing_contention (s : State) (q : List StrayEntry) (k : Nat) : (s.putStrayRing q k).contention = s.contention := rfl
@[simp] theorem putStrayRing_pollQueues (s : State) (q : List StrayEntry) (k : Nat) : (s.putStrayRing q k).pollQueues = s.pollQueues := rfl
@[simp] theorem putStrayRing_sweepPointers (s : State) (q : List StrayEntry) (k : Nat) : (s.putStrayRing q k).sweepPointers = s.sweepPointers := rfl
@[simp] theorem putStrayRing_adjustQueue (s : State) (q : List StrayEntry) (k : Nat) : (s.putStrayRing q k).adjustQueue = s.adjustQueue := rfl
@[simp] theorem putStrayRing_engine (s : State) (q : List StrayEntry) (k : Nat) : (s.putStrayRing q k).engine = s.engine := rfl
@[simp] theorem putStrayRing_buildConditions (s : State) (q : List StrayEntry) (k : Nat) : (s.putStrayRing q k).buildConditions = s.buildConditions := rfl
@[simp] theorem putStrayRing_buildQueue (s : State) (q : List StrayEntry) (k : Nat) : (s.putStrayRing q k).buildQueue = s.buildQueue := rfl
@[simp] theorem putStrayRing_planStores (s : State) (q : List StrayEntry) (k : Nat) : (s.putStrayRing q k).planStores = s.planStores := rfl
@[simp] theorem putStrayRing_planLinkHold (s : State) (q : List StrayEntry) (k : Nat) : (s.putStrayRing q k).planLinkHold = s.planLinkHold := rfl
@[simp] theorem putStrayRing_planLink (s : State) (q : List StrayEntry) (k : Nat) : (s.putStrayRing q k).planLink = s.planLink := rfl
@[simp] theorem putStrayRing_expectQueues (s : State) (q : List StrayEntry) (k : Nat) : (s.putStrayRing q k).expectQueues = s.expectQueues := rfl
@[simp] theorem putStrayRing_forwardBuffer (s : State) (q : List StrayEntry) (k : Nat) : (s.putStrayRing q k).forwardBuffer = s.forwardBuffer := rfl
@[simp] theorem putStrayRing_systemLink (s : State) (q : List StrayEntry) (k : Nat) : (s.putStrayRing q k).systemLink = s.systemLink := rfl
@[simp] theorem putStrayRing_controlQueue (s : State) (q : List StrayEntry) (k : Nat) : (s.putStrayRing q k).controlQueue = s.controlQueue := rfl
@[simp] theorem putStrayRing_inboundHold (s : State) (q : List StrayEntry) (k : Nat) : (s.putStrayRing q k).inboundHold = s.inboundHold := rfl
@[simp] theorem putStrayRing_heldArrival (s : State) (q : List StrayEntry) (k : Nat) : (s.putStrayRing q k).heldArrival = s.heldArrival := rfl
@[simp] theorem putStrayRing_execution (s : State) (q : List StrayEntry) (k : Nat) : (s.putStrayRing q k).execution = s.execution := rfl
@[simp] theorem putStrayRing_responseQueue (s : State) (q : List StrayEntry) (k : Nat) : (s.putStrayRing q k).responseQueue = s.responseQueue := rfl
@[simp] theorem putStrayRing_channelCounters (s : State) (q : List StrayEntry) (k : Nat) : (s.putStrayRing q k).channelCounters = s.channelCounters := rfl
@[simp] theorem putStrayRing_deviceCounters (s : State) (q : List StrayEntry) (k : Nat) : (s.putStrayRing q k).deviceCounters = s.deviceCounters := rfl
@[simp] theorem putStrayRing_noticeEnable (s : State) (q : List StrayEntry) (k : Nat) : (s.putStrayRing q k).noticeEnable = s.noticeEnable := rfl
@[simp] theorem putStrayRing_notices (s : State) (q : List StrayEntry) (k : Nat) : (s.putStrayRing q k).notices = s.notices := rfl
@[simp] theorem putStrayRing_freeDraws (s : State) (q : List StrayEntry) (k : Nat) : (s.putStrayRing q k).freeDraws = s.freeDraws := rfl
@[simp] theorem putStrayRing_strayRing (s : State) (q : List StrayEntry) (k : Nat) : (s.putStrayRing q k).strayRing = q := rfl
@[simp] theorem putStrayRing_overwrites (s : State) (q : List StrayEntry) (k : Nat) : (s.putStrayRing q k).overwrites = k := rfl
@[simp] theorem putStrayRing_context (s : State) (q : List StrayEntry) (k : Nat) (d' : ChanNo) : (s.putStrayRing q k).context d' = s.context d' := rfl
@[simp] theorem putStrayRing_params (s : State) (q : List StrayEntry) (k : Nat) (d' : ChanNo) : (s.putStrayRing q k).params d' = s.params d' := rfl
@[simp] theorem putStrayRing_profile (s : State) (q : List StrayEntry) (k : Nat) (d' : ChanNo) : (s.putStrayRing q k).profile d' = s.profile d' := rfl
@[simp] theorem putStrayRing_station (s : State) (q : List StrayEntry) (k : Nat) (n' : StationNo) : (s.putStrayRing q k).station n' = s.station n' := rfl
@[simp] theorem putStrayRing_flow (s : State) (q : List StrayEntry) (k : Nat) (f' : FlowNo) : (s.putStrayRing q k).flow f' = s.flow f' := rfl
@[simp] theorem putStrayRing_policyClass (s : State) (q : List StrayEntry) (k : Nat) (p' : PolicySelect) (j : ClassNo) : (s.putStrayRing q k).policyClass p' j = s.policyClass p' j := rfl
@[simp] theorem putStrayRing_active (s : State) (q : List StrayEntry) (k : Nat) (d' : ChanNo) (l' : Level) : (s.putStrayRing q k).active d' l' = s.active d' l' := rfl
@[simp] theorem putStrayRing_calendar (s : State) (q : List StrayEntry) (k : Nat) (d' : ChanNo) : (s.putStrayRing q k).calendar d' = s.calendar d' := rfl
@[simp] theorem putStrayRing_contentionOf (s : State) (q : List StrayEntry) (k : Nat) (d' : ChanNo) : (s.putStrayRing q k).contentionOf d' = s.contentionOf d' := rfl
@[simp] theorem putStrayRing_pollQueue (s : State) (q : List StrayEntry) (k : Nat) (d' : ChanNo) : (s.putStrayRing q k).pollQueue d' = s.pollQueue d' := rfl
@[simp] theorem putStrayRing_sweepPointer (s : State) (q : List StrayEntry) (k : Nat) (d' : ChanNo) : (s.putStrayRing q k).sweepPointer d' = s.sweepPointer d' := rfl
@[simp] theorem putStrayRing_buildCondition (s : State) (q : List StrayEntry) (k : Nat) (d' : ChanNo) : (s.putStrayRing q k).buildCondition d' = s.buildCondition d' := rfl
@[simp] theorem putStrayRing_planStore (s : State) (q : List StrayEntry) (k : Nat) (d' : ChanNo) : (s.putStrayRing q k).planStore d' = s.planStore d' := rfl
@[simp] theorem putStrayRing_expectQueue (s : State) (q : List StrayEntry) (k : Nat) (d' : ChanNo) : (s.putStrayRing q k).expectQueue d' = s.expectQueue d' := rfl
@[simp] theorem putStrayRing_counter (s : State) (q : List StrayEntry) (k : Nat) (d' : ChanNo) (j : ChannelCounter) : (s.putStrayRing q k).counter d' j = s.counter d' j := rfl
@[simp] theorem putStrayRing_deviceCounter (s : State) (q : List StrayEntry) (k : Nat) (j : DeviceCounter) : (s.putStrayRing q k).deviceCounter j = s.deviceCounter j := rfl
@[simp] theorem putStrayRing_notice (s : State) (q : List StrayEntry) (k : Nat) (j : NoticeKind) : (s.putStrayRing q k).notice j = s.notice j := rfl
@[simp] theorem putStrayRing_lookupIdentity (s : State) (q : List StrayEntry) (k : Nat) (h' : HwId) : (s.putStrayRing q k).lookupIdentity h' = s.lookupIdentity h' := rfl

/-! ### putForwardBuffer -/

@[simp] theorem putForwardBuffer_pending (s : State) (q : List ForwardUnit) : (s.putForwardBuffer q).pending = s.pending := rfl
@[simp] theorem putForwardBuffer_lastReference (s : State) (q : List ForwardUnit) : (s.putForwardBuffer q).lastReference = s.lastReference := rfl
@[simp] theorem putForwardBuffer_referenceSeen (s : State) (q : List ForwardUnit) : (s.putForwardBuffer q).referenceSeen = s.referenceSeen := rfl
@[simp] theorem putForwardBuffer_channels (s : State) (q : List ForwardUnit) : (s.putForwardBuffer q).channels = s.channels := rfl
@[simp] theorem putForwardBuffer_stations (s : State) (q : List ForwardUnit) : (s.putForwardBuffer q).stations = s.stations := rfl
@[simp] theorem putForwardBuffer_freeList (s : State) (q : List ForwardUnit) : (s.putForwardBuffer q).freeList = s.freeList := rfl
@[simp] theorem putForwardBuffer_identity (s : State) (q : List ForwardUnit) : (s.putForwardBuffer q).identity = s.identity := rfl
@[simp] theorem putForwardBuffer_flows (s : State) (q : List ForwardUnit) : (s.putForwardBuffer q).flows = s.flows := rfl
@[simp] theorem putForwardBuffer_policyA (s : State) (q : List ForwardUnit) : (s.putForwardBuffer q).policyA = s.policyA := rfl
@[simp] theorem putForwardBuffer_policyB (s : State) (q : List ForwardUnit) : (s.putForwardBuffer q).policyB = s.policyB := rfl
@[simp] theorem putForwardBuffer_requestMarks (s : State) (q : List ForwardUnit) : (s.putForwardBuffer q).requestMarks = s.requestMarks := rfl
@[simp] theorem putForwardBuffer_activeLists (s : State) (q : List ForwardUnit) : (s.putForwardBuffer q).activeLists = s.activeLists := rfl
@[simp] theorem putForwardBuffer_calendars (s : State) (q : List ForwardUnit) : (s.putForwardBuffer q).calendars = s.calendars := rfl
@[simp] theorem putForwardBuffer_contention (s : State) (q : List ForwardUnit) : (s.putForwardBuffer q).contention = s.contention := rfl
@[simp] theorem putForwardBuffer_pollQueues (s : State) (q : List ForwardUnit) : (s.putForwardBuffer q).pollQueues = s.pollQueues := rfl
@[simp] theorem putForwardBuffer_sweepPointers (s : State) (q : List ForwardUnit) : (s.putForwardBuffer q).sweepPointers = s.sweepPointers := rfl
@[simp] theorem putForwardBuffer_adjustQueue (s : State) (q : List ForwardUnit) : (s.putForwardBuffer q).adjustQueue = s.adjustQueue := rfl
@[simp] theorem putForwardBuffer_engine (s : State) (q : List ForwardUnit) : (s.putForwardBuffer q).engine = s.engine := rfl
@[simp] theorem putForwardBuffer_buildConditions (s : State) (q : List ForwardUnit) : (s.putForwardBuffer q).buildConditions = s.buildConditions := rfl
@[simp] theorem putForwardBuffer_buildQueue (s : State) (q : List ForwardUnit) : (s.putForwardBuffer q).buildQueue = s.buildQueue := rfl
@[simp] theorem putForwardBuffer_planStores (s : State) (q : List ForwardUnit) : (s.putForwardBuffer q).planStores = s.planStores := rfl
@[simp] theorem putForwardBuffer_planLinkHold (s : State) (q : List ForwardUnit) : (s.putForwardBuffer q).planLinkHold = s.planLinkHold := rfl
@[simp] theorem putForwardBuffer_planLink (s : State) (q : List ForwardUnit) : (s.putForwardBuffer q).planLink = s.planLink := rfl
@[simp] theorem putForwardBuffer_expectQueues (s : State) (q : List ForwardUnit) : (s.putForwardBuffer q).expectQueues = s.expectQueues := rfl
@[simp] theorem putForwardBuffer_strayRing (s : State) (q : List ForwardUnit) : (s.putForwardBuffer q).strayRing = s.strayRing := rfl
@[simp] theorem putForwardBuffer_overwrites (s : State) (q : List ForwardUnit) : (s.putForwardBuffer q).overwrites = s.overwrites := rfl
@[simp] theorem putForwardBuffer_systemLink (s : State) (q : List ForwardUnit) : (s.putForwardBuffer q).systemLink = s.systemLink := rfl
@[simp] theorem putForwardBuffer_controlQueue (s : State) (q : List ForwardUnit) : (s.putForwardBuffer q).controlQueue = s.controlQueue := rfl
@[simp] theorem putForwardBuffer_inboundHold (s : State) (q : List ForwardUnit) : (s.putForwardBuffer q).inboundHold = s.inboundHold := rfl
@[simp] theorem putForwardBuffer_heldArrival (s : State) (q : List ForwardUnit) : (s.putForwardBuffer q).heldArrival = s.heldArrival := rfl
@[simp] theorem putForwardBuffer_execution (s : State) (q : List ForwardUnit) : (s.putForwardBuffer q).execution = s.execution := rfl
@[simp] theorem putForwardBuffer_responseQueue (s : State) (q : List ForwardUnit) : (s.putForwardBuffer q).responseQueue = s.responseQueue := rfl
@[simp] theorem putForwardBuffer_channelCounters (s : State) (q : List ForwardUnit) : (s.putForwardBuffer q).channelCounters = s.channelCounters := rfl
@[simp] theorem putForwardBuffer_deviceCounters (s : State) (q : List ForwardUnit) : (s.putForwardBuffer q).deviceCounters = s.deviceCounters := rfl
@[simp] theorem putForwardBuffer_noticeEnable (s : State) (q : List ForwardUnit) : (s.putForwardBuffer q).noticeEnable = s.noticeEnable := rfl
@[simp] theorem putForwardBuffer_notices (s : State) (q : List ForwardUnit) : (s.putForwardBuffer q).notices = s.notices := rfl
@[simp] theorem putForwardBuffer_freeDraws (s : State) (q : List ForwardUnit) : (s.putForwardBuffer q).freeDraws = s.freeDraws := rfl
@[simp] theorem putForwardBuffer_forwardBuffer (s : State) (q : List ForwardUnit) : (s.putForwardBuffer q).forwardBuffer = q := rfl
@[simp] theorem putForwardBuffer_context (s : State) (q : List ForwardUnit) (d' : ChanNo) : (s.putForwardBuffer q).context d' = s.context d' := rfl
@[simp] theorem putForwardBuffer_params (s : State) (q : List ForwardUnit) (d' : ChanNo) : (s.putForwardBuffer q).params d' = s.params d' := rfl
@[simp] theorem putForwardBuffer_profile (s : State) (q : List ForwardUnit) (d' : ChanNo) : (s.putForwardBuffer q).profile d' = s.profile d' := rfl
@[simp] theorem putForwardBuffer_station (s : State) (q : List ForwardUnit) (n' : StationNo) : (s.putForwardBuffer q).station n' = s.station n' := rfl
@[simp] theorem putForwardBuffer_flow (s : State) (q : List ForwardUnit) (f' : FlowNo) : (s.putForwardBuffer q).flow f' = s.flow f' := rfl
@[simp] theorem putForwardBuffer_policyClass (s : State) (q : List ForwardUnit) (p' : PolicySelect) (j : ClassNo) : (s.putForwardBuffer q).policyClass p' j = s.policyClass p' j := rfl
@[simp] theorem putForwardBuffer_active (s : State) (q : List ForwardUnit) (d' : ChanNo) (l' : Level) : (s.putForwardBuffer q).active d' l' = s.active d' l' := rfl
@[simp] theorem putForwardBuffer_calendar (s : State) (q : List ForwardUnit) (d' : ChanNo) : (s.putForwardBuffer q).calendar d' = s.calendar d' := rfl
@[simp] theorem putForwardBuffer_contentionOf (s : State) (q : List ForwardUnit) (d' : ChanNo) : (s.putForwardBuffer q).contentionOf d' = s.contentionOf d' := rfl
@[simp] theorem putForwardBuffer_pollQueue (s : State) (q : List ForwardUnit) (d' : ChanNo) : (s.putForwardBuffer q).pollQueue d' = s.pollQueue d' := rfl
@[simp] theorem putForwardBuffer_sweepPointer (s : State) (q : List ForwardUnit) (d' : ChanNo) : (s.putForwardBuffer q).sweepPointer d' = s.sweepPointer d' := rfl
@[simp] theorem putForwardBuffer_buildCondition (s : State) (q : List ForwardUnit) (d' : ChanNo) : (s.putForwardBuffer q).buildCondition d' = s.buildCondition d' := rfl
@[simp] theorem putForwardBuffer_planStore (s : State) (q : List ForwardUnit) (d' : ChanNo) : (s.putForwardBuffer q).planStore d' = s.planStore d' := rfl
@[simp] theorem putForwardBuffer_expectQueue (s : State) (q : List ForwardUnit) (d' : ChanNo) : (s.putForwardBuffer q).expectQueue d' = s.expectQueue d' := rfl
@[simp] theorem putForwardBuffer_counter (s : State) (q : List ForwardUnit) (d' : ChanNo) (j : ChannelCounter) : (s.putForwardBuffer q).counter d' j = s.counter d' j := rfl
@[simp] theorem putForwardBuffer_deviceCounter (s : State) (q : List ForwardUnit) (j : DeviceCounter) : (s.putForwardBuffer q).deviceCounter j = s.deviceCounter j := rfl
@[simp] theorem putForwardBuffer_notice (s : State) (q : List ForwardUnit) (j : NoticeKind) : (s.putForwardBuffer q).notice j = s.notice j := rfl
@[simp] theorem putForwardBuffer_lookupIdentity (s : State) (q : List ForwardUnit) (h' : HwId) : (s.putForwardBuffer q).lookupIdentity h' = s.lookupIdentity h' := rfl

/-! ### putSystemLink -/

@[simp] theorem putSystemLink_pending (s : State) (l : OutLink) : (s.putSystemLink l).pending = s.pending := rfl
@[simp] theorem putSystemLink_lastReference (s : State) (l : OutLink) : (s.putSystemLink l).lastReference = s.lastReference := rfl
@[simp] theorem putSystemLink_referenceSeen (s : State) (l : OutLink) : (s.putSystemLink l).referenceSeen = s.referenceSeen := rfl
@[simp] theorem putSystemLink_channels (s : State) (l : OutLink) : (s.putSystemLink l).channels = s.channels := rfl
@[simp] theorem putSystemLink_stations (s : State) (l : OutLink) : (s.putSystemLink l).stations = s.stations := rfl
@[simp] theorem putSystemLink_freeList (s : State) (l : OutLink) : (s.putSystemLink l).freeList = s.freeList := rfl
@[simp] theorem putSystemLink_identity (s : State) (l : OutLink) : (s.putSystemLink l).identity = s.identity := rfl
@[simp] theorem putSystemLink_flows (s : State) (l : OutLink) : (s.putSystemLink l).flows = s.flows := rfl
@[simp] theorem putSystemLink_policyA (s : State) (l : OutLink) : (s.putSystemLink l).policyA = s.policyA := rfl
@[simp] theorem putSystemLink_policyB (s : State) (l : OutLink) : (s.putSystemLink l).policyB = s.policyB := rfl
@[simp] theorem putSystemLink_requestMarks (s : State) (l : OutLink) : (s.putSystemLink l).requestMarks = s.requestMarks := rfl
@[simp] theorem putSystemLink_activeLists (s : State) (l : OutLink) : (s.putSystemLink l).activeLists = s.activeLists := rfl
@[simp] theorem putSystemLink_calendars (s : State) (l : OutLink) : (s.putSystemLink l).calendars = s.calendars := rfl
@[simp] theorem putSystemLink_contention (s : State) (l : OutLink) : (s.putSystemLink l).contention = s.contention := rfl
@[simp] theorem putSystemLink_pollQueues (s : State) (l : OutLink) : (s.putSystemLink l).pollQueues = s.pollQueues := rfl
@[simp] theorem putSystemLink_sweepPointers (s : State) (l : OutLink) : (s.putSystemLink l).sweepPointers = s.sweepPointers := rfl
@[simp] theorem putSystemLink_adjustQueue (s : State) (l : OutLink) : (s.putSystemLink l).adjustQueue = s.adjustQueue := rfl
@[simp] theorem putSystemLink_engine (s : State) (l : OutLink) : (s.putSystemLink l).engine = s.engine := rfl
@[simp] theorem putSystemLink_buildConditions (s : State) (l : OutLink) : (s.putSystemLink l).buildConditions = s.buildConditions := rfl
@[simp] theorem putSystemLink_buildQueue (s : State) (l : OutLink) : (s.putSystemLink l).buildQueue = s.buildQueue := rfl
@[simp] theorem putSystemLink_planStores (s : State) (l : OutLink) : (s.putSystemLink l).planStores = s.planStores := rfl
@[simp] theorem putSystemLink_planLinkHold (s : State) (l : OutLink) : (s.putSystemLink l).planLinkHold = s.planLinkHold := rfl
@[simp] theorem putSystemLink_planLink (s : State) (l : OutLink) : (s.putSystemLink l).planLink = s.planLink := rfl
@[simp] theorem putSystemLink_expectQueues (s : State) (l : OutLink) : (s.putSystemLink l).expectQueues = s.expectQueues := rfl
@[simp] theorem putSystemLink_strayRing (s : State) (l : OutLink) : (s.putSystemLink l).strayRing = s.strayRing := rfl
@[simp] theorem putSystemLink_overwrites (s : State) (l : OutLink) : (s.putSystemLink l).overwrites = s.overwrites := rfl
@[simp] theorem putSystemLink_forwardBuffer (s : State) (l : OutLink) : (s.putSystemLink l).forwardBuffer = s.forwardBuffer := rfl
@[simp] theorem putSystemLink_controlQueue (s : State) (l : OutLink) : (s.putSystemLink l).controlQueue = s.controlQueue := rfl
@[simp] theorem putSystemLink_inboundHold (s : State) (l : OutLink) : (s.putSystemLink l).inboundHold = s.inboundHold := rfl
@[simp] theorem putSystemLink_heldArrival (s : State) (l : OutLink) : (s.putSystemLink l).heldArrival = s.heldArrival := rfl
@[simp] theorem putSystemLink_execution (s : State) (l : OutLink) : (s.putSystemLink l).execution = s.execution := rfl
@[simp] theorem putSystemLink_responseQueue (s : State) (l : OutLink) : (s.putSystemLink l).responseQueue = s.responseQueue := rfl
@[simp] theorem putSystemLink_channelCounters (s : State) (l : OutLink) : (s.putSystemLink l).channelCounters = s.channelCounters := rfl
@[simp] theorem putSystemLink_deviceCounters (s : State) (l : OutLink) : (s.putSystemLink l).deviceCounters = s.deviceCounters := rfl
@[simp] theorem putSystemLink_noticeEnable (s : State) (l : OutLink) : (s.putSystemLink l).noticeEnable = s.noticeEnable := rfl
@[simp] theorem putSystemLink_notices (s : State) (l : OutLink) : (s.putSystemLink l).notices = s.notices := rfl
@[simp] theorem putSystemLink_freeDraws (s : State) (l : OutLink) : (s.putSystemLink l).freeDraws = s.freeDraws := rfl
@[simp] theorem putSystemLink_systemLink (s : State) (l : OutLink) : (s.putSystemLink l).systemLink = l := rfl
@[simp] theorem putSystemLink_context (s : State) (l : OutLink) (d' : ChanNo) : (s.putSystemLink l).context d' = s.context d' := rfl
@[simp] theorem putSystemLink_params (s : State) (l : OutLink) (d' : ChanNo) : (s.putSystemLink l).params d' = s.params d' := rfl
@[simp] theorem putSystemLink_profile (s : State) (l : OutLink) (d' : ChanNo) : (s.putSystemLink l).profile d' = s.profile d' := rfl
@[simp] theorem putSystemLink_station (s : State) (l : OutLink) (n' : StationNo) : (s.putSystemLink l).station n' = s.station n' := rfl
@[simp] theorem putSystemLink_flow (s : State) (l : OutLink) (f' : FlowNo) : (s.putSystemLink l).flow f' = s.flow f' := rfl
@[simp] theorem putSystemLink_policyClass (s : State) (l : OutLink) (p' : PolicySelect) (j : ClassNo) : (s.putSystemLink l).policyClass p' j = s.policyClass p' j := rfl
@[simp] theorem putSystemLink_active (s : State) (l : OutLink) (d' : ChanNo) (l' : Level) : (s.putSystemLink l).active d' l' = s.active d' l' := rfl
@[simp] theorem putSystemLink_calendar (s : State) (l : OutLink) (d' : ChanNo) : (s.putSystemLink l).calendar d' = s.calendar d' := rfl
@[simp] theorem putSystemLink_contentionOf (s : State) (l : OutLink) (d' : ChanNo) : (s.putSystemLink l).contentionOf d' = s.contentionOf d' := rfl
@[simp] theorem putSystemLink_pollQueue (s : State) (l : OutLink) (d' : ChanNo) : (s.putSystemLink l).pollQueue d' = s.pollQueue d' := rfl
@[simp] theorem putSystemLink_sweepPointer (s : State) (l : OutLink) (d' : ChanNo) : (s.putSystemLink l).sweepPointer d' = s.sweepPointer d' := rfl
@[simp] theorem putSystemLink_buildCondition (s : State) (l : OutLink) (d' : ChanNo) : (s.putSystemLink l).buildCondition d' = s.buildCondition d' := rfl
@[simp] theorem putSystemLink_planStore (s : State) (l : OutLink) (d' : ChanNo) : (s.putSystemLink l).planStore d' = s.planStore d' := rfl
@[simp] theorem putSystemLink_expectQueue (s : State) (l : OutLink) (d' : ChanNo) : (s.putSystemLink l).expectQueue d' = s.expectQueue d' := rfl
@[simp] theorem putSystemLink_counter (s : State) (l : OutLink) (d' : ChanNo) (j : ChannelCounter) : (s.putSystemLink l).counter d' j = s.counter d' j := rfl
@[simp] theorem putSystemLink_deviceCounter (s : State) (l : OutLink) (j : DeviceCounter) : (s.putSystemLink l).deviceCounter j = s.deviceCounter j := rfl
@[simp] theorem putSystemLink_notice (s : State) (l : OutLink) (j : NoticeKind) : (s.putSystemLink l).notice j = s.notice j := rfl
@[simp] theorem putSystemLink_lookupIdentity (s : State) (l : OutLink) (h' : HwId) : (s.putSystemLink l).lookupIdentity h' = s.lookupIdentity h' := rfl

/-! ### putControlQueue -/

@[simp] theorem putControlQueue_pending (s : State) (q : List RawFrame) : (s.putControlQueue q).pending = s.pending := rfl
@[simp] theorem putControlQueue_lastReference (s : State) (q : List RawFrame) : (s.putControlQueue q).lastReference = s.lastReference := rfl
@[simp] theorem putControlQueue_referenceSeen (s : State) (q : List RawFrame) : (s.putControlQueue q).referenceSeen = s.referenceSeen := rfl
@[simp] theorem putControlQueue_channels (s : State) (q : List RawFrame) : (s.putControlQueue q).channels = s.channels := rfl
@[simp] theorem putControlQueue_stations (s : State) (q : List RawFrame) : (s.putControlQueue q).stations = s.stations := rfl
@[simp] theorem putControlQueue_freeList (s : State) (q : List RawFrame) : (s.putControlQueue q).freeList = s.freeList := rfl
@[simp] theorem putControlQueue_identity (s : State) (q : List RawFrame) : (s.putControlQueue q).identity = s.identity := rfl
@[simp] theorem putControlQueue_flows (s : State) (q : List RawFrame) : (s.putControlQueue q).flows = s.flows := rfl
@[simp] theorem putControlQueue_policyA (s : State) (q : List RawFrame) : (s.putControlQueue q).policyA = s.policyA := rfl
@[simp] theorem putControlQueue_policyB (s : State) (q : List RawFrame) : (s.putControlQueue q).policyB = s.policyB := rfl
@[simp] theorem putControlQueue_requestMarks (s : State) (q : List RawFrame) : (s.putControlQueue q).requestMarks = s.requestMarks := rfl
@[simp] theorem putControlQueue_activeLists (s : State) (q : List RawFrame) : (s.putControlQueue q).activeLists = s.activeLists := rfl
@[simp] theorem putControlQueue_calendars (s : State) (q : List RawFrame) : (s.putControlQueue q).calendars = s.calendars := rfl
@[simp] theorem putControlQueue_contention (s : State) (q : List RawFrame) : (s.putControlQueue q).contention = s.contention := rfl
@[simp] theorem putControlQueue_pollQueues (s : State) (q : List RawFrame) : (s.putControlQueue q).pollQueues = s.pollQueues := rfl
@[simp] theorem putControlQueue_sweepPointers (s : State) (q : List RawFrame) : (s.putControlQueue q).sweepPointers = s.sweepPointers := rfl
@[simp] theorem putControlQueue_adjustQueue (s : State) (q : List RawFrame) : (s.putControlQueue q).adjustQueue = s.adjustQueue := rfl
@[simp] theorem putControlQueue_engine (s : State) (q : List RawFrame) : (s.putControlQueue q).engine = s.engine := rfl
@[simp] theorem putControlQueue_buildConditions (s : State) (q : List RawFrame) : (s.putControlQueue q).buildConditions = s.buildConditions := rfl
@[simp] theorem putControlQueue_buildQueue (s : State) (q : List RawFrame) : (s.putControlQueue q).buildQueue = s.buildQueue := rfl
@[simp] theorem putControlQueue_planStores (s : State) (q : List RawFrame) : (s.putControlQueue q).planStores = s.planStores := rfl
@[simp] theorem putControlQueue_planLinkHold (s : State) (q : List RawFrame) : (s.putControlQueue q).planLinkHold = s.planLinkHold := rfl
@[simp] theorem putControlQueue_planLink (s : State) (q : List RawFrame) : (s.putControlQueue q).planLink = s.planLink := rfl
@[simp] theorem putControlQueue_expectQueues (s : State) (q : List RawFrame) : (s.putControlQueue q).expectQueues = s.expectQueues := rfl
@[simp] theorem putControlQueue_strayRing (s : State) (q : List RawFrame) : (s.putControlQueue q).strayRing = s.strayRing := rfl
@[simp] theorem putControlQueue_overwrites (s : State) (q : List RawFrame) : (s.putControlQueue q).overwrites = s.overwrites := rfl
@[simp] theorem putControlQueue_forwardBuffer (s : State) (q : List RawFrame) : (s.putControlQueue q).forwardBuffer = s.forwardBuffer := rfl
@[simp] theorem putControlQueue_systemLink (s : State) (q : List RawFrame) : (s.putControlQueue q).systemLink = s.systemLink := rfl
@[simp] theorem putControlQueue_inboundHold (s : State) (q : List RawFrame) : (s.putControlQueue q).inboundHold = s.inboundHold := rfl
@[simp] theorem putControlQueue_heldArrival (s : State) (q : List RawFrame) : (s.putControlQueue q).heldArrival = s.heldArrival := rfl
@[simp] theorem putControlQueue_execution (s : State) (q : List RawFrame) : (s.putControlQueue q).execution = s.execution := rfl
@[simp] theorem putControlQueue_responseQueue (s : State) (q : List RawFrame) : (s.putControlQueue q).responseQueue = s.responseQueue := rfl
@[simp] theorem putControlQueue_channelCounters (s : State) (q : List RawFrame) : (s.putControlQueue q).channelCounters = s.channelCounters := rfl
@[simp] theorem putControlQueue_deviceCounters (s : State) (q : List RawFrame) : (s.putControlQueue q).deviceCounters = s.deviceCounters := rfl
@[simp] theorem putControlQueue_noticeEnable (s : State) (q : List RawFrame) : (s.putControlQueue q).noticeEnable = s.noticeEnable := rfl
@[simp] theorem putControlQueue_notices (s : State) (q : List RawFrame) : (s.putControlQueue q).notices = s.notices := rfl
@[simp] theorem putControlQueue_freeDraws (s : State) (q : List RawFrame) : (s.putControlQueue q).freeDraws = s.freeDraws := rfl
@[simp] theorem putControlQueue_controlQueue (s : State) (q : List RawFrame) : (s.putControlQueue q).controlQueue = q := rfl
@[simp] theorem putControlQueue_context (s : State) (q : List RawFrame) (d' : ChanNo) : (s.putControlQueue q).context d' = s.context d' := rfl
@[simp] theorem putControlQueue_params (s : State) (q : List RawFrame) (d' : ChanNo) : (s.putControlQueue q).params d' = s.params d' := rfl
@[simp] theorem putControlQueue_profile (s : State) (q : List RawFrame) (d' : ChanNo) : (s.putControlQueue q).profile d' = s.profile d' := rfl
@[simp] theorem putControlQueue_station (s : State) (q : List RawFrame) (n' : StationNo) : (s.putControlQueue q).station n' = s.station n' := rfl
@[simp] theorem putControlQueue_flow (s : State) (q : List RawFrame) (f' : FlowNo) : (s.putControlQueue q).flow f' = s.flow f' := rfl
@[simp] theorem putControlQueue_policyClass (s : State) (q : List RawFrame) (p' : PolicySelect) (j : ClassNo) : (s.putControlQueue q).policyClass p' j = s.policyClass p' j := rfl
@[simp] theorem putControlQueue_active (s : State) (q : List RawFrame) (d' : ChanNo) (l' : Level) : (s.putControlQueue q).active d' l' = s.active d' l' := rfl
@[simp] theorem putControlQueue_calendar (s : State) (q : List RawFrame) (d' : ChanNo) : (s.putControlQueue q).calendar d' = s.calendar d' := rfl
@[simp] theorem putControlQueue_contentionOf (s : State) (q : List RawFrame) (d' : ChanNo) : (s.putControlQueue q).contentionOf d' = s.contentionOf d' := rfl
@[simp] theorem putControlQueue_pollQueue (s : State) (q : List RawFrame) (d' : ChanNo) : (s.putControlQueue q).pollQueue d' = s.pollQueue d' := rfl
@[simp] theorem putControlQueue_sweepPointer (s : State) (q : List RawFrame) (d' : ChanNo) : (s.putControlQueue q).sweepPointer d' = s.sweepPointer d' := rfl
@[simp] theorem putControlQueue_buildCondition (s : State) (q : List RawFrame) (d' : ChanNo) : (s.putControlQueue q).buildCondition d' = s.buildCondition d' := rfl
@[simp] theorem putControlQueue_planStore (s : State) (q : List RawFrame) (d' : ChanNo) : (s.putControlQueue q).planStore d' = s.planStore d' := rfl
@[simp] theorem putControlQueue_expectQueue (s : State) (q : List RawFrame) (d' : ChanNo) : (s.putControlQueue q).expectQueue d' = s.expectQueue d' := rfl
@[simp] theorem putControlQueue_counter (s : State) (q : List RawFrame) (d' : ChanNo) (j : ChannelCounter) : (s.putControlQueue q).counter d' j = s.counter d' j := rfl
@[simp] theorem putControlQueue_deviceCounter (s : State) (q : List RawFrame) (j : DeviceCounter) : (s.putControlQueue q).deviceCounter j = s.deviceCounter j := rfl
@[simp] theorem putControlQueue_notice (s : State) (q : List RawFrame) (j : NoticeKind) : (s.putControlQueue q).notice j = s.notice j := rfl
@[simp] theorem putControlQueue_lookupIdentity (s : State) (q : List RawFrame) (h' : HwId) : (s.putControlQueue q).lookupIdentity h' = s.lookupIdentity h' := rfl

/-! ### putExecution -/

@[simp] theorem putExecution_pending (s : State) (e : Option Execution) : (s.putExecution e).pending = s.pending := rfl
@[simp] theorem putExecution_lastReference (s : State) (e : Option Execution) : (s.putExecution e).lastReference = s.lastReference := rfl
@[simp] theorem putExecution_referenceSeen (s : State) (e : Option Execution) : (s.putExecution e).referenceSeen = s.referenceSeen := rfl
@[simp] theorem putExecution_channels (s : State) (e : Option Execution) : (s.putExecution e).channels = s.channels := rfl
@[simp] theorem putExecution_stations (s : State) (e : Option Execution) : (s.putExecution e).stations = s.stations := rfl
@[simp] theorem putExecution_freeList (s : State) (e : Option Execution) : (s.putExecution e).freeList = s.freeList := rfl
@[simp] theorem putExecution_identity (s : State) (e : Option Execution) : (s.putExecution e).identity = s.identity := rfl
@[simp] theorem putExecution_flows (s : State) (e : Option Execution) : (s.putExecution e).flows = s.flows := rfl
@[simp] theorem putExecution_policyA (s : State) (e : Option Execution) : (s.putExecution e).policyA = s.policyA := rfl
@[simp] theorem putExecution_policyB (s : State) (e : Option Execution) : (s.putExecution e).policyB = s.policyB := rfl
@[simp] theorem putExecution_requestMarks (s : State) (e : Option Execution) : (s.putExecution e).requestMarks = s.requestMarks := rfl
@[simp] theorem putExecution_activeLists (s : State) (e : Option Execution) : (s.putExecution e).activeLists = s.activeLists := rfl
@[simp] theorem putExecution_calendars (s : State) (e : Option Execution) : (s.putExecution e).calendars = s.calendars := rfl
@[simp] theorem putExecution_contention (s : State) (e : Option Execution) : (s.putExecution e).contention = s.contention := rfl
@[simp] theorem putExecution_pollQueues (s : State) (e : Option Execution) : (s.putExecution e).pollQueues = s.pollQueues := rfl
@[simp] theorem putExecution_sweepPointers (s : State) (e : Option Execution) : (s.putExecution e).sweepPointers = s.sweepPointers := rfl
@[simp] theorem putExecution_adjustQueue (s : State) (e : Option Execution) : (s.putExecution e).adjustQueue = s.adjustQueue := rfl
@[simp] theorem putExecution_engine (s : State) (e : Option Execution) : (s.putExecution e).engine = s.engine := rfl
@[simp] theorem putExecution_buildConditions (s : State) (e : Option Execution) : (s.putExecution e).buildConditions = s.buildConditions := rfl
@[simp] theorem putExecution_buildQueue (s : State) (e : Option Execution) : (s.putExecution e).buildQueue = s.buildQueue := rfl
@[simp] theorem putExecution_planStores (s : State) (e : Option Execution) : (s.putExecution e).planStores = s.planStores := rfl
@[simp] theorem putExecution_planLinkHold (s : State) (e : Option Execution) : (s.putExecution e).planLinkHold = s.planLinkHold := rfl
@[simp] theorem putExecution_planLink (s : State) (e : Option Execution) : (s.putExecution e).planLink = s.planLink := rfl
@[simp] theorem putExecution_expectQueues (s : State) (e : Option Execution) : (s.putExecution e).expectQueues = s.expectQueues := rfl
@[simp] theorem putExecution_strayRing (s : State) (e : Option Execution) : (s.putExecution e).strayRing = s.strayRing := rfl
@[simp] theorem putExecution_overwrites (s : State) (e : Option Execution) : (s.putExecution e).overwrites = s.overwrites := rfl
@[simp] theorem putExecution_forwardBuffer (s : State) (e : Option Execution) : (s.putExecution e).forwardBuffer = s.forwardBuffer := rfl
@[simp] theorem putExecution_systemLink (s : State) (e : Option Execution) : (s.putExecution e).systemLink = s.systemLink := rfl
@[simp] theorem putExecution_controlQueue (s : State) (e : Option Execution) : (s.putExecution e).controlQueue = s.controlQueue := rfl
@[simp] theorem putExecution_inboundHold (s : State) (e : Option Execution) : (s.putExecution e).inboundHold = s.inboundHold := rfl
@[simp] theorem putExecution_heldArrival (s : State) (e : Option Execution) : (s.putExecution e).heldArrival = s.heldArrival := rfl
@[simp] theorem putExecution_responseQueue (s : State) (e : Option Execution) : (s.putExecution e).responseQueue = s.responseQueue := rfl
@[simp] theorem putExecution_channelCounters (s : State) (e : Option Execution) : (s.putExecution e).channelCounters = s.channelCounters := rfl
@[simp] theorem putExecution_deviceCounters (s : State) (e : Option Execution) : (s.putExecution e).deviceCounters = s.deviceCounters := rfl
@[simp] theorem putExecution_noticeEnable (s : State) (e : Option Execution) : (s.putExecution e).noticeEnable = s.noticeEnable := rfl
@[simp] theorem putExecution_notices (s : State) (e : Option Execution) : (s.putExecution e).notices = s.notices := rfl
@[simp] theorem putExecution_freeDraws (s : State) (e : Option Execution) : (s.putExecution e).freeDraws = s.freeDraws := rfl
@[simp] theorem putExecution_execution (s : State) (e : Option Execution) : (s.putExecution e).execution = e := rfl
@[simp] theorem putExecution_context (s : State) (e : Option Execution) (d' : ChanNo) : (s.putExecution e).context d' = s.context d' := rfl
@[simp] theorem putExecution_params (s : State) (e : Option Execution) (d' : ChanNo) : (s.putExecution e).params d' = s.params d' := rfl
@[simp] theorem putExecution_profile (s : State) (e : Option Execution) (d' : ChanNo) : (s.putExecution e).profile d' = s.profile d' := rfl
@[simp] theorem putExecution_station (s : State) (e : Option Execution) (n' : StationNo) : (s.putExecution e).station n' = s.station n' := rfl
@[simp] theorem putExecution_flow (s : State) (e : Option Execution) (f' : FlowNo) : (s.putExecution e).flow f' = s.flow f' := rfl
@[simp] theorem putExecution_policyClass (s : State) (e : Option Execution) (p' : PolicySelect) (j : ClassNo) : (s.putExecution e).policyClass p' j = s.policyClass p' j := rfl
@[simp] theorem putExecution_active (s : State) (e : Option Execution) (d' : ChanNo) (l' : Level) : (s.putExecution e).active d' l' = s.active d' l' := rfl
@[simp] theorem putExecution_calendar (s : State) (e : Option Execution) (d' : ChanNo) : (s.putExecution e).calendar d' = s.calendar d' := rfl
@[simp] theorem putExecution_contentionOf (s : State) (e : Option Execution) (d' : ChanNo) : (s.putExecution e).contentionOf d' = s.contentionOf d' := rfl
@[simp] theorem putExecution_pollQueue (s : State) (e : Option Execution) (d' : ChanNo) : (s.putExecution e).pollQueue d' = s.pollQueue d' := rfl
@[simp] theorem putExecution_sweepPointer (s : State) (e : Option Execution) (d' : ChanNo) : (s.putExecution e).sweepPointer d' = s.sweepPointer d' := rfl
@[simp] theorem putExecution_buildCondition (s : State) (e : Option Execution) (d' : ChanNo) : (s.putExecution e).buildCondition d' = s.buildCondition d' := rfl
@[simp] theorem putExecution_planStore (s : State) (e : Option Execution) (d' : ChanNo) : (s.putExecution e).planStore d' = s.planStore d' := rfl
@[simp] theorem putExecution_expectQueue (s : State) (e : Option Execution) (d' : ChanNo) : (s.putExecution e).expectQueue d' = s.expectQueue d' := rfl
@[simp] theorem putExecution_counter (s : State) (e : Option Execution) (d' : ChanNo) (j : ChannelCounter) : (s.putExecution e).counter d' j = s.counter d' j := rfl
@[simp] theorem putExecution_deviceCounter (s : State) (e : Option Execution) (j : DeviceCounter) : (s.putExecution e).deviceCounter j = s.deviceCounter j := rfl
@[simp] theorem putExecution_notice (s : State) (e : Option Execution) (j : NoticeKind) : (s.putExecution e).notice j = s.notice j := rfl
@[simp] theorem putExecution_lookupIdentity (s : State) (e : Option Execution) (h' : HwId) : (s.putExecution e).lookupIdentity h' = s.lookupIdentity h' := rfl

/-! ### pushResponse -/

@[simp] theorem pushResponse_pending (s : State) (r : Response) : (s.pushResponse r).pending = s.pending := rfl
@[simp] theorem pushResponse_lastReference (s : State) (r : Response) : (s.pushResponse r).lastReference = s.lastReference := rfl
@[simp] theorem pushResponse_referenceSeen (s : State) (r : Response) : (s.pushResponse r).referenceSeen = s.referenceSeen := rfl
@[simp] theorem pushResponse_channels (s : State) (r : Response) : (s.pushResponse r).channels = s.channels := rfl
@[simp] theorem pushResponse_stations (s : State) (r : Response) : (s.pushResponse r).stations = s.stations := rfl
@[simp] theorem pushResponse_freeList (s : State) (r : Response) : (s.pushResponse r).freeList = s.freeList := rfl
@[simp] theorem pushResponse_identity (s : State) (r : Response) : (s.pushResponse r).identity = s.identity := rfl
@[simp] theorem pushResponse_flows (s : State) (r : Response) : (s.pushResponse r).flows = s.flows := rfl
@[simp] theorem pushResponse_policyA (s : State) (r : Response) : (s.pushResponse r).policyA = s.policyA := rfl
@[simp] theorem pushResponse_policyB (s : State) (r : Response) : (s.pushResponse r).policyB = s.policyB := rfl
@[simp] theorem pushResponse_requestMarks (s : State) (r : Response) : (s.pushResponse r).requestMarks = s.requestMarks := rfl
@[simp] theorem pushResponse_activeLists (s : State) (r : Response) : (s.pushResponse r).activeLists = s.activeLists := rfl
@[simp] theorem pushResponse_calendars (s : State) (r : Response) : (s.pushResponse r).calendars = s.calendars := rfl
@[simp] theorem pushResponse_contention (s : State) (r : Response) : (s.pushResponse r).contention = s.contention := rfl
@[simp] theorem pushResponse_pollQueues (s : State) (r : Response) : (s.pushResponse r).pollQueues = s.pollQueues := rfl
@[simp] theorem pushResponse_sweepPointers (s : State) (r : Response) : (s.pushResponse r).sweepPointers = s.sweepPointers := rfl
@[simp] theorem pushResponse_adjustQueue (s : State) (r : Response) : (s.pushResponse r).adjustQueue = s.adjustQueue := rfl
@[simp] theorem pushResponse_engine (s : State) (r : Response) : (s.pushResponse r).engine = s.engine := rfl
@[simp] theorem pushResponse_buildConditions (s : State) (r : Response) : (s.pushResponse r).buildConditions = s.buildConditions := rfl
@[simp] theorem pushResponse_buildQueue (s : State) (r : Response) : (s.pushResponse r).buildQueue = s.buildQueue := rfl
@[simp] theorem pushResponse_planStores (s : State) (r : Response) : (s.pushResponse r).planStores = s.planStores := rfl
@[simp] theorem pushResponse_planLinkHold (s : State) (r : Response) : (s.pushResponse r).planLinkHold = s.planLinkHold := rfl
@[simp] theorem pushResponse_planLink (s : State) (r : Response) : (s.pushResponse r).planLink = s.planLink := rfl
@[simp] theorem pushResponse_expectQueues (s : State) (r : Response) : (s.pushResponse r).expectQueues = s.expectQueues := rfl
@[simp] theorem pushResponse_strayRing (s : State) (r : Response) : (s.pushResponse r).strayRing = s.strayRing := rfl
@[simp] theorem pushResponse_overwrites (s : State) (r : Response) : (s.pushResponse r).overwrites = s.overwrites := rfl
@[simp] theorem pushResponse_forwardBuffer (s : State) (r : Response) : (s.pushResponse r).forwardBuffer = s.forwardBuffer := rfl
@[simp] theorem pushResponse_systemLink (s : State) (r : Response) : (s.pushResponse r).systemLink = s.systemLink := rfl
@[simp] theorem pushResponse_controlQueue (s : State) (r : Response) : (s.pushResponse r).controlQueue = s.controlQueue := rfl
@[simp] theorem pushResponse_heldArrival (s : State) (r : Response) : (s.pushResponse r).heldArrival = s.heldArrival := rfl
@[simp] theorem pushResponse_execution (s : State) (r : Response) : (s.pushResponse r).execution = s.execution := rfl
@[simp] theorem pushResponse_channelCounters (s : State) (r : Response) : (s.pushResponse r).channelCounters = s.channelCounters := rfl
@[simp] theorem pushResponse_deviceCounters (s : State) (r : Response) : (s.pushResponse r).deviceCounters = s.deviceCounters := rfl
@[simp] theorem pushResponse_noticeEnable (s : State) (r : Response) : (s.pushResponse r).noticeEnable = s.noticeEnable := rfl
@[simp] theorem pushResponse_notices (s : State) (r : Response) : (s.pushResponse r).notices = s.notices := rfl
@[simp] theorem pushResponse_freeDraws (s : State) (r : Response) : (s.pushResponse r).freeDraws = s.freeDraws := rfl
@[simp] theorem pushResponse_responseQueue (s : State) (r : Response) : (s.pushResponse r).responseQueue = s.responseQueue ++ [r] := rfl
@[simp] theorem pushResponse_context (s : State) (r : Response) (d' : ChanNo) : (s.pushResponse r).context d' = s.context d' := rfl
@[simp] theorem pushResponse_params (s : State) (r : Response) (d' : ChanNo) : (s.pushResponse r).params d' = s.params d' := rfl
@[simp] theorem pushResponse_profile (s : State) (r : Response) (d' : ChanNo) : (s.pushResponse r).profile d' = s.profile d' := rfl
@[simp] theorem pushResponse_station (s : State) (r : Response) (n' : StationNo) : (s.pushResponse r).station n' = s.station n' := rfl
@[simp] theorem pushResponse_flow (s : State) (r : Response) (f' : FlowNo) : (s.pushResponse r).flow f' = s.flow f' := rfl
@[simp] theorem pushResponse_policyClass (s : State) (r : Response) (p' : PolicySelect) (j : ClassNo) : (s.pushResponse r).policyClass p' j = s.policyClass p' j := rfl
@[simp] theorem pushResponse_active (s : State) (r : Response) (d' : ChanNo) (l' : Level) : (s.pushResponse r).active d' l' = s.active d' l' := rfl
@[simp] theorem pushResponse_calendar (s : State) (r : Response) (d' : ChanNo) : (s.pushResponse r).calendar d' = s.calendar d' := rfl
@[simp] theorem pushResponse_contentionOf (s : State) (r : Response) (d' : ChanNo) : (s.pushResponse r).contentionOf d' = s.contentionOf d' := rfl
@[simp] theorem pushResponse_pollQueue (s : State) (r : Response) (d' : ChanNo) : (s.pushResponse r).pollQueue d' = s.pollQueue d' := rfl
@[simp] theorem pushResponse_sweepPointer (s : State) (r : Response) (d' : ChanNo) : (s.pushResponse r).sweepPointer d' = s.sweepPointer d' := rfl
@[simp] theorem pushResponse_buildCondition (s : State) (r : Response) (d' : ChanNo) : (s.pushResponse r).buildCondition d' = s.buildCondition d' := rfl
@[simp] theorem pushResponse_planStore (s : State) (r : Response) (d' : ChanNo) : (s.pushResponse r).planStore d' = s.planStore d' := rfl
@[simp] theorem pushResponse_expectQueue (s : State) (r : Response) (d' : ChanNo) : (s.pushResponse r).expectQueue d' = s.expectQueue d' := rfl
@[simp] theorem pushResponse_counter (s : State) (r : Response) (d' : ChanNo) (j : ChannelCounter) : (s.pushResponse r).counter d' j = s.counter d' j := rfl
@[simp] theorem pushResponse_deviceCounter (s : State) (r : Response) (j : DeviceCounter) : (s.pushResponse r).deviceCounter j = s.deviceCounter j := rfl
@[simp] theorem pushResponse_notice (s : State) (r : Response) (j : NoticeKind) : (s.pushResponse r).notice j = s.notice j := rfl
@[simp] theorem pushResponse_lookupIdentity (s : State) (r : Response) (h' : HwId) : (s.pushResponse r).lookupIdentity h' = s.lookupIdentity h' := rfl

/-! ### popResponse -/

@[simp] theorem popResponse_pending (s : State) : (s.popResponse).pending = s.pending := rfl
@[simp] theorem popResponse_lastReference (s : State) : (s.popResponse).lastReference = s.lastReference := rfl
@[simp] theorem popResponse_referenceSeen (s : State) : (s.popResponse).referenceSeen = s.referenceSeen := rfl
@[simp] theorem popResponse_channels (s : State) : (s.popResponse).channels = s.channels := rfl
@[simp] theorem popResponse_stations (s : State) : (s.popResponse).stations = s.stations := rfl
@[simp] theorem popResponse_freeList (s : State) : (s.popResponse).freeList = s.freeList := rfl
@[simp] theorem popResponse_identity (s : State) : (s.popResponse).identity = s.identity := rfl
@[simp] theorem popResponse_flows (s : State) : (s.popResponse).flows = s.flows := rfl
@[simp] theorem popResponse_policyA (s : State) : (s.popResponse).policyA = s.policyA := rfl
@[simp] theorem popResponse_policyB (s : State) : (s.popResponse).policyB = s.policyB := rfl
@[simp] theorem popResponse_requestMarks (s : State) : (s.popResponse).requestMarks = s.requestMarks := rfl
@[simp] theorem popResponse_activeLists (s : State) : (s.popResponse).activeLists = s.activeLists := rfl
@[simp] theorem popResponse_calendars (s : State) : (s.popResponse).calendars = s.calendars := rfl
@[simp] theorem popResponse_contention (s : State) : (s.popResponse).contention = s.contention := rfl
@[simp] theorem popResponse_pollQueues (s : State) : (s.popResponse).pollQueues = s.pollQueues := rfl
@[simp] theorem popResponse_sweepPointers (s : State) : (s.popResponse).sweepPointers = s.sweepPointers := rfl
@[simp] theorem popResponse_adjustQueue (s : State) : (s.popResponse).adjustQueue = s.adjustQueue := rfl
@[simp] theorem popResponse_engine (s : State) : (s.popResponse).engine = s.engine := rfl
@[simp] theorem popResponse_buildConditions (s : State) : (s.popResponse).buildConditions = s.buildConditions := rfl
@[simp] theorem popResponse_buildQueue (s : State) : (s.popResponse).buildQueue = s.buildQueue := rfl
@[simp] theorem popResponse_planStores (s : State) : (s.popResponse).planStores = s.planStores := rfl
@[simp] theorem popResponse_planLinkHold (s : State) : (s.popResponse).planLinkHold = s.planLinkHold := rfl
@[simp] theorem popResponse_planLink (s : State) : (s.popResponse).planLink = s.planLink := rfl
@[simp] theorem popResponse_expectQueues (s : State) : (s.popResponse).expectQueues = s.expectQueues := rfl
@[simp] theorem popResponse_strayRing (s : State) : (s.popResponse).strayRing = s.strayRing := rfl
@[simp] theorem popResponse_overwrites (s : State) : (s.popResponse).overwrites = s.overwrites := rfl
@[simp] theorem popResponse_forwardBuffer (s : State) : (s.popResponse).forwardBuffer = s.forwardBuffer := rfl
@[simp] theorem popResponse_systemLink (s : State) : (s.popResponse).systemLink = s.systemLink := rfl
@[simp] theorem popResponse_controlQueue (s : State) : (s.popResponse).controlQueue = s.controlQueue := rfl
@[simp] theorem popResponse_execution (s : State) : (s.popResponse).execution = s.execution := rfl
@[simp] theorem popResponse_channelCounters (s : State) : (s.popResponse).channelCounters = s.channelCounters := rfl
@[simp] theorem popResponse_deviceCounters (s : State) : (s.popResponse).deviceCounters = s.deviceCounters := rfl
@[simp] theorem popResponse_noticeEnable (s : State) : (s.popResponse).noticeEnable = s.noticeEnable := rfl
@[simp] theorem popResponse_notices (s : State) : (s.popResponse).notices = s.notices := rfl
@[simp] theorem popResponse_freeDraws (s : State) : (s.popResponse).freeDraws = s.freeDraws := rfl
@[simp] theorem popResponse_responseQueue (s : State) : s.popResponse.responseQueue = s.responseQueue.tail := rfl
@[simp] theorem popResponse_context (s : State) (d' : ChanNo) : (s.popResponse).context d' = s.context d' := rfl
@[simp] theorem popResponse_params (s : State) (d' : ChanNo) : (s.popResponse).params d' = s.params d' := rfl
@[simp] theorem popResponse_profile (s : State) (d' : ChanNo) : (s.popResponse).profile d' = s.profile d' := rfl
@[simp] theorem popResponse_station (s : State) (n' : StationNo) : (s.popResponse).station n' = s.station n' := rfl
@[simp] theorem popResponse_flow (s : State) (f' : FlowNo) : (s.popResponse).flow f' = s.flow f' := rfl
@[simp] theorem popResponse_policyClass (s : State) (p' : PolicySelect) (j : ClassNo) : (s.popResponse).policyClass p' j = s.policyClass p' j := rfl
@[simp] theorem popResponse_active (s : State) (d' : ChanNo) (l' : Level) : (s.popResponse).active d' l' = s.active d' l' := rfl
@[simp] theorem popResponse_calendar (s : State) (d' : ChanNo) : (s.popResponse).calendar d' = s.calendar d' := rfl
@[simp] theorem popResponse_contentionOf (s : State) (d' : ChanNo) : (s.popResponse).contentionOf d' = s.contentionOf d' := rfl
@[simp] theorem popResponse_pollQueue (s : State) (d' : ChanNo) : (s.popResponse).pollQueue d' = s.pollQueue d' := rfl
@[simp] theorem popResponse_sweepPointer (s : State) (d' : ChanNo) : (s.popResponse).sweepPointer d' = s.sweepPointer d' := rfl
@[simp] theorem popResponse_buildCondition (s : State) (d' : ChanNo) : (s.popResponse).buildCondition d' = s.buildCondition d' := rfl
@[simp] theorem popResponse_planStore (s : State) (d' : ChanNo) : (s.popResponse).planStore d' = s.planStore d' := rfl
@[simp] theorem popResponse_expectQueue (s : State) (d' : ChanNo) : (s.popResponse).expectQueue d' = s.expectQueue d' := rfl
@[simp] theorem popResponse_counter (s : State) (d' : ChanNo) (j : ChannelCounter) : (s.popResponse).counter d' j = s.counter d' j := rfl
@[simp] theorem popResponse_deviceCounter (s : State) (j : DeviceCounter) : (s.popResponse).deviceCounter j = s.deviceCounter j := rfl
@[simp] theorem popResponse_notice (s : State) (j : NoticeKind) : (s.popResponse).notice j = s.notice j := rfl
@[simp] theorem popResponse_lookupIdentity (s : State) (h' : HwId) : (s.popResponse).lookupIdentity h' = s.lookupIdentity h' := rfl

/-! ### count -/

@[simp] theorem count_pending (s : State) (c : ChanNo) (k : ChannelCounter) (n : Nat) : (s.count c k n).pending = s.pending := rfl
@[simp] theorem count_lastReference (s : State) (c : ChanNo) (k : ChannelCounter) (n : Nat) : (s.count c k n).lastReference = s.lastReference := rfl
@[simp] theorem count_referenceSeen (s : State) (c : ChanNo) (k : ChannelCounter) (n : Nat) : (s.count c k n).referenceSeen = s.referenceSeen := rfl
@[simp] theorem count_channels (s : State) (c : ChanNo) (k : ChannelCounter) (n : Nat) : (s.count c k n).channels = s.channels := rfl
@[simp] theorem count_stations (s : State) (c : ChanNo) (k : ChannelCounter) (n : Nat) : (s.count c k n).stations = s.stations := rfl
@[simp] theorem count_freeList (s : State) (c : ChanNo) (k : ChannelCounter) (n : Nat) : (s.count c k n).freeList = s.freeList := rfl
@[simp] theorem count_identity (s : State) (c : ChanNo) (k : ChannelCounter) (n : Nat) : (s.count c k n).identity = s.identity := rfl
@[simp] theorem count_flows (s : State) (c : ChanNo) (k : ChannelCounter) (n : Nat) : (s.count c k n).flows = s.flows := rfl
@[simp] theorem count_policyA (s : State) (c : ChanNo) (k : ChannelCounter) (n : Nat) : (s.count c k n).policyA = s.policyA := rfl
@[simp] theorem count_policyB (s : State) (c : ChanNo) (k : ChannelCounter) (n : Nat) : (s.count c k n).policyB = s.policyB := rfl
@[simp] theorem count_requestMarks (s : State) (c : ChanNo) (k : ChannelCounter) (n : Nat) : (s.count c k n).requestMarks = s.requestMarks := rfl
@[simp] theorem count_activeLists (s : State) (c : ChanNo) (k : ChannelCounter) (n : Nat) : (s.count c k n).activeLists = s.activeLists := rfl
@[simp] theorem count_calendars (s : State) (c : ChanNo) (k : ChannelCounter) (n : Nat) : (s.count c k n).calendars = s.calendars := rfl
@[simp] theorem count_contention (s : State) (c : ChanNo) (k : ChannelCounter) (n : Nat) : (s.count c k n).contention = s.contention := rfl
@[simp] theorem count_pollQueues (s : State) (c : ChanNo) (k : ChannelCounter) (n : Nat) : (s.count c k n).pollQueues = s.pollQueues := rfl
@[simp] theorem count_sweepPointers (s : State) (c : ChanNo) (k : ChannelCounter) (n : Nat) : (s.count c k n).sweepPointers = s.sweepPointers := rfl
@[simp] theorem count_adjustQueue (s : State) (c : ChanNo) (k : ChannelCounter) (n : Nat) : (s.count c k n).adjustQueue = s.adjustQueue := rfl
@[simp] theorem count_engine (s : State) (c : ChanNo) (k : ChannelCounter) (n : Nat) : (s.count c k n).engine = s.engine := rfl
@[simp] theorem count_buildConditions (s : State) (c : ChanNo) (k : ChannelCounter) (n : Nat) : (s.count c k n).buildConditions = s.buildConditions := rfl
@[simp] theorem count_buildQueue (s : State) (c : ChanNo) (k : ChannelCounter) (n : Nat) : (s.count c k n).buildQueue = s.buildQueue := rfl
@[simp] theorem count_planStores (s : State) (c : ChanNo) (k : ChannelCounter) (n : Nat) : (s.count c k n).planStores = s.planStores := rfl
@[simp] theorem count_planLinkHold (s : State) (c : ChanNo) (k : ChannelCounter) (n : Nat) : (s.count c k n).planLinkHold = s.planLinkHold := rfl
@[simp] theorem count_planLink (s : State) (c : ChanNo) (k : ChannelCounter) (n : Nat) : (s.count c k n).planLink = s.planLink := rfl
@[simp] theorem count_expectQueues (s : State) (c : ChanNo) (k : ChannelCounter) (n : Nat) : (s.count c k n).expectQueues = s.expectQueues := rfl
@[simp] theorem count_strayRing (s : State) (c : ChanNo) (k : ChannelCounter) (n : Nat) : (s.count c k n).strayRing = s.strayRing := rfl
@[simp] theorem count_overwrites (s : State) (c : ChanNo) (k : ChannelCounter) (n : Nat) : (s.count c k n).overwrites = s.overwrites := rfl
@[simp] theorem count_forwardBuffer (s : State) (c : ChanNo) (k : ChannelCounter) (n : Nat) : (s.count c k n).forwardBuffer = s.forwardBuffer := rfl
@[simp] theorem count_systemLink (s : State) (c : ChanNo) (k : ChannelCounter) (n : Nat) : (s.count c k n).systemLink = s.systemLink := rfl
@[simp] theorem count_controlQueue (s : State) (c : ChanNo) (k : ChannelCounter) (n : Nat) : (s.count c k n).controlQueue = s.controlQueue := rfl
@[simp] theorem count_inboundHold (s : State) (c : ChanNo) (k : ChannelCounter) (n : Nat) : (s.count c k n).inboundHold = s.inboundHold := rfl
@[simp] theorem count_heldArrival (s : State) (c : ChanNo) (k : ChannelCounter) (n : Nat) : (s.count c k n).heldArrival = s.heldArrival := rfl
@[simp] theorem count_execution (s : State) (c : ChanNo) (k : ChannelCounter) (n : Nat) : (s.count c k n).execution = s.execution := rfl
@[simp] theorem count_responseQueue (s : State) (c : ChanNo) (k : ChannelCounter) (n : Nat) : (s.count c k n).responseQueue = s.responseQueue := rfl
@[simp] theorem count_deviceCounters (s : State) (c : ChanNo) (k : ChannelCounter) (n : Nat) : (s.count c k n).deviceCounters = s.deviceCounters := rfl
@[simp] theorem count_noticeEnable (s : State) (c : ChanNo) (k : ChannelCounter) (n : Nat) : (s.count c k n).noticeEnable = s.noticeEnable := rfl
@[simp] theorem count_notices (s : State) (c : ChanNo) (k : ChannelCounter) (n : Nat) : (s.count c k n).notices = s.notices := rfl
@[simp] theorem count_freeDraws (s : State) (c : ChanNo) (k : ChannelCounter) (n : Nat) : (s.count c k n).freeDraws = s.freeDraws := rfl
@[simp] theorem count_context (s : State) (c : ChanNo) (k : ChannelCounter) (n : Nat) (d' : ChanNo) : (s.count c k n).context d' = s.context d' := rfl
@[simp] theorem count_params (s : State) (c : ChanNo) (k : ChannelCounter) (n : Nat) (d' : ChanNo) : (s.count c k n).params d' = s.params d' := rfl
@[simp] theorem count_profile (s : State) (c : ChanNo) (k : ChannelCounter) (n : Nat) (d' : ChanNo) : (s.count c k n).profile d' = s.profile d' := rfl
@[simp] theorem count_station (s : State) (c : ChanNo) (k : ChannelCounter) (n : Nat) (n' : StationNo) : (s.count c k n).station n' = s.station n' := rfl
@[simp] theorem count_flow (s : State) (c : ChanNo) (k : ChannelCounter) (n : Nat) (f' : FlowNo) : (s.count c k n).flow f' = s.flow f' := rfl
@[simp] theorem count_policyClass (s : State) (c : ChanNo) (k : ChannelCounter) (n : Nat) (p' : PolicySelect) (j : ClassNo) : (s.count c k n).policyClass p' j = s.policyClass p' j := rfl
@[simp] theorem count_active (s : State) (c : ChanNo) (k : ChannelCounter) (n : Nat) (d' : ChanNo) (l' : Level) : (s.count c k n).active d' l' = s.active d' l' := rfl
@[simp] theorem count_calendar (s : State) (c : ChanNo) (k : ChannelCounter) (n : Nat) (d' : ChanNo) : (s.count c k n).calendar d' = s.calendar d' := rfl
@[simp] theorem count_contentionOf (s : State) (c : ChanNo) (k : ChannelCounter) (n : Nat) (d' : ChanNo) : (s.count c k n).contentionOf d' = s.contentionOf d' := rfl
@[simp] theorem count_pollQueue (s : State) (c : ChanNo) (k : ChannelCounter) (n : Nat) (d' : ChanNo) : (s.count c k n).pollQueue d' = s.pollQueue d' := rfl
@[simp] theorem count_sweepPointer (s : State) (c : ChanNo) (k : ChannelCounter) (n : Nat) (d' : ChanNo) : (s.count c k n).sweepPointer d' = s.sweepPointer d' := rfl
@[simp] theorem count_buildCondition (s : State) (c : ChanNo) (k : ChannelCounter) (n : Nat) (d' : ChanNo) : (s.count c k n).buildCondition d' = s.buildCondition d' := rfl
@[simp] theorem count_planStore (s : State) (c : ChanNo) (k : ChannelCounter) (n : Nat) (d' : ChanNo) : (s.count c k n).planStore d' = s.planStore d' := rfl
@[simp] theorem count_expectQueue (s : State) (c : ChanNo) (k : ChannelCounter) (n : Nat) (d' : ChanNo) : (s.count c k n).expectQueue d' = s.expectQueue d' := rfl
@[simp] theorem count_deviceCounter (s : State) (c : ChanNo) (k : ChannelCounter) (n : Nat) (j : DeviceCounter) : (s.count c k n).deviceCounter j = s.deviceCounter j := rfl
@[simp] theorem count_notice (s : State) (c : ChanNo) (k : ChannelCounter) (n : Nat) (j : NoticeKind) : (s.count c k n).notice j = s.notice j := rfl
@[simp] theorem count_lookupIdentity (s : State) (c : ChanNo) (k : ChannelCounter) (n : Nat) (h' : HwId) : (s.count c k n).lookupIdentity h' = s.lookupIdentity h' := rfl

/-! ### countDevice -/

@[simp] theorem countDevice_pending (s : State) (k : DeviceCounter) (n : Nat) : (s.countDevice k n).pending = s.pending := rfl
@[simp] theorem countDevice_lastReference (s : State) (k : DeviceCounter) (n : Nat) : (s.countDevice k n).lastReference = s.lastReference := rfl
@[simp] theorem countDevice_referenceSeen (s : State) (k : DeviceCounter) (n : Nat) : (s.countDevice k n).referenceSeen = s.referenceSeen := rfl
@[simp] theorem countDevice_channels (s : State) (k : DeviceCounter) (n : Nat) : (s.countDevice k n).channels = s.channels := rfl
@[simp] theorem countDevice_stations (s : State) (k : DeviceCounter) (n : Nat) : (s.countDevice k n).stations = s.stations := rfl
@[simp] theorem countDevice_freeList (s : State) (k : DeviceCounter) (n : Nat) : (s.countDevice k n).freeList = s.freeList := rfl
@[simp] theorem countDevice_identity (s : State) (k : DeviceCounter) (n : Nat) : (s.countDevice k n).identity = s.identity := rfl
@[simp] theorem countDevice_flows (s : State) (k : DeviceCounter) (n : Nat) : (s.countDevice k n).flows = s.flows := rfl
@[simp] theorem countDevice_policyA (s : State) (k : DeviceCounter) (n : Nat) : (s.countDevice k n).policyA = s.policyA := rfl
@[simp] theorem countDevice_policyB (s : State) (k : DeviceCounter) (n : Nat) : (s.countDevice k n).policyB = s.policyB := rfl
@[simp] theorem countDevice_requestMarks (s : State) (k : DeviceCounter) (n : Nat) : (s.countDevice k n).requestMarks = s.requestMarks := rfl
@[simp] theorem countDevice_activeLists (s : State) (k : DeviceCounter) (n : Nat) : (s.countDevice k n).activeLists = s.activeLists := rfl
@[simp] theorem countDevice_calendars (s : State) (k : DeviceCounter) (n : Nat) : (s.countDevice k n).calendars = s.calendars := rfl
@[simp] theorem countDevice_contention (s : State) (k : DeviceCounter) (n : Nat) : (s.countDevice k n).contention = s.contention := rfl
@[simp] theorem countDevice_pollQueues (s : State) (k : DeviceCounter) (n : Nat) : (s.countDevice k n).pollQueues = s.pollQueues := rfl
@[simp] theorem countDevice_sweepPointers (s : State) (k : DeviceCounter) (n : Nat) : (s.countDevice k n).sweepPointers = s.sweepPointers := rfl
@[simp] theorem countDevice_adjustQueue (s : State) (k : DeviceCounter) (n : Nat) : (s.countDevice k n).adjustQueue = s.adjustQueue := rfl
@[simp] theorem countDevice_engine (s : State) (k : DeviceCounter) (n : Nat) : (s.countDevice k n).engine = s.engine := rfl
@[simp] theorem countDevice_buildConditions (s : State) (k : DeviceCounter) (n : Nat) : (s.countDevice k n).buildConditions = s.buildConditions := rfl
@[simp] theorem countDevice_buildQueue (s : State) (k : DeviceCounter) (n : Nat) : (s.countDevice k n).buildQueue = s.buildQueue := rfl
@[simp] theorem countDevice_planStores (s : State) (k : DeviceCounter) (n : Nat) : (s.countDevice k n).planStores = s.planStores := rfl
@[simp] theorem countDevice_planLinkHold (s : State) (k : DeviceCounter) (n : Nat) : (s.countDevice k n).planLinkHold = s.planLinkHold := rfl
@[simp] theorem countDevice_planLink (s : State) (k : DeviceCounter) (n : Nat) : (s.countDevice k n).planLink = s.planLink := rfl
@[simp] theorem countDevice_expectQueues (s : State) (k : DeviceCounter) (n : Nat) : (s.countDevice k n).expectQueues = s.expectQueues := rfl
@[simp] theorem countDevice_strayRing (s : State) (k : DeviceCounter) (n : Nat) : (s.countDevice k n).strayRing = s.strayRing := rfl
@[simp] theorem countDevice_overwrites (s : State) (k : DeviceCounter) (n : Nat) : (s.countDevice k n).overwrites = s.overwrites := rfl
@[simp] theorem countDevice_forwardBuffer (s : State) (k : DeviceCounter) (n : Nat) : (s.countDevice k n).forwardBuffer = s.forwardBuffer := rfl
@[simp] theorem countDevice_systemLink (s : State) (k : DeviceCounter) (n : Nat) : (s.countDevice k n).systemLink = s.systemLink := rfl
@[simp] theorem countDevice_controlQueue (s : State) (k : DeviceCounter) (n : Nat) : (s.countDevice k n).controlQueue = s.controlQueue := rfl
@[simp] theorem countDevice_inboundHold (s : State) (k : DeviceCounter) (n : Nat) : (s.countDevice k n).inboundHold = s.inboundHold := rfl
@[simp] theorem countDevice_heldArrival (s : State) (k : DeviceCounter) (n : Nat) : (s.countDevice k n).heldArrival = s.heldArrival := rfl
@[simp] theorem countDevice_execution (s : State) (k : DeviceCounter) (n : Nat) : (s.countDevice k n).execution = s.execution := rfl
@[simp] theorem countDevice_responseQueue (s : State) (k : DeviceCounter) (n : Nat) : (s.countDevice k n).responseQueue = s.responseQueue := rfl
@[simp] theorem countDevice_channelCounters (s : State) (k : DeviceCounter) (n : Nat) : (s.countDevice k n).channelCounters = s.channelCounters := rfl
@[simp] theorem countDevice_noticeEnable (s : State) (k : DeviceCounter) (n : Nat) : (s.countDevice k n).noticeEnable = s.noticeEnable := rfl
@[simp] theorem countDevice_notices (s : State) (k : DeviceCounter) (n : Nat) : (s.countDevice k n).notices = s.notices := rfl
@[simp] theorem countDevice_freeDraws (s : State) (k : DeviceCounter) (n : Nat) : (s.countDevice k n).freeDraws = s.freeDraws := rfl
@[simp] theorem countDevice_context (s : State) (k : DeviceCounter) (n : Nat) (d' : ChanNo) : (s.countDevice k n).context d' = s.context d' := rfl
@[simp] theorem countDevice_params (s : State) (k : DeviceCounter) (n : Nat) (d' : ChanNo) : (s.countDevice k n).params d' = s.params d' := rfl
@[simp] theorem countDevice_profile (s : State) (k : DeviceCounter) (n : Nat) (d' : ChanNo) : (s.countDevice k n).profile d' = s.profile d' := rfl
@[simp] theorem countDevice_station (s : State) (k : DeviceCounter) (n : Nat) (n' : StationNo) : (s.countDevice k n).station n' = s.station n' := rfl
@[simp] theorem countDevice_flow (s : State) (k : DeviceCounter) (n : Nat) (f' : FlowNo) : (s.countDevice k n).flow f' = s.flow f' := rfl
@[simp] theorem countDevice_policyClass (s : State) (k : DeviceCounter) (n : Nat) (p' : PolicySelect) (j : ClassNo) : (s.countDevice k n).policyClass p' j = s.policyClass p' j := rfl
@[simp] theorem countDevice_active (s : State) (k : DeviceCounter) (n : Nat) (d' : ChanNo) (l' : Level) : (s.countDevice k n).active d' l' = s.active d' l' := rfl
@[simp] theorem countDevice_calendar (s : State) (k : DeviceCounter) (n : Nat) (d' : ChanNo) : (s.countDevice k n).calendar d' = s.calendar d' := rfl
@[simp] theorem countDevice_contentionOf (s : State) (k : DeviceCounter) (n : Nat) (d' : ChanNo) : (s.countDevice k n).contentionOf d' = s.contentionOf d' := rfl
@[simp] theorem countDevice_pollQueue (s : State) (k : DeviceCounter) (n : Nat) (d' : ChanNo) : (s.countDevice k n).pollQueue d' = s.pollQueue d' := rfl
@[simp] theorem countDevice_sweepPointer (s : State) (k : DeviceCounter) (n : Nat) (d' : ChanNo) : (s.countDevice k n).sweepPointer d' = s.sweepPointer d' := rfl
@[simp] theorem countDevice_buildCondition (s : State) (k : DeviceCounter) (n : Nat) (d' : ChanNo) : (s.countDevice k n).buildCondition d' = s.buildCondition d' := rfl
@[simp] theorem countDevice_planStore (s : State) (k : DeviceCounter) (n : Nat) (d' : ChanNo) : (s.countDevice k n).planStore d' = s.planStore d' := rfl
@[simp] theorem countDevice_expectQueue (s : State) (k : DeviceCounter) (n : Nat) (d' : ChanNo) : (s.countDevice k n).expectQueue d' = s.expectQueue d' := rfl
@[simp] theorem countDevice_counter (s : State) (k : DeviceCounter) (n : Nat) (d' : ChanNo) (j : ChannelCounter) : (s.countDevice k n).counter d' j = s.counter d' j := rfl
@[simp] theorem countDevice_notice (s : State) (k : DeviceCounter) (n : Nat) (j : NoticeKind) : (s.countDevice k n).notice j = s.notice j := rfl
@[simp] theorem countDevice_lookupIdentity (s : State) (k : DeviceCounter) (n : Nat) (h' : HwId) : (s.countDevice k n).lookupIdentity h' = s.lookupIdentity h' := rfl

/-! ### raise -/

@[simp] theorem raise_pending (s : State) (d : NoticeDetail) : (s.raise d).pending = s.pending := rfl
@[simp] theorem raise_lastReference (s : State) (d : NoticeDetail) : (s.raise d).lastReference = s.lastReference := rfl
@[simp] theorem raise_referenceSeen (s : State) (d : NoticeDetail) : (s.raise d).referenceSeen = s.referenceSeen := rfl
@[simp] theorem raise_channels (s : State) (d : NoticeDetail) : (s.raise d).channels = s.channels := rfl
@[simp] theorem raise_stations (s : State) (d : NoticeDetail) : (s.raise d).stations = s.stations := rfl
@[simp] theorem raise_freeList (s : State) (d : NoticeDetail) : (s.raise d).freeList = s.freeList := rfl
@[simp] theorem raise_identity (s : State) (d : NoticeDetail) : (s.raise d).identity = s.identity := rfl
@[simp] theorem raise_flows (s : State) (d : NoticeDetail) : (s.raise d).flows = s.flows := rfl
@[simp] theorem raise_policyA (s : State) (d : NoticeDetail) : (s.raise d).policyA = s.policyA := rfl
@[simp] theorem raise_policyB (s : State) (d : NoticeDetail) : (s.raise d).policyB = s.policyB := rfl
@[simp] theorem raise_requestMarks (s : State) (d : NoticeDetail) : (s.raise d).requestMarks = s.requestMarks := rfl
@[simp] theorem raise_activeLists (s : State) (d : NoticeDetail) : (s.raise d).activeLists = s.activeLists := rfl
@[simp] theorem raise_calendars (s : State) (d : NoticeDetail) : (s.raise d).calendars = s.calendars := rfl
@[simp] theorem raise_contention (s : State) (d : NoticeDetail) : (s.raise d).contention = s.contention := rfl
@[simp] theorem raise_pollQueues (s : State) (d : NoticeDetail) : (s.raise d).pollQueues = s.pollQueues := rfl
@[simp] theorem raise_sweepPointers (s : State) (d : NoticeDetail) : (s.raise d).sweepPointers = s.sweepPointers := rfl
@[simp] theorem raise_adjustQueue (s : State) (d : NoticeDetail) : (s.raise d).adjustQueue = s.adjustQueue := rfl
@[simp] theorem raise_engine (s : State) (d : NoticeDetail) : (s.raise d).engine = s.engine := rfl
@[simp] theorem raise_buildConditions (s : State) (d : NoticeDetail) : (s.raise d).buildConditions = s.buildConditions := rfl
@[simp] theorem raise_buildQueue (s : State) (d : NoticeDetail) : (s.raise d).buildQueue = s.buildQueue := rfl
@[simp] theorem raise_planStores (s : State) (d : NoticeDetail) : (s.raise d).planStores = s.planStores := rfl
@[simp] theorem raise_planLinkHold (s : State) (d : NoticeDetail) : (s.raise d).planLinkHold = s.planLinkHold := rfl
@[simp] theorem raise_planLink (s : State) (d : NoticeDetail) : (s.raise d).planLink = s.planLink := rfl
@[simp] theorem raise_expectQueues (s : State) (d : NoticeDetail) : (s.raise d).expectQueues = s.expectQueues := rfl
@[simp] theorem raise_strayRing (s : State) (d : NoticeDetail) : (s.raise d).strayRing = s.strayRing := rfl
@[simp] theorem raise_overwrites (s : State) (d : NoticeDetail) : (s.raise d).overwrites = s.overwrites := rfl
@[simp] theorem raise_forwardBuffer (s : State) (d : NoticeDetail) : (s.raise d).forwardBuffer = s.forwardBuffer := rfl
@[simp] theorem raise_systemLink (s : State) (d : NoticeDetail) : (s.raise d).systemLink = s.systemLink := rfl
@[simp] theorem raise_controlQueue (s : State) (d : NoticeDetail) : (s.raise d).controlQueue = s.controlQueue := rfl
@[simp] theorem raise_inboundHold (s : State) (d : NoticeDetail) : (s.raise d).inboundHold = s.inboundHold := rfl
@[simp] theorem raise_heldArrival (s : State) (d : NoticeDetail) : (s.raise d).heldArrival = s.heldArrival := rfl
@[simp] theorem raise_execution (s : State) (d : NoticeDetail) : (s.raise d).execution = s.execution := rfl
@[simp] theorem raise_responseQueue (s : State) (d : NoticeDetail) : (s.raise d).responseQueue = s.responseQueue := rfl
@[simp] theorem raise_channelCounters (s : State) (d : NoticeDetail) : (s.raise d).channelCounters = s.channelCounters := rfl
@[simp] theorem raise_deviceCounters (s : State) (d : NoticeDetail) : (s.raise d).deviceCounters = s.deviceCounters := rfl
@[simp] theorem raise_noticeEnable (s : State) (d : NoticeDetail) : (s.raise d).noticeEnable = s.noticeEnable := rfl
@[simp] theorem raise_freeDraws (s : State) (d : NoticeDetail) : (s.raise d).freeDraws = s.freeDraws := rfl
@[simp] theorem raise_context (s : State) (d : NoticeDetail) (d' : ChanNo) : (s.raise d).context d' = s.context d' := rfl
@[simp] theorem raise_params (s : State) (d : NoticeDetail) (d' : ChanNo) : (s.raise d).params d' = s.params d' := rfl
@[simp] theorem raise_profile (s : State) (d : NoticeDetail) (d' : ChanNo) : (s.raise d).profile d' = s.profile d' := rfl
@[simp] theorem raise_station (s : State) (d : NoticeDetail) (n' : StationNo) : (s.raise d).station n' = s.station n' := rfl
@[simp] theorem raise_flow (s : State) (d : NoticeDetail) (f' : FlowNo) : (s.raise d).flow f' = s.flow f' := rfl
@[simp] theorem raise_policyClass (s : State) (d : NoticeDetail) (p' : PolicySelect) (j : ClassNo) : (s.raise d).policyClass p' j = s.policyClass p' j := rfl
@[simp] theorem raise_active (s : State) (d : NoticeDetail) (d' : ChanNo) (l' : Level) : (s.raise d).active d' l' = s.active d' l' := rfl
@[simp] theorem raise_calendar (s : State) (d : NoticeDetail) (d' : ChanNo) : (s.raise d).calendar d' = s.calendar d' := rfl
@[simp] theorem raise_contentionOf (s : State) (d : NoticeDetail) (d' : ChanNo) : (s.raise d).contentionOf d' = s.contentionOf d' := rfl
@[simp] theorem raise_pollQueue (s : State) (d : NoticeDetail) (d' : ChanNo) : (s.raise d).pollQueue d' = s.pollQueue d' := rfl
@[simp] theorem raise_sweepPointer (s : State) (d : NoticeDetail) (d' : ChanNo) : (s.raise d).sweepPointer d' = s.sweepPointer d' := rfl
@[simp] theorem raise_buildCondition (s : State) (d : NoticeDetail) (d' : ChanNo) : (s.raise d).buildCondition d' = s.buildCondition d' := rfl
@[simp] theorem raise_planStore (s : State) (d : NoticeDetail) (d' : ChanNo) : (s.raise d).planStore d' = s.planStore d' := rfl
@[simp] theorem raise_expectQueue (s : State) (d : NoticeDetail) (d' : ChanNo) : (s.raise d).expectQueue d' = s.expectQueue d' := rfl
@[simp] theorem raise_counter (s : State) (d : NoticeDetail) (d' : ChanNo) (j : ChannelCounter) : (s.raise d).counter d' j = s.counter d' j := rfl
@[simp] theorem raise_deviceCounter (s : State) (d : NoticeDetail) (j : DeviceCounter) : (s.raise d).deviceCounter j = s.deviceCounter j := rfl
@[simp] theorem raise_lookupIdentity (s : State) (d : NoticeDetail) (h' : HwId) : (s.raise d).lookupIdentity h' = s.lookupIdentity h' := rfl

/-! ### putNoticeEnable -/

@[simp] theorem putNoticeEnable_pending (s : State) (k : NoticeKind) (e : Bool) : (s.putNoticeEnable k e).pending = s.pending := rfl
@[simp] theorem putNoticeEnable_lastReference (s : State) (k : NoticeKind) (e : Bool) : (s.putNoticeEnable k e).lastReference = s.lastReference := rfl
@[simp] theorem putNoticeEnable_referenceSeen (s : State) (k : NoticeKind) (e : Bool) : (s.putNoticeEnable k e).referenceSeen = s.referenceSeen := rfl
@[simp] theorem putNoticeEnable_channels (s : State) (k : NoticeKind) (e : Bool) : (s.putNoticeEnable k e).channels = s.channels := rfl
@[simp] theorem putNoticeEnable_stations (s : State) (k : NoticeKind) (e : Bool) : (s.putNoticeEnable k e).stations = s.stations := rfl
@[simp] theorem putNoticeEnable_freeList (s : State) (k : NoticeKind) (e : Bool) : (s.putNoticeEnable k e).freeList = s.freeList := rfl
@[simp] theorem putNoticeEnable_identity (s : State) (k : NoticeKind) (e : Bool) : (s.putNoticeEnable k e).identity = s.identity := rfl
@[simp] theorem putNoticeEnable_flows (s : State) (k : NoticeKind) (e : Bool) : (s.putNoticeEnable k e).flows = s.flows := rfl
@[simp] theorem putNoticeEnable_policyA (s : State) (k : NoticeKind) (e : Bool) : (s.putNoticeEnable k e).policyA = s.policyA := rfl
@[simp] theorem putNoticeEnable_policyB (s : State) (k : NoticeKind) (e : Bool) : (s.putNoticeEnable k e).policyB = s.policyB := rfl
@[simp] theorem putNoticeEnable_requestMarks (s : State) (k : NoticeKind) (e : Bool) : (s.putNoticeEnable k e).requestMarks = s.requestMarks := rfl
@[simp] theorem putNoticeEnable_activeLists (s : State) (k : NoticeKind) (e : Bool) : (s.putNoticeEnable k e).activeLists = s.activeLists := rfl
@[simp] theorem putNoticeEnable_calendars (s : State) (k : NoticeKind) (e : Bool) : (s.putNoticeEnable k e).calendars = s.calendars := rfl
@[simp] theorem putNoticeEnable_contention (s : State) (k : NoticeKind) (e : Bool) : (s.putNoticeEnable k e).contention = s.contention := rfl
@[simp] theorem putNoticeEnable_pollQueues (s : State) (k : NoticeKind) (e : Bool) : (s.putNoticeEnable k e).pollQueues = s.pollQueues := rfl
@[simp] theorem putNoticeEnable_sweepPointers (s : State) (k : NoticeKind) (e : Bool) : (s.putNoticeEnable k e).sweepPointers = s.sweepPointers := rfl
@[simp] theorem putNoticeEnable_adjustQueue (s : State) (k : NoticeKind) (e : Bool) : (s.putNoticeEnable k e).adjustQueue = s.adjustQueue := rfl
@[simp] theorem putNoticeEnable_engine (s : State) (k : NoticeKind) (e : Bool) : (s.putNoticeEnable k e).engine = s.engine := rfl
@[simp] theorem putNoticeEnable_buildConditions (s : State) (k : NoticeKind) (e : Bool) : (s.putNoticeEnable k e).buildConditions = s.buildConditions := rfl
@[simp] theorem putNoticeEnable_buildQueue (s : State) (k : NoticeKind) (e : Bool) : (s.putNoticeEnable k e).buildQueue = s.buildQueue := rfl
@[simp] theorem putNoticeEnable_planStores (s : State) (k : NoticeKind) (e : Bool) : (s.putNoticeEnable k e).planStores = s.planStores := rfl
@[simp] theorem putNoticeEnable_planLinkHold (s : State) (k : NoticeKind) (e : Bool) : (s.putNoticeEnable k e).planLinkHold = s.planLinkHold := rfl
@[simp] theorem putNoticeEnable_planLink (s : State) (k : NoticeKind) (e : Bool) : (s.putNoticeEnable k e).planLink = s.planLink := rfl
@[simp] theorem putNoticeEnable_expectQueues (s : State) (k : NoticeKind) (e : Bool) : (s.putNoticeEnable k e).expectQueues = s.expectQueues := rfl
@[simp] theorem putNoticeEnable_strayRing (s : State) (k : NoticeKind) (e : Bool) : (s.putNoticeEnable k e).strayRing = s.strayRing := rfl
@[simp] theorem putNoticeEnable_overwrites (s : State) (k : NoticeKind) (e : Bool) : (s.putNoticeEnable k e).overwrites = s.overwrites := rfl
@[simp] theorem putNoticeEnable_forwardBuffer (s : State) (k : NoticeKind) (e : Bool) : (s.putNoticeEnable k e).forwardBuffer = s.forwardBuffer := rfl
@[simp] theorem putNoticeEnable_systemLink (s : State) (k : NoticeKind) (e : Bool) : (s.putNoticeEnable k e).systemLink = s.systemLink := rfl
@[simp] theorem putNoticeEnable_controlQueue (s : State) (k : NoticeKind) (e : Bool) : (s.putNoticeEnable k e).controlQueue = s.controlQueue := rfl
@[simp] theorem putNoticeEnable_inboundHold (s : State) (k : NoticeKind) (e : Bool) : (s.putNoticeEnable k e).inboundHold = s.inboundHold := rfl
@[simp] theorem putNoticeEnable_heldArrival (s : State) (k : NoticeKind) (e : Bool) : (s.putNoticeEnable k e).heldArrival = s.heldArrival := rfl
@[simp] theorem putNoticeEnable_execution (s : State) (k : NoticeKind) (e : Bool) : (s.putNoticeEnable k e).execution = s.execution := rfl
@[simp] theorem putNoticeEnable_responseQueue (s : State) (k : NoticeKind) (e : Bool) : (s.putNoticeEnable k e).responseQueue = s.responseQueue := rfl
@[simp] theorem putNoticeEnable_channelCounters (s : State) (k : NoticeKind) (e : Bool) : (s.putNoticeEnable k e).channelCounters = s.channelCounters := rfl
@[simp] theorem putNoticeEnable_deviceCounters (s : State) (k : NoticeKind) (e : Bool) : (s.putNoticeEnable k e).deviceCounters = s.deviceCounters := rfl
@[simp] theorem putNoticeEnable_freeDraws (s : State) (k : NoticeKind) (e : Bool) : (s.putNoticeEnable k e).freeDraws = s.freeDraws := rfl
@[simp] theorem putNoticeEnable_context (s : State) (k : NoticeKind) (e : Bool) (d' : ChanNo) : (s.putNoticeEnable k e).context d' = s.context d' := rfl
@[simp] theorem putNoticeEnable_params (s : State) (k : NoticeKind) (e : Bool) (d' : ChanNo) : (s.putNoticeEnable k e).params d' = s.params d' := rfl
@[simp] theorem putNoticeEnable_profile (s : State) (k : NoticeKind) (e : Bool) (d' : ChanNo) : (s.putNoticeEnable k e).profile d' = s.profile d' := rfl
@[simp] theorem putNoticeEnable_station (s : State) (k : NoticeKind) (e : Bool) (n' : StationNo) : (s.putNoticeEnable k e).station n' = s.station n' := rfl
@[simp] theorem putNoticeEnable_flow (s : State) (k : NoticeKind) (e : Bool) (f' : FlowNo) : (s.putNoticeEnable k e).flow f' = s.flow f' := rfl
@[simp] theorem putNoticeEnable_policyClass (s : State) (k : NoticeKind) (e : Bool) (p' : PolicySelect) (j : ClassNo) : (s.putNoticeEnable k e).policyClass p' j = s.policyClass p' j := rfl
@[simp] theorem putNoticeEnable_active (s : State) (k : NoticeKind) (e : Bool) (d' : ChanNo) (l' : Level) : (s.putNoticeEnable k e).active d' l' = s.active d' l' := rfl
@[simp] theorem putNoticeEnable_calendar (s : State) (k : NoticeKind) (e : Bool) (d' : ChanNo) : (s.putNoticeEnable k e).calendar d' = s.calendar d' := rfl
@[simp] theorem putNoticeEnable_contentionOf (s : State) (k : NoticeKind) (e : Bool) (d' : ChanNo) : (s.putNoticeEnable k e).contentionOf d' = s.contentionOf d' := rfl
@[simp] theorem putNoticeEnable_pollQueue (s : State) (k : NoticeKind) (e : Bool) (d' : ChanNo) : (s.putNoticeEnable k e).pollQueue d' = s.pollQueue d' := rfl
@[simp] theorem putNoticeEnable_sweepPointer (s : State) (k : NoticeKind) (e : Bool) (d' : ChanNo) : (s.putNoticeEnable k e).sweepPointer d' = s.sweepPointer d' := rfl
@[simp] theorem putNoticeEnable_buildCondition (s : State) (k : NoticeKind) (e : Bool) (d' : ChanNo) : (s.putNoticeEnable k e).buildCondition d' = s.buildCondition d' := rfl
@[simp] theorem putNoticeEnable_planStore (s : State) (k : NoticeKind) (e : Bool) (d' : ChanNo) : (s.putNoticeEnable k e).planStore d' = s.planStore d' := rfl
@[simp] theorem putNoticeEnable_expectQueue (s : State) (k : NoticeKind) (e : Bool) (d' : ChanNo) : (s.putNoticeEnable k e).expectQueue d' = s.expectQueue d' := rfl
@[simp] theorem putNoticeEnable_counter (s : State) (k : NoticeKind) (e : Bool) (d' : ChanNo) (j : ChannelCounter) : (s.putNoticeEnable k e).counter d' j = s.counter d' j := rfl
@[simp] theorem putNoticeEnable_deviceCounter (s : State) (k : NoticeKind) (e : Bool) (j : DeviceCounter) : (s.putNoticeEnable k e).deviceCounter j = s.deviceCounter j := rfl
@[simp] theorem putNoticeEnable_lookupIdentity (s : State) (k : NoticeKind) (e : Bool) (h' : HwId) : (s.putNoticeEnable k e).lookupIdentity h' = s.lookupIdentity h' := rfl

/-! ### dropNotice -/

@[simp] theorem dropNotice_pending (s : State) (k : NoticeKind) : (s.dropNotice k).pending = s.pending := rfl
@[simp] theorem dropNotice_lastReference (s : State) (k : NoticeKind) : (s.dropNotice k).lastReference = s.lastReference := rfl
@[simp] theorem dropNotice_referenceSeen (s : State) (k : NoticeKind) : (s.dropNotice k).referenceSeen = s.referenceSeen := rfl
@[simp] theorem dropNotice_channels (s : State) (k : NoticeKind) : (s.dropNotice k).channels = s.channels := rfl
@[simp] theorem dropNotice_stations (s : State) (k : NoticeKind) : (s.dropNotice k).stations = s.stations := rfl
@[simp] theorem dropNotice_freeList (s : State) (k : NoticeKind) : (s.dropNotice k).freeList = s.freeList := rfl
@[simp] theorem dropNotice_identity (s : State) (k : NoticeKind) : (s.dropNotice k).identity = s.identity := rfl
@[simp] theorem dropNotice_flows (s : State) (k : NoticeKind) : (s.dropNotice k).flows = s.flows := rfl
@[simp] theorem dropNotice_policyA (s : State) (k : NoticeKind) : (s.dropNotice k).policyA = s.policyA := rfl
@[simp] theorem dropNotice_policyB (s : State) (k : NoticeKind) : (s.dropNotice k).policyB = s.policyB := rfl
@[simp] theorem dropNotice_requestMarks (s : State) (k : NoticeKind) : (s.dropNotice k).requestMarks = s.requestMarks := rfl
@[simp] theorem dropNotice_activeLists (s : State) (k : NoticeKind) : (s.dropNotice k).activeLists = s.activeLists := rfl
@[simp] theorem dropNotice_calendars (s : State) (k : NoticeKind) : (s.dropNotice k).calendars = s.calendars := rfl
@[simp] theorem dropNotice_contention (s : State) (k : NoticeKind) : (s.dropNotice k).contention = s.contention := rfl
@[simp] theorem dropNotice_pollQueues (s : State) (k : NoticeKind) : (s.dropNotice k).pollQueues = s.pollQueues := rfl
@[simp] theorem dropNotice_sweepPointers (s : State) (k : NoticeKind) : (s.dropNotice k).sweepPointers = s.sweepPointers := rfl
@[simp] theorem dropNotice_adjustQueue (s : State) (k : NoticeKind) : (s.dropNotice k).adjustQueue = s.adjustQueue := rfl
@[simp] theorem dropNotice_engine (s : State) (k : NoticeKind) : (s.dropNotice k).engine = s.engine := rfl
@[simp] theorem dropNotice_buildConditions (s : State) (k : NoticeKind) : (s.dropNotice k).buildConditions = s.buildConditions := rfl
@[simp] theorem dropNotice_buildQueue (s : State) (k : NoticeKind) : (s.dropNotice k).buildQueue = s.buildQueue := rfl
@[simp] theorem dropNotice_planStores (s : State) (k : NoticeKind) : (s.dropNotice k).planStores = s.planStores := rfl
@[simp] theorem dropNotice_planLinkHold (s : State) (k : NoticeKind) : (s.dropNotice k).planLinkHold = s.planLinkHold := rfl
@[simp] theorem dropNotice_planLink (s : State) (k : NoticeKind) : (s.dropNotice k).planLink = s.planLink := rfl
@[simp] theorem dropNotice_expectQueues (s : State) (k : NoticeKind) : (s.dropNotice k).expectQueues = s.expectQueues := rfl
@[simp] theorem dropNotice_strayRing (s : State) (k : NoticeKind) : (s.dropNotice k).strayRing = s.strayRing := rfl
@[simp] theorem dropNotice_overwrites (s : State) (k : NoticeKind) : (s.dropNotice k).overwrites = s.overwrites := rfl
@[simp] theorem dropNotice_forwardBuffer (s : State) (k : NoticeKind) : (s.dropNotice k).forwardBuffer = s.forwardBuffer := rfl
@[simp] theorem dropNotice_systemLink (s : State) (k : NoticeKind) : (s.dropNotice k).systemLink = s.systemLink := rfl
@[simp] theorem dropNotice_controlQueue (s : State) (k : NoticeKind) : (s.dropNotice k).controlQueue = s.controlQueue := rfl
@[simp] theorem dropNotice_inboundHold (s : State) (k : NoticeKind) : (s.dropNotice k).inboundHold = s.inboundHold := rfl
@[simp] theorem dropNotice_heldArrival (s : State) (k : NoticeKind) : (s.dropNotice k).heldArrival = s.heldArrival := rfl
@[simp] theorem dropNotice_execution (s : State) (k : NoticeKind) : (s.dropNotice k).execution = s.execution := rfl
@[simp] theorem dropNotice_responseQueue (s : State) (k : NoticeKind) : (s.dropNotice k).responseQueue = s.responseQueue := rfl
@[simp] theorem dropNotice_channelCounters (s : State) (k : NoticeKind) : (s.dropNotice k).channelCounters = s.channelCounters := rfl
@[simp] theorem dropNotice_deviceCounters (s : State) (k : NoticeKind) : (s.dropNotice k).deviceCounters = s.deviceCounters := rfl
@[simp] theorem dropNotice_noticeEnable (s : State) (k : NoticeKind) : (s.dropNotice k).noticeEnable = s.noticeEnable := rfl
@[simp] theorem dropNotice_freeDraws (s : State) (k : NoticeKind) : (s.dropNotice k).freeDraws = s.freeDraws := rfl
@[simp] theorem dropNotice_context (s : State) (k : NoticeKind) (d' : ChanNo) : (s.dropNotice k).context d' = s.context d' := rfl
@[simp] theorem dropNotice_params (s : State) (k : NoticeKind) (d' : ChanNo) : (s.dropNotice k).params d' = s.params d' := rfl
@[simp] theorem dropNotice_profile (s : State) (k : NoticeKind) (d' : ChanNo) : (s.dropNotice k).profile d' = s.profile d' := rfl
@[simp] theorem dropNotice_station (s : State) (k : NoticeKind) (n' : StationNo) : (s.dropNotice k).station n' = s.station n' := rfl
@[simp] theorem dropNotice_flow (s : State) (k : NoticeKind) (f' : FlowNo) : (s.dropNotice k).flow f' = s.flow f' := rfl
@[simp] theorem dropNotice_policyClass (s : State) (k : NoticeKind) (p' : PolicySelect) (j : ClassNo) : (s.dropNotice k).policyClass p' j = s.policyClass p' j := rfl
@[simp] theorem dropNotice_active (s : State) (k : NoticeKind) (d' : ChanNo) (l' : Level) : (s.dropNotice k).active d' l' = s.active d' l' := rfl
@[simp] theorem dropNotice_calendar (s : State) (k : NoticeKind) (d' : ChanNo) : (s.dropNotice k).calendar d' = s.calendar d' := rfl
@[simp] theorem dropNotice_contentionOf (s : State) (k : NoticeKind) (d' : ChanNo) : (s.dropNotice k).contentionOf d' = s.contentionOf d' := rfl
@[simp] theorem dropNotice_pollQueue (s : State) (k : NoticeKind) (d' : ChanNo) : (s.dropNotice k).pollQueue d' = s.pollQueue d' := rfl
@[simp] theorem dropNotice_sweepPointer (s : State) (k : NoticeKind) (d' : ChanNo) : (s.dropNotice k).sweepPointer d' = s.sweepPointer d' := rfl
@[simp] theorem dropNotice_buildCondition (s : State) (k : NoticeKind) (d' : ChanNo) : (s.dropNotice k).buildCondition d' = s.buildCondition d' := rfl
@[simp] theorem dropNotice_planStore (s : State) (k : NoticeKind) (d' : ChanNo) : (s.dropNotice k).planStore d' = s.planStore d' := rfl
@[simp] theorem dropNotice_expectQueue (s : State) (k : NoticeKind) (d' : ChanNo) : (s.dropNotice k).expectQueue d' = s.expectQueue d' := rfl
@[simp] theorem dropNotice_counter (s : State) (k : NoticeKind) (d' : ChanNo) (j : ChannelCounter) : (s.dropNotice k).counter d' j = s.counter d' j := rfl
@[simp] theorem dropNotice_deviceCounter (s : State) (k : NoticeKind) (j : DeviceCounter) : (s.dropNotice k).deviceCounter j = s.deviceCounter j := rfl
@[simp] theorem dropNotice_lookupIdentity (s : State) (k : NoticeKind) (h' : HwId) : (s.dropNotice k).lookupIdentity h' = s.lookupIdentity h' := rfl

/-! ### drawn -/

@[simp] theorem drawn_pending (s : State) : (s.drawn).pending = s.pending := rfl
@[simp] theorem drawn_lastReference (s : State) : (s.drawn).lastReference = s.lastReference := rfl
@[simp] theorem drawn_referenceSeen (s : State) : (s.drawn).referenceSeen = s.referenceSeen := rfl
@[simp] theorem drawn_channels (s : State) : (s.drawn).channels = s.channels := rfl
@[simp] theorem drawn_stations (s : State) : (s.drawn).stations = s.stations := rfl
@[simp] theorem drawn_freeList (s : State) : (s.drawn).freeList = s.freeList := rfl
@[simp] theorem drawn_identity (s : State) : (s.drawn).identity = s.identity := rfl
@[simp] theorem drawn_flows (s : State) : (s.drawn).flows = s.flows := rfl
@[simp] theorem drawn_policyA (s : State) : (s.drawn).policyA = s.policyA := rfl
@[simp] theorem drawn_policyB (s : State) : (s.drawn).policyB = s.policyB := rfl
@[simp] theorem drawn_requestMarks (s : State) : (s.drawn).requestMarks = s.requestMarks := rfl
@[simp] theorem drawn_activeLists (s : State) : (s.drawn).activeLists = s.activeLists := rfl
@[simp] theorem drawn_calendars (s : State) : (s.drawn).calendars = s.calendars := rfl
@[simp] theorem drawn_contention (s : State) : (s.drawn).contention = s.contention := rfl
@[simp] theorem drawn_pollQueues (s : State) : (s.drawn).pollQueues = s.pollQueues := rfl
@[simp] theorem drawn_sweepPointers (s : State) : (s.drawn).sweepPointers = s.sweepPointers := rfl
@[simp] theorem drawn_adjustQueue (s : State) : (s.drawn).adjustQueue = s.adjustQueue := rfl
@[simp] theorem drawn_engine (s : State) : (s.drawn).engine = s.engine := rfl
@[simp] theorem drawn_buildConditions (s : State) : (s.drawn).buildConditions = s.buildConditions := rfl
@[simp] theorem drawn_buildQueue (s : State) : (s.drawn).buildQueue = s.buildQueue := rfl
@[simp] theorem drawn_planStores (s : State) : (s.drawn).planStores = s.planStores := rfl
@[simp] theorem drawn_planLinkHold (s : State) : (s.drawn).planLinkHold = s.planLinkHold := rfl
@[simp] theorem drawn_planLink (s : State) : (s.drawn).planLink = s.planLink := rfl
@[simp] theorem drawn_expectQueues (s : State) : (s.drawn).expectQueues = s.expectQueues := rfl
@[simp] theorem drawn_strayRing (s : State) : (s.drawn).strayRing = s.strayRing := rfl
@[simp] theorem drawn_overwrites (s : State) : (s.drawn).overwrites = s.overwrites := rfl
@[simp] theorem drawn_forwardBuffer (s : State) : (s.drawn).forwardBuffer = s.forwardBuffer := rfl
@[simp] theorem drawn_systemLink (s : State) : (s.drawn).systemLink = s.systemLink := rfl
@[simp] theorem drawn_controlQueue (s : State) : (s.drawn).controlQueue = s.controlQueue := rfl
@[simp] theorem drawn_inboundHold (s : State) : (s.drawn).inboundHold = s.inboundHold := rfl
@[simp] theorem drawn_heldArrival (s : State) : (s.drawn).heldArrival = s.heldArrival := rfl
@[simp] theorem drawn_execution (s : State) : (s.drawn).execution = s.execution := rfl
@[simp] theorem drawn_responseQueue (s : State) : (s.drawn).responseQueue = s.responseQueue := rfl
@[simp] theorem drawn_channelCounters (s : State) : (s.drawn).channelCounters = s.channelCounters := rfl
@[simp] theorem drawn_deviceCounters (s : State) : (s.drawn).deviceCounters = s.deviceCounters := rfl
@[simp] theorem drawn_noticeEnable (s : State) : (s.drawn).noticeEnable = s.noticeEnable := rfl
@[simp] theorem drawn_notices (s : State) : (s.drawn).notices = s.notices := rfl
@[simp] theorem drawn_freeDraws (s : State) : s.drawn.freeDraws = s.freeDraws + 1 := rfl
@[simp] theorem drawn_context (s : State) (d' : ChanNo) : (s.drawn).context d' = s.context d' := rfl
@[simp] theorem drawn_params (s : State) (d' : ChanNo) : (s.drawn).params d' = s.params d' := rfl
@[simp] theorem drawn_profile (s : State) (d' : ChanNo) : (s.drawn).profile d' = s.profile d' := rfl
@[simp] theorem drawn_station (s : State) (n' : StationNo) : (s.drawn).station n' = s.station n' := rfl
@[simp] theorem drawn_flow (s : State) (f' : FlowNo) : (s.drawn).flow f' = s.flow f' := rfl
@[simp] theorem drawn_policyClass (s : State) (p' : PolicySelect) (j : ClassNo) : (s.drawn).policyClass p' j = s.policyClass p' j := rfl
@[simp] theorem drawn_active (s : State) (d' : ChanNo) (l' : Level) : (s.drawn).active d' l' = s.active d' l' := rfl
@[simp] theorem drawn_calendar (s : State) (d' : ChanNo) : (s.drawn).calendar d' = s.calendar d' := rfl
@[simp] theorem drawn_contentionOf (s : State) (d' : ChanNo) : (s.drawn).contentionOf d' = s.contentionOf d' := rfl
@[simp] theorem drawn_pollQueue (s : State) (d' : ChanNo) : (s.drawn).pollQueue d' = s.pollQueue d' := rfl
@[simp] theorem drawn_sweepPointer (s : State) (d' : ChanNo) : (s.drawn).sweepPointer d' = s.sweepPointer d' := rfl
@[simp] theorem drawn_buildCondition (s : State) (d' : ChanNo) : (s.drawn).buildCondition d' = s.buildCondition d' := rfl
@[simp] theorem drawn_planStore (s : State) (d' : ChanNo) : (s.drawn).planStore d' = s.planStore d' := rfl
@[simp] theorem drawn_expectQueue (s : State) (d' : ChanNo) : (s.drawn).expectQueue d' = s.expectQueue d' := rfl
@[simp] theorem drawn_counter (s : State) (d' : ChanNo) (j : ChannelCounter) : (s.drawn).counter d' j = s.counter d' j := rfl
@[simp] theorem drawn_deviceCounter (s : State) (j : DeviceCounter) : (s.drawn).deviceCounter j = s.deviceCounter j := rfl
@[simp] theorem drawn_notice (s : State) (j : NoticeKind) : (s.drawn).notice j = s.notice j := rfl
@[simp] theorem drawn_lookupIdentity (s : State) (h' : HwId) : (s.drawn).lookupIdentity h' = s.lookupIdentity h' := rfl

end Sys2Proof.Machine.State
end

