-- ==== Sys2Proof/Laws/Tables.lean ====
section
/-! SUPPORT. The laws of the collections of Machine/Ops.lean: vectors, tables and their canonical form, ordered
insertion. -/

namespace Sys2Proof.Machine

/-! ## Vectors -/

@[simp] theorem vget_vput_same {α : Type} {n : Nat} (v : Vector α n) (i : Fin n) (x : α) :
    vget (vput v i x) i = x := by simp [vget, vput]

theorem vget_vput_ne {α : Type} {n : Nat} (v : Vector α n) {i j : Fin n} (h : j ≠ i) (x : α) :
    vget (vput v i x) j = vget v j := by
  have : i.val ≠ j.val := fun e => h (Fin.ext e.symm)
  simp [vget, vput, this]

theorem vget_vput {α : Type} {n : Nat} (v : Vector α n) (i j : Fin n) (x : α) :
    vget (vput v i x) j = if j = i then x else vget v j := by
  by_cases h : j = i
  · subst h; simp
  · simp [h, vget_vput_ne v h x]

@[simp] theorem vget_replicate {α : Type} {n : Nat} (x : α) (i : Fin n) : vget (Vector.replicate n x) i = x := by
  simp [vget]

@[simp] theorem vget_map {α β : Type} {n : Nat} (g : α → β) (v : Vector α n) (i : Fin n) :
    vget (v.map g) i = g (vget v i) := by simp [vget]

@[simp] theorem vput_vget {α : Type} {n : Nat} (v : Vector α n) (i : Fin n) : vput v i (vget v i) = v := by
  simp [vget, vput]

theorem vector_ext {α : Type} {n : Nat} {v w : Vector α n} (h : ∀ i, vget v i = vget w i) : v = w :=
  Vector.ext fun i hi => h ⟨i, hi⟩

/-! ## Tables -/

/-- The keys of a table, strictly rising. -/
theorem Table.Canonical.rising {α : Type} {d : α} {t : Table α} (h : Table.Canonical d t) :
    t.Pairwise (fun a b => a.1 < b.1) := h.1

@[simp] theorem Table.get_nil {α : Type} (d : α) (n : Nat) : Table.get d [] n = d := rfl

theorem Table.get_cons {α : Type} (d : α) (e : Nat × α) (t : Table α) (n : Nat) :
    Table.get d (e :: t) n = if e.1 = n then e.2 else Table.get d t n := by
  by_cases h : e.1 = n <;> simp [Table.get, h]

/-- A table without an entry at `n` reads its reset record there. -/
theorem Table.get_of_absent {α : Type} (d : α) (t : Table α) (n : Nat) (h : ∀ e ∈ t, e.1 ≠ n) :
    Table.get d t n = d := by
  induction t with
  | nil => rfl
  | cons e r ih =>
    rw [Table.get_cons, if_neg (h e (by simp))]
    exact ih fun x hx => h x (by simp [hx])

theorem Table.get_erase {α : Type} (d : α) (t : Table α) (n m : Nat) :
    Table.get d (t.erase n) m = if m = n then d else Table.get d t m := by
  induction t with
  | nil => simp [Table.erase]
  | cons e r ih =>
    unfold Table.erase at ih ⊢
    by_cases he : e.1 = n
    · rw [List.filter_cons_of_neg (by simp [he]), ih, Table.get_cons]
      by_cases hm : m = n
      · simp [hm]
      · have : ¬ e.1 = m := by omega
        simp [hm, this]
    · rw [List.filter_cons_of_pos (by simp [he]), Table.get_cons, ih, Table.get_cons]
      by_cases hm : m = n
      · have : ¬ e.1 = m := by omega
        simp [hm, he]
      · simp [hm]

theorem Table.get_insert {α : Type} (d : α) (t : Table α) (n m : Nat) (v : α) (h : ∀ e ∈ t, e.1 ≠ n) :
    Table.get d (Table.insert n v t) m = if m = n then v else Table.get d t m := by
  induction t with
  | nil =>
    rw [Table.insert, Table.get_cons]
    by_cases hm : m = n
    · simp [hm]
    · have : ¬ n = m := by omega
      simp [hm, this]
  | cons e r ih =>
    have hr : ∀ x ∈ r, x.1 ≠ n := fun x hx => h x (by simp [hx])
    have he : e.1 ≠ n := h e (by simp)
    rw [Table.insert]
    split
    · rw [Table.get_cons]
      by_cases hm : m = n
      · simp [hm]
      · have : ¬ n = m := by omega
        simp [hm, this]
    · rw [Table.get_cons, ih hr, Table.get_cons]
      by_cases hm : m = n
      · have : ¬ e.1 = m := by omega
        simp [hm, he]
      · simp [hm]

theorem Table.absent_erase {α : Type} (t : Table α) (n : Nat) : ∀ e ∈ t.erase n, e.1 ≠ n := by
  intro e he
  simpa [Table.erase] using (List.mem_filter.mp he).2

/-- Reading a table after a write: the written record at its index, every other record as before. -/
theorem Table.get_put {α : Type} [DecidableEq α] (d : α) (t : Table α) (n m : Nat) (v : α) :
    Table.get d (Table.put d t n v) m = if m = n then v else Table.get d t m := by
  unfold Table.put
  split
  · rename_i h
    rw [Table.get_erase]
    by_cases hm : m = n <;> simp [hm, h]
  · rw [Table.get_insert d _ n m v (Table.absent_erase t n), Table.get_erase]
    by_cases hm : m = n <;> simp [hm]

theorem Table.canonical_nil {α : Type} (d : α) : Table.Canonical d ([] : Table α) := by
  simp [Table.Canonical]

theorem Table.canonical_filter {α : Type} {d : α} {t : Table α} (h : Table.Canonical d t) (p : Nat × α → Bool) :
    Table.Canonical d (t.filter p) :=
  ⟨h.1.filter p, fun e he => h.2 e (List.mem_filter.mp he).1⟩

theorem Table.mem_insert {α : Type} {n : Nat} {v : α} {t : Table α} {e : Nat × α} :
    e ∈ Table.insert n v t ↔ e = (n, v) ∨ e ∈ t := by
  induction t with
  | nil => simp [Table.insert]
  | cons x r ih =>
    rw [Table.insert]
    split
    · simp
    · simp only [List.mem_cons, ih]; tauto

theorem Table.rising_insert {α : Type} {n : Nat} {v : α} {t : Table α} (ht : t.Pairwise (fun a b => a.1 < b.1))
    (h : ∀ e ∈ t, e.1 ≠ n) : (Table.insert n v t).Pairwise (fun a b => a.1 < b.1) := by
  induction t with
  | nil => simp [Table.insert]
  | cons x r ih =>
    obtain ⟨hx, hr⟩ := List.pairwise_cons.mp ht
    have hxn : x.1 ≠ n := h x (by simp)
    rw [Table.insert]
    split
    · rename_i hlt
      refine List.pairwise_cons.mpr ⟨fun e he => ?_, ht⟩
      rcases List.mem_cons.mp he with rfl | he
      · exact hlt
      · exact lt_trans hlt (hx e he)
    · refine List.pairwise_cons.mpr ⟨fun e he => ?_, ih hr fun e he => h e (by simp [he])⟩
      rcases Table.mem_insert.mp he with rfl | he
      · show x.1 < n; omega
      · exact hx e he

/-- A write keeps the canonical form. -/
theorem Table.canonical_put {α : Type} [DecidableEq α] {d : α} {t : Table α} (h : Table.Canonical d t) (n : Nat)
    (v : α) : Table.Canonical d (Table.put d t n v) := by
  have he : Table.Canonical d (t.erase n) := Table.canonical_filter h _
  unfold Table.put
  split
  · exact he
  · rename_i hv
    refine ⟨Table.rising_insert he.1 (Table.absent_erase t n), fun e hm => ?_⟩
    rcases Table.mem_insert.mp hm with rfl | hm
    · exact hv
    · exact he.2 e hm

/-! ## Ordered insertion -/

/-- Inserting adds the one item. -/
theorem mem_insertBy {α : Type} (g : α → α → Bool) (x y : α) (q : List α) :
    y ∈ insertBy g x q ↔ y = x ∨ y ∈ q := by
  induction q with
  | nil => simp [insertBy]
  | cons a r ih =>
    rw [insertBy]
    split
    · simp
    · simp only [List.mem_cons, ih]; tauto

/-- Inserting keeps the other items in their order. -/
theorem insertBy_perm {α : Type} (g : α → α → Bool) (x : α) (q : List α) : (insertBy g x q).Perm (x :: q) := by
  induction q with
  | nil => simp [insertBy]
  | cons a r ih =>
    rw [insertBy]
    split
    · exact List.Perm.refl _
    · exact (ih.cons a).trans (List.Perm.swap x a r)

@[simp] theorem length_insertBy {α : Type} (g : α → α → Bool) (x : α) (q : List α) :
    (insertBy g x q).length = q.length + 1 := by
  simpa using (insertBy_perm g x q).length_eq

@[simp] theorem length_replaceFirst {α : Type} (p : α → Bool) (g : α → α) (q : List α) :
    (replaceFirst p g q).length = q.length := by
  induction q with
  | nil => rfl
  | cons a r ih =>
    rw [replaceFirst]
    split
    · simp
    · simp [ih]

end Sys2Proof.Machine
end

