-- ==== Sys2Proof/Laws/Ops.lean ====
section
/-! SUPPORT. What each accessor reads after the update of the same piece: the written value at its place, every other
place as before. -/

namespace Sys2Proof.Machine

/-! ## Places of counters and notice kinds -/

theorem ChannelCounter.index_injective : Function.Injective ChannelCounter.index := by
  have inv : ∀ a : ChannelCounter, ((
    [.requestIgnored, .requestMismatch, .requestClamp, .plansBuilt, .planCut, .fallback, .calendarFull,
     .periodicPlaced, .periodicMiss, .periodicLapsed, .extraDeferred, .behindIgnored, .openingsEmpty,
     .openingsSuccess, .openingsCollided, .talliesFinalized, .tallySuperseded, .tallyStale, .adaptRaise,
     .adaptLower, .adaptHold, .joinOffered, .joinDropped, .joinTaken, .joinEmpty, .joinCollided, .pollsPlaced,
     .pollsDeferred, .pollQueueFull, .alignSuccess, .alignCorrected, .alignLimited, .misses, .stationsLost,
     .maintained, .maintenanceFlagged, .plansSent, .plansWithdrawn, .chargesRestored, .chargesForfeited,
     .idlePlans, .turnsAnswered, .turnsDamaged, .noShow, .misplaced, .stray, .unitsDiscarded, .joinUnitDiscarded] : List ChannelCounter)[a.index.val]?) = some a := by
    intro a
    cases a <;> rfl
  intro a b h
  have ha := inv a
  rw [h, inv b] at ha
  exact (Option.some.inj ha).symm

theorem DeviceCounter.index_injective : Function.Injective DeviceCounter.index := by
  have inv : ∀ a : DeviceCounter, ((
    [.referenceBackstep, .adjustsQueued, .adjustsMerged, .adjustsDropped, .adjustFramesSent, .forwardDrop,
     .unitsForwarded, .framesTaken, .framesBusy, .framesRefused, .noticesSent] : List DeviceCounter)[a.index.val]?) = some a := by
    intro a
    cases a <;> rfl
  intro a b h
  have ha := inv a
  rw [h, inv b] at ha
  exact (Option.some.inj ha).symm

theorem NoticeKind.index_injective : Function.Injective NoticeKind.index := by
  have inv : ∀ a : NoticeKind, ((
    [.stationLost, .planWithdrawn, .planCut, .newcomer, .stationTableFull, .stationOnline, .periodicMiss,
     .strayBurst, .forwardDrop, .adjustDrop, .channelStopped] : List NoticeKind)[a.index.val]?) = some a := by
    intro a
    cases a <;> rfl
  intro a b h
  have ha := inv a
  rw [h, inv b] at ha
  exact (Option.some.inj ha).symm

namespace State

/-! ## Channel contexts -/

theorem context_putContext (s : State) (c d : ChanNo) (x : ChannelContext) :
    (s.putContext c x).context d = if d = c then x else s.context d := vget_vput _ _ _ _

@[simp] theorem context_putContext_same (s : State) (c : ChanNo) (x : ChannelContext) :
    (s.putContext c x).context c = x := vget_vput_same _ _ _

theorem context_putContext_ne (s : State) {c d : ChanNo} (h : d ≠ c) (x : ChannelContext) :
    (s.putContext c x).context d = s.context d := vget_vput_ne _ h _

/-! ## Stations and flows -/

theorem station_putStation (s : State) (n m : StationNo) (x : Station) :
    (s.putStation n x).station m = if m = n then x else s.station m := by
  simp [State.station, State.putStation, Table.get_put, Fin.ext_iff]

@[simp] theorem station_putStation_same (s : State) (n : StationNo) (x : Station) :
    (s.putStation n x).station n = x := by simp [station_putStation]

theorem station_putStation_ne (s : State) {n m : StationNo} (h : m ≠ n) (x : Station) :
    (s.putStation n x).station m = s.station m := by simp [station_putStation, h]

theorem flow_putFlow (s : State) (f g : FlowNo) (x : Flow) :
    (s.putFlow f x).flow g = if g = f then x else s.flow g := by
  simp [State.flow, State.putFlow, Table.get_put, Fin.ext_iff]

@[simp] theorem flow_putFlow_same (s : State) (f : FlowNo) (x : Flow) : (s.putFlow f x).flow f = x := by
  simp [flow_putFlow]

theorem flow_putFlow_ne (s : State) {f g : FlowNo} (h : g ≠ f) (x : Flow) :
    (s.putFlow f x).flow g = s.flow g := by simp [flow_putFlow, h]

/-! ## Policy, marks and lists -/

@[simp] theorem policyClass_putPolicyClass_same (s : State) (p : PolicySelect) (k : ClassNo) (x : PolicyClass) :
    (s.putPolicyClass p k x).policyClass p k = x := by
  cases p <;> simp [State.policyClass, State.putPolicyClass]

@[simp] theorem requestMark_putRequestMark_same (s : State) (c : ChanNo) (m : Option Beat) :
    vget (s.putRequestMark c m).requestMarks c = m := vget_vput_same _ _ _

theorem requestMark_putRequestMark_ne (s : State) {c d : ChanNo} (h : d ≠ c) (m : Option Beat) :
    vget (s.putRequestMark c m).requestMarks d = vget s.requestMarks d := vget_vput_ne _ h _

@[simp] theorem active_putActive_same (s : State) (c : ChanNo) (l : Level) (q : List FlowNo) :
    (s.putActive c l q).active c l = q := by simp [State.active, State.putActive]

theorem active_putActive_ne (s : State) {c d : ChanNo} {l m : Level} (h : ¬ (d = c ∧ m = l)) (q : List FlowNo) :
    (s.putActive c l q).active d m = s.active d m := by
  by_cases hd : d = c
  · subst hd
    have hm : m ≠ l := fun e => h ⟨rfl, e⟩
    simp [State.active, State.putActive, vget_vput_ne _ hm]
  · simp [State.active, State.putActive, vget_vput_ne _ hd]

/-! ## Calendar, contention, polling -/

@[simp] theorem calendar_putCalendar_same (s : State) (c : ChanNo) (x : Calendar) :
    (s.putCalendar c x).calendar c = x := vget_vput_same _ _ _

theorem calendar_putCalendar_ne (s : State) {c d : ChanNo} (h : d ≠ c) (x : Calendar) :
    (s.putCalendar c x).calendar d = s.calendar d := vget_vput_ne _ h _

@[simp] theorem contentionOf_putContention_same (s : State) (c : ChanNo) (x : Contention) :
    (s.putContention c x).contentionOf c = x := vget_vput_same _ _ _

theorem contentionOf_putContention_ne (s : State) {c d : ChanNo} (h : d ≠ c) (x : Contention) :
    (s.putContention c x).contentionOf d = s.contentionOf d := vget_vput_ne _ h _

@[simp] theorem pollQueue_putPollQueue_same (s : State) (c : ChanNo) (q : List StationNo) :
    (s.putPollQueue c q).pollQueue c = q := vget_vput_same _ _ _

theorem pollQueue_putPollQueue_ne (s : State) {c d : ChanNo} (h : d ≠ c) (q : List StationNo) :
    (s.putPollQueue c q).pollQueue d = s.pollQueue d := vget_vput_ne _ h _

@[simp] theorem sweepPointer_putSweepPointer_same (s : State) (c : ChanNo) (n : StationNo) :
    (s.putSweepPointer c n).sweepPointer c = n := vget_vput_same _ _ _

/-! ## Builder, plans and expect queues -/

@[simp] theorem buildCondition_putBuildCondition_same (s : State) (c : ChanNo) (x : BuildCondition) :
    (s.putBuildCondition c x).buildCondition c = x := vget_vput_same _ _ _

theorem buildCondition_putBuildCondition_ne (s : State) {c d : ChanNo} (h : d ≠ c) (x : BuildCondition) :
    (s.putBuildCondition c x).buildCondition d = s.buildCondition d := vget_vput_ne _ h _

@[simp] theorem planStore_putPlanStore_same (s : State) (c : ChanNo) (x : PlanStore) :
    (s.putPlanStore c x).planStore c = x := vget_vput_same _ _ _

theorem planStore_putPlanStore_ne (s : State) {c d : ChanNo} (h : d ≠ c) (x : PlanStore) :
    (s.putPlanStore c x).planStore d = s.planStore d := vget_vput_ne _ h _

@[simp] theorem expectQueue_putExpectQueue_same (s : State) (c : ChanNo) (q : List ExpectEntry) :
    (s.putExpectQueue c q).expectQueue c = q := vget_vput_same _ _ _

theorem expectQueue_putExpectQueue_ne (s : State) {c d : ChanNo} (h : d ≠ c) (q : List ExpectEntry) :
    (s.putExpectQueue c q).expectQueue d = s.expectQueue d := vget_vput_ne _ h _

/-! ## Counters and notices -/

/-- Counting raises the one counter, saturating, and no other (R163). -/
theorem counter_count (s : State) (c d : ChanNo) (k j : ChannelCounter) (n : Nat) :
    (s.count c k n).counter d j = if d = c ∧ j = k then saturate (s.counter c k) n else s.counter d j := by
  by_cases hd : d = c
  · subst hd
    by_cases hj : j = k
    · subst hj; simp [State.counter, State.count]
    · have hi : j.index ≠ k.index := fun e => hj (ChannelCounter.index_injective e)
      simp [State.counter, State.count, vget_vput_ne _ hi, hj]
  · simp [State.counter, State.count, vget_vput_ne _ hd, hd]

/-- Counting raises the one counter, saturating, and no other (R163). -/
theorem deviceCounter_countDevice (s : State) (k j : DeviceCounter) (n : Nat) :
    (s.countDevice k n).deviceCounter j = if j = k then saturate (s.deviceCounter k) n else s.deviceCounter j := by
  by_cases hj : j = k
  · subst hj; simp [State.deviceCounter, State.countDevice]
  · have hi : j.index ≠ k.index := fun e => hj (DeviceCounter.index_injective e)
    simp [State.deviceCounter, State.countDevice, vget_vput_ne _ hi, hj]

theorem saturate_le (v n : Nat) : saturate v n ≤ Config.maxCounter := Nat.min_le_left _ _

/-- A raise touches the pending record of its own kind only (R165, R166). -/
theorem notice_raise_ne (s : State) (d : NoticeDetail) {k : NoticeKind} (h : k ≠ d.kind) :
    (s.raise d).notice k = s.notice k := by
  have hi : k.index ≠ d.kind.index := fun e => h (NoticeKind.index_injective e)
  unfold State.notice State.raise
  split <;> simp [vget_vput_ne _ hi]

/-- A raise of an enabled kind (R165). -/
theorem notice_raise_enabled (s : State) (d : NoticeDetail) (h : vget s.noticeEnable d.kind.index = true) :
    (s.raise d).notice d.kind = some (raisedRecord (s.notice d.kind) d) := by
  simp [State.notice, State.raise, h]

/-- A raise of a DISABLED kind records nothing (R166). -/
theorem notice_raise_disabled (s : State) (d : NoticeDetail) (h : vget s.noticeEnable d.kind.index = false) :
    s.raise d = s := by
  simp [State.raise, h]

@[simp] theorem notice_dropNotice_same (s : State) (k : NoticeKind) : (s.dropNotice k).notice k = none :=
  vget_vput_same _ _ _

/-- The response queue and INBOUND HOLD after a response joins (R155). -/
@[simp] theorem inboundHold_pushResponse (s : State) (r : Response) :
    (s.pushResponse r).inboundHold =
      (s.inboundHold || decide (Config.inboundHoldAt ≤ s.responseQueue.length + 1)) := rfl

end State

end Sys2Proof.Machine
end

