-- ==== Sys2Proof/Laws/Shared.lean ====
section
/-! SUPPORT. For each shared operation, one lemma that says everything it can do; and what settling does. -/

namespace Sys2Proof.Machine

namespace State

/-! ## Settling (assumption 2) -/

/-- Where nothing is due, settling changes nothing. -/
@[simp] theorem settle_quiet {s : State} (h : s.nextDue = none) : s.settle = s := by
  show settleWithin (1099511627775 + 1) s = s
  simp [settleWithin, h]

/-- What every due step keeps, settling keeps. -/
theorem settleWithin_keeps (P : State → Prop) (h : ∀ s d, P s → P (s.act d)) :
    ∀ k s, P s → P (settleWithin k s)
  | 0, _, hs => hs
  | k + 1, s, hs => by
    rw [settleWithin]
    split
    · exact hs
    · exact settleWithin_keeps P h k _ (h _ _ hs)

/-- What every due step keeps, settling keeps. -/
theorem settle_keeps (P : State → Prop) (h : ∀ s d, P s → P (s.act d)) {s : State} (hs : P s) : P s.settle :=
  settleWithin_keeps P h _ s hs

/-! ## The active lists -/

/-- Enlisting does nothing, or puts the flow at the tail of its level and captures LIST LEVEL (R57). -/
theorem enlist_cases (s : State) (f : FlowNo) :
    ((s.meetsEnlistment f && (s.flow f).listLevel.isNone) = false ∧ s.enlist f = s) ∨
    ∃ n, s.meetsEnlistment f = true ∧ (s.flow f).listLevel = none ∧ (s.flow f).station = some n ∧
      s.enlist f =
        (s.putActive (s.station n).channel (s.classOf f).priority
          (s.active (s.station n).channel (s.classOf f).priority ++ [f])).putFlow f
          { s.flow f with listLevel := some (s.classOf f).priority } := by
  by_cases h : (s.meetsEnlistment f && (s.flow f).listLevel.isNone) = true
  · right
    obtain ⟨h1, h2⟩ := Bool.and_eq_true _ _ |>.mp h
    have h2 : (s.flow f).listLevel = none := by simpa using h2
    rcases hn : (s.flow f).station with _ | n
    · simp [meetsEnlistment, flowOnline, hn] at h1
    · exact ⟨n, h1, h2, rfl, by simp [enlist, h1, h2, hn]⟩
  · left
    have h := Bool.eq_false_of_not_eq_true h
    exact ⟨h, by simp [enlist, h]⟩

/-- Delisting does nothing to a flow that is not enlisted; it takes an enlisted one out of its level and clears LIST
LEVEL and DEFICIT, and nothing else but the build under way moves on (R58). -/
theorem delist_cases (s : State) (c : ChanNo) (f : FlowNo) :
    ((s.flow f).listLevel = none ∧ s.delist c f = s) ∨
    ∃ l e, (s.flow f).listLevel = some l ∧
      s.delist c f =
        ((s.putActive c l ((s.active c l).erase f)).putFlow f
          { s.flow f with listLevel := none, deficit := 0 }).putEngine e := by
  rcases h : (s.flow f).listLevel with _ | l
  · exact .inl ⟨rfl, by simp [delist, h]⟩
  · refine .inr ⟨l, (s.delist c f).engine, rfl, ?_⟩
    unfold delist
    split
    · rename_i h'; rw [h'] at h; cases h
    · rename_i m h'
      rw [h'] at h; cases h
      rfl

/-! ## Polling and adjustments -/

/-- A station asked onto the poll queue is there already, joins the tail, or finds the queue full (R110). -/
theorem pollEnqueue_cases (s : State) (n : StationNo) :
    ((s.station n).inPollQueue = true ∧ s.pollEnqueue n = s) ∨
    ((s.station n).inPollQueue = false ∧ (s.pollQueue (s.station n).channel).length < Config.maxPollQueue ∧
      s.pollEnqueue n =
        (s.putPollQueue (s.station n).channel (s.pollQueue (s.station n).channel ++ [n])).putStation n
          { s.station n with inPollQueue := true }) ∨
    ((s.station n).inPollQueue = false ∧ Config.maxPollQueue ≤ (s.pollQueue (s.station n).channel).length ∧
      s.pollEnqueue n = s.count (s.station n).channel .pollQueueFull 1) := by
  rcases hq : (s.station n).inPollQueue with _ | _
  · by_cases h : (s.pollQueue (s.station n).channel).length < Config.maxPollQueue
    · exact .inr (.inl ⟨rfl, h, by simp [pollEnqueue, hq, h]⟩)
    · exact .inr (.inr ⟨rfl, by omega, by simp [pollEnqueue, hq, h]⟩)
  · exact .inl ⟨rfl, by simp [pollEnqueue, hq]⟩

/-- An offered adjustment is merged, queued or dropped (R120). -/
theorem offerAdjust_cases (s : State) (a : AdjustEntry) :
    (s.adjustQueue.any (fun e => e.station == a.station) = true ∧
      s.offerAdjust a =
        (s.putAdjustQueue
          (replaceFirst (fun e => e.station == a.station) (mergeAdjust a) s.adjustQueue)).countDevice
          .adjustsMerged 1) ∨
    (s.adjustQueue.any (fun e => e.station == a.station) = false ∧ s.adjustQueue.length < Config.maxAdjustQueue ∧
      s.offerAdjust a = (s.putAdjustQueue (s.adjustQueue ++ [a])).countDevice .adjustsQueued 1) ∨
    (s.adjustQueue.any (fun e => e.station == a.station) = false ∧ Config.maxAdjustQueue ≤ s.adjustQueue.length ∧
      s.offerAdjust a =
        ((s.countDevice .adjustsDropped 1).raise
          (.adjustDrop a.station a.channel a.timingStep a.powerStep a.aligned)).pollEnqueue a.station) := by
  unfold offerAdjust
  rcases h : s.adjustQueue.any (fun e => e.station == a.station) with _ | _
  · by_cases hl : s.adjustQueue.length < Config.maxAdjustQueue
    · exact .inr (.inl ⟨rfl, hl, by simp [hl]⟩)
    · exact .inr (.inr ⟨rfl, by omega, by simp [hl]⟩)
  · exact .inl ⟨rfl, by simp⟩

/-! ## Placement -/

/-- First-fit placement fails, or places the element at the offset found and writes the context with the spans left
(R65, R66). -/
theorem placeFirstFit_cases (s : State) (b : BuildContext) (n : Nat) (body : ElementBody) :
    s.placeFirstFit b n body = none ∨
    ∃ o spans, firstFit n b.freeSpans = some (o, spans) ∧
      withinBudget (addElement { offset := o, length := n, body := body } (s.buildHalf b.channel).elements) spans
        = true ∧
      s.placeFirstFit b n body = some (s.place b { offset := o, length := n, body := body } spans) := by
  unfold placeFirstFit
  rcases h : firstFit n b.freeSpans with _ | ⟨o, spans⟩
  · exact .inl rfl
  · by_cases hb : withinBudget
      (addElement { offset := o, length := n, body := body } (s.buildHalf b.channel).elements) spans = true
    · exact .inr ⟨o, spans, rfl, hb, by simp [hb]⟩
    · exact .inl (by simp [hb])

/-! ## Channels -/

/-- A cut re-enqueues nobody and draws nothing, unless a station is still to be taken in group 4; then the free value says
whether the next one was in hand, and if so it is taken and enqueued again (R114, assumption 19). -/
theorem requeueTaken_cases (s : State) (b : BuildContext) :
    (s.nextTaken b = none ∧ s.requeueTaken b = s) ∨
    ∃ n, s.nextTaken b = some n ∧
      ((Config.stationInHand s.freeDraws = false ∧ s.requeueTaken b = s.drawn) ∨
        (Config.stationInHand s.freeDraws = true ∧
          s.requeueTaken b =
            (s.drawn.takePolled b.channel n (s.pollQueue b.channel).tail).pollEnqueue n)) := by
  unfold requeueTaken
  rcases h : s.nextTaken b with _ | n
  · exact .inl ⟨rfl, rfl⟩
  · refine .inr ⟨n, rfl, ?_⟩
    cases hf : Config.stationInHand s.freeDraws
    · exact .inl ⟨rfl, by simp⟩
    · exact .inr ⟨rfl, by simp⟩

/-- The test of R13 does nothing, or stops the channel and raises the notice. -/
theorem testStop_cases (s : State) (c : ChanNo) :
    (s.stopsNow c = false ∧ s.testStop c = s) ∨
    (s.stopsNow c = true ∧
      s.testStop c = (s.putContext c (stopContext (s.context c))).raise (.channelStopped c .orderly)) := by
  rcases h : s.stopsNow c with _ | _ <;> simp [testStop, h]

/-- Reaching beats writes CURRENT BEAT and the beats still to reach of the one channel, and nothing else. -/
theorem runBeats_cases (s : State) (c : ChanNo) :
    (s.deadlineReached c = true ∧ s.runBeats c = s) ∨
    ∃ n, n ≤ (s.context c).beatsToReach ∧ s.deadlineReached c = false ∧
      s.runBeats c =
        s.putContext c
          { s.context c with
            currentBeat := (s.context c).currentBeat + beats32 n
            beatsToReach := (s.context c).beatsToReach - n } := by
  have hle : ∀ (q : List Beat) (cur : Beat) (m : Nat), q.foldl (fun m d => min m (d - cur).toNat) m ≤ m := by
    intro q cur
    induction q with
    | nil => intro m; exact le_refl m
    | cons d r ih => intro m; exact le_trans (ih _) (Nat.min_le_left _ _)
  rcases h : s.deadlineReached c with _ | _
  · refine .inr ⟨s.beatsToDeadline c (s.context c).beatsToReach, hle _ _ _, rfl, ?_⟩
    simp [runBeats, h]
  · exact .inl ⟨rfl, by simp [runBeats, h]⟩

/-! ## Management -/

/-- A row of an execution does nothing, or executes the head frame, whose row it is (R156). -/
theorem executeRow_cases (s : State) (row : Instr) :
    s.executeRow row = s ∨
    ∃ f q, s.executionMayBegin = true ∧ s.controlQueue = f :: q ∧ f.parsed.row = row ∧
      s.executeRow row = s.executeFrame f q := by
  unfold executeRow
  by_cases hb : s.executionMayBegin = true
  · rcases hq : s.controlQueue with _ | ⟨f, q⟩
    · exact .inl (by simp)
    · by_cases hr : f.parsed.row = row
      · exact .inr ⟨f, q, hb, rfl, hr, by simp [hb, hr]⟩
      · exact .inl (by simp [hr])
  · exact .inl (by simp [hb])

/-- The execution of the head frame, when its row is the one asked for. -/
theorem executeRow_head {s : State} {f : RawFrame} {q : List RawFrame} (hb : s.executionMayBegin = true)
    (hq : s.controlQueue = f :: q) : s.executeRow f.parsed.row = s.executeFrame f q := by
  simp [executeRow, hb, hq]

/-- A whole operation: the frame leaves the queue, the operation acts, the response joins (R156). -/
theorem executeFrame_ends {s : State} {f : RawFrame} {q : List RawFrame} {o : Op} {a : Answer}
    (ho : f.parsed = .op o) (ha : (s.beginFrame q).operate f.tag o = .ends a) :
    s.executeFrame f q = a.state.finish f.tag f.operation a.code a.results := by
  simp [executeFrame, ho, ha]

/-- What the whole execution of an operation leaves: State.Answers with the operation's own code and results, over the state
the operation gives (R155, R156). -/
theorem executeFrame_answers {s : State} {f : RawFrame} {q : List RawFrame} {o : Op} {a : Answer}
    (h : s.Executes f q o) (ho : (s.beginFrame q).operate f.tag o = .ends a)
    (hq : a.state.responseQueue = s.responseQueue) (hc : a.state.controlQueue = q)
    (hi : a.state.inboundHold = s.inboundHold)
    (hd : a.state.deviceCounters = (s.beginFrame q).deviceCounters) :
    s.Answers (s.executeFrame f q) f q a.code a.results ∧
      s.executeFrame f q =
        { a.state with
          responseQueue := (s.executeFrame f q).responseQueue
          inboundHold := (s.executeFrame f q).inboundHold
          deviceCounters := (s.executeFrame f q).deviceCounters } := by
  obtain ⟨h1, -, h3⟩ := h
  refine ⟨?_, ?_⟩
  · have hh : s.inboundHold = false := by
      simp [executionMayBegin] at h1
      exact h1.1.2
    simp only [executeFrame, h3, ho, Answers, finish, deviceCounter]
    by_cases hcode : a.code = .done
    · simp only [hcode, pushResponse, hq, hc, hi, hh, hd, beginFrame, putControlQueue, countDevice,
        responseTo, Config.inboundHoldAt]
      refine ⟨rfl, rfl, by simp, ?_⟩
      intro k
      by_cases hk : k = .framesTaken
      · simp [hk]
      · have hne : k.index ≠ DeviceCounter.framesTaken.index := fun e => hk (DeviceCounter.index_injective e)
        simp [hk, vget_vput_ne _ hne]
    · simp only [hcode, pushResponse, hq, hc, hi, hh, hd, beginFrame, putControlQueue, countDevice,
        responseTo, Config.inboundHoldAt]
      refine ⟨rfl, rfl, by simp, ?_⟩
      intro k
      simp only [if_false, vget_vput]
      cases k <;> simp [DeviceCounter.index, hcode]
  · simp only [executeFrame, h3, ho, finish]
    split <;> rfl

/-- A response joins the response queue and a refusal is counted: nothing else changes (R155, R156). -/
theorem finish_cases (s : State) (tag : BitVec 16) (operation : Byte) (code : Code) (results : List Byte) :
    (code = .done ∧ s.finish tag operation code results =
      s.pushResponse { tag := tag, operation := operation, code := code, results := results }) ∨
    (code ≠ .done ∧ s.finish tag operation code results =
      (s.pushResponse { tag := tag, operation := operation, code := code, results := results }).countDevice
        .framesRefused 1) := by
  by_cases h : code = .done
  · exact .inl ⟨h, by simp [finish, h]⟩
  · exact .inr ⟨h, by simp [finish, h]⟩

/-- The response queue after an execution ends (R155). -/
@[simp] theorem responseQueue_finish (s : State) (tag : BitVec 16) (operation : Byte) (code : Code)
    (results : List Byte) :
    (s.finish tag operation code results).responseQueue =
      s.responseQueue ++ [{ tag := tag, operation := operation, code := code, results := results }] := by
  rcases s.finish_cases tag operation code results with ⟨_, h⟩ | ⟨_, h⟩ <;> rw [h] <;> rfl

/-- An arriving frame that is not held joins the control queue or is answered BUSY (R154). -/
theorem queueFrame_cases (s : State) (f : RawFrame) :
    (s.controlQueue.length < Config.maxControlQueue ∧ s.queueFrame f = s.putControlQueue (s.controlQueue ++ [f])) ∨
    (Config.maxControlQueue ≤ s.controlQueue.length ∧ s.queueFrame f = s.refuseBusy f) := by
  by_cases h : s.controlQueue.length < Config.maxControlQueue
  · exact .inl ⟨h, by simp [queueFrame, h]⟩
  · exact .inr ⟨by omega, by simp [queueFrame, h]⟩

/-! ## Intake -/

/-- A ring entry joins as the newest; of 64 the oldest leaves and OVERWRITES rises (R150). -/
theorem pushStray_cases (s : State) (x : StrayEntry) :
    (s.strayRing.length < Config.maxStrayRing ∧ s.pushStray x = s.putStrayRing (s.strayRing ++ [x]) s.overwrites) ∨
    (Config.maxStrayRing ≤ s.strayRing.length ∧
      s.pushStray x = s.putStrayRing (s.strayRing.tail ++ [x]) (min Config.maxCounter (s.overwrites + 1))) := by
  by_cases h : s.strayRing.length < Config.maxStrayRing
  · exact .inl ⟨h, by simp [pushStray, h]⟩
  · exact .inr ⟨by omega, by simp [pushStray, h]⟩

/-- A data unit joins the forward buffer, or finds 256 there and is dropped (R152). -/
theorem forward_cases (s : State) (u : ForwardUnit) :
    (s.forwardBuffer.length < Config.maxForward ∧
      s.forward u = s.putForwardBuffer (s.forwardBuffer ++ [u])) ∨
    (Config.maxForward ≤ s.forwardBuffer.length ∧
      s.forward u =
        (s.countDevice .forwardDrop 1).raise (.forwardDrop u.channel u.start u.station u.flow)) := by
  by_cases h : s.forwardBuffer.length < Config.maxForward
  · exact .inl ⟨h, by simp [forward, h]⟩
  · exact .inr ⟨by omega, by simp [forward, h]⟩

/-- A request handoff is ignored without count, counted REQUEST IGNORED or REQUEST MISMATCH, or accepted (R50). -/
theorem requestHandoff_cases (s : State) (c : ChanNo) (start : Beat) (f : FlowNo) (amount : Nat)
    (x : Option NamedStation) :
    (amount = 0 ∧ s.requestHandoff c start f amount x = s) ∨
    (amount ≠ 0 ∧ s.requestReaches f = false ∧
      s.requestHandoff c start f amount x = s.count c .requestIgnored 1) ∨
    (amount ≠ 0 ∧ s.requestReaches f = true ∧ s.requestNames f x = false ∧
      s.requestHandoff c start f amount x = s.count c .requestMismatch 1) ∨
    (amount ≠ 0 ∧ s.requestReaches f = true ∧ s.requestNames f x = true ∧
      s.requestHandoff c start f amount x = s.acceptRequest c start f amount) := by
  unfold requestHandoff
  by_cases ha : amount = 0
  · simp [ha]
  · rcases hr : s.requestReaches f with _ | _
    · simp [ha]
    · rcases hn : s.requestNames f x with _ | _ <;> simp [ha]

end State

/-- A step with a command in front runs that command with the queue's rest. -/
theorem step_front {s : State} {c : Instr} {q : List Instr} (h : s.pending = c :: q) :
    step s = exec c { s with pending := q } := by
  simp [step, h]

end Sys2Proof.Machine
end

