-- ==== Sys2Proof/Laws/Deadlines.lean ====
section
/-! SUPPORT. What the deadline events and the entry into ONLINE share: the test of R13 and the beats after it, a tally report, the
requests an idle engine takes, the charges of a withdrawn plan, and the flows of a station that enters ONLINE. Each lemma is in
the terms of the statements. -/

namespace Sys2Proof.Machine

namespace State

/-- A raise, in a state whose notices stand as in `s`, is one occurrence raised. -/
theorem raised_raise {s u : State} (d : NoticeDetail) (hn : u.notice d.kind = s.notice d.kind)
    (he : u.noticeEnable = s.noticeEnable) : s.Raised (u.raise d) d := by
  unfold Raised
  split
  · next h =>
    rw [notice_raise_enabled u d (by rw [he]; exact h), hn]
    cases s.notice d.kind <;> rfl
  · next h =>
    rw [notice_raise_disabled u d (by rw [he]; simpa using h), hn]

/-! ## The end of a deadline event (R8, R13) -/

/-- A deadline of the list of deadlines is one of R9. -/
theorem mem_deadlines (s : State) (c : ChanNo) (b : Beat) : b ∈ s.deadlines c ↔ s.IsDeadline c b := by
  simp only [deadlines, IsDeadline, emitTimeStands, emitTimeOf, List.mem_append, List.mem_map, Bool.or_eq_true,
    Bool.and_eq_true, beq_iff_eq, or_assoc]
  refine or_congr ?_ (or_congr ?_ ⟨fun ⟨e, he, h⟩ => ⟨e, he, h.symm⟩, fun ⟨e, he, h⟩ => ⟨e, he, h.symm⟩⟩)
  · split <;> simp_all
  · split <;> simp_all

/-- A reached deadline is a deadline at the beat the channel stands at. -/
theorem isDeadline_of_reached {s : State} {c : ChanNo} (h : s.deadlineReached c = true) :
    s.IsDeadline c (s.context c).currentBeat := by
  simp only [deadlineReached, emitTimeReached, withdrawalReached, expiryReached, emitTimeStands, emitTimeOf,
    Bool.or_eq_true, Bool.and_eq_true, beq_iff_eq, List.any_eq_true] at h
  obtain (⟨h1, h2⟩ | ⟨⟨-, h1⟩, h2⟩) | ⟨-, e, he, h2⟩ := h
  · exact .inl ⟨h1, h2⟩
  · exact .inr (.inl ⟨h1, h2⟩)
  · exact .inr (.inr ⟨e, he, h2.symm⟩)

theorem foldl_min_spec (cur : Beat) : ∀ (q : List Beat) (m : Nat),
    (∀ b ∈ q, q.foldl (fun m d => min m (d - cur).toNat) m ≤ (b - cur).toNat) ∧
    q.foldl (fun m d => min m (d - cur).toNat) m ≤ m ∧
    (q.foldl (fun m d => min m (d - cur).toNat) m < m →
      ∃ b ∈ q, q.foldl (fun m d => min m (d - cur).toNat) m = (b - cur).toNat) := by
  intro q
  induction q with
  | nil => simp
  | cons d r ih =>
    intro m
    obtain ⟨h1, h2, h3⟩ := ih (min m (d - cur).toNat)
    rw [List.foldl_cons]
    refine ⟨List.forall_mem_cons.2 ⟨h2.trans (Nat.min_le_right _ _), h1⟩, h2.trans (Nat.min_le_left _ _), fun h => ?_⟩
    obtain hlt | heq := h2.lt_or_eq
    · obtain ⟨b, hb, e⟩ := h3 hlt
      exact ⟨b, List.mem_cons_of_mem _ hb, e⟩
    · rw [heq] at h ⊢
      exact ⟨d, List.mem_cons_self, min_eq_right (min_lt_iff.1 h |>.resolve_left (lt_irrefl m)).le⟩

/-- A channel goes on with its beats as far as its next deadline (R8). -/
theorem runBeats_goesOn (s : State) (c : ChanNo) :
    ∃ n, n ≤ (s.context c).beatsToReach ∧
      (s.runBeats c).context c =
        { s.context c with
          currentBeat := (s.context c).currentBeat + beats32 n, beatsToReach := (s.context c).beatsToReach - n } ∧
      (∀ b, s.IsDeadline c b → n ≤ (b - (s.context c).currentBeat).toNat) ∧
      (n < (s.context c).beatsToReach → s.IsDeadline c ((s.context c).currentBeat + beats32 n)) := by
  have zero : (s.context c).currentBeat + beats32 0 = (s.context c).currentBeat := by simp [beats32]
  by_cases h : s.deadlineReached c = true
  · exact ⟨0, Nat.zero_le _, by simp [runBeats, h, zero], by simp, fun _ => by rw [zero]; exact isDeadline_of_reached h⟩
  · obtain ⟨near, le, hit⟩ := foldl_min_spec (s.context c).currentBeat (s.deadlines c) (s.context c).beatsToReach
    refine ⟨s.beatsToDeadline c (s.context c).beatsToReach, le, by simp [runBeats, h], fun b hb => ?_, fun hlt => ?_⟩
    · exact near b ((mem_deadlines s c b).2 hb)
    · obtain ⟨b, hb, e⟩ := hit hlt
      have eb : (s.context c).currentBeat + beats32 (s.beatsToDeadline c (s.context c).beatsToReach) = b := by
        unfold beatsToDeadline
        rw [e, beats32, BitVec.ofNat_toNat, BitVec.setWidth_eq]
        bv_omega
      rw [eb]
      exact (mem_deadlines s c b).1 hb

/-- Beats reached move nothing that a deadline is read from. -/
theorem isDeadline_runBeats (s : State) (c : ChanNo) (b : Beat) : (s.runBeats c).IsDeadline c b ↔ s.IsDeadline c b := by
  unfold runBeats
  split
  · rfl
  · simp [IsDeadline, awaits, params]

/-- The test of R13, and then the beats (R8), leave what StopsOrGoesOn says. -/
theorem testStop_runBeats (s : State) (c : ChanNo) : s.StopsOrGoesOn ((s.testStop c).runBeats c) c := by
  obtain ⟨n, le, here, near, hit⟩ := runBeats_goesOn (s.testStop c) c
  have kept : ∀ u : State, (u.runBeats c).awaits c = u.awaits c ∧ (u.runBeats c).expectQueue c = u.expectQueue c ∧
      (u.runBeats c).notices = u.notices ∧ ∀ d, d ≠ c → (u.runBeats c).context d = u.context d := by
    intro u
    unfold runBeats
    split
    · simp
    · refine ⟨by simp [awaits], by simp, by simp, fun d h => by simp [context_putContext_ne _ h]⟩
  obtain ⟨kept1, kept2, kept3, kept4⟩ := kept (s.testStop c)
  have stops : s.stopsNow c = true ↔
      (s.context c).state = .draining ∧ (s.context c).drainMark = .afterFinalSwap ∧ s.awaits c = false ∧
        s.expectQueue c = [] := by
    simp [stopsNow, and_assoc]
  obtain ⟨no, e⟩ | ⟨yes, e⟩ := testStop_cases s c
  · rw [e] at here near hit le kept1 kept2 kept3 kept4 ⊢
    refine ⟨fun h => ?_, fun _ => ⟨by simp [notice, kept3], n, le, here, fun b hb => ?_, fun h => ?_⟩, kept4⟩
    · rw [kept1, kept2, ← stops, no] at h
      cases h
    · exact near b ((isDeadline_runBeats s c b).1 hb)
    · exact (isDeadline_runBeats s c _).2 (hit h)
  · rw [e] at here near hit le kept1 kept2 kept3 kept4 ⊢
    have k1 : ((s.putContext c (stopContext (s.context c))).raise (.channelStopped c .orderly)).awaits c = s.awaits c := by
      simp [awaits]
    refine ⟨fun _ => ⟨?_, ?_⟩, fun h => ?_, fun d hd => ?_⟩
    · have z : n = 0 := by simpa [stopContext] using le
      subst z
      simpa [stopContext, beats32] using here
    · have r : s.Raised ((s.putContext c (stopContext (s.context c))).raise (.channelStopped c .orderly))
          (.channelStopped c .orderly) := raised_raise _ (by simp) (by simp)
      unfold Raised notice at r ⊢
      rw [kept3]
      exact r
    · refine absurd ?_ h
      rw [kept1, kept2, k1]
      simpa using stops.1 yes
    · rw [kept4 d hd]
      simp [context_putContext_ne _ hd]

/-- The end of a deadline event writes the channel and, where it stops, its notice; nothing else. -/
theorem testStop_runBeats_frame (s : State) (c : ChanNo) :
    (s.testStop c).runBeats c =
      { s with
        channels := ((s.testStop c).runBeats c).channels, notices := ((s.testStop c).runBeats c).notices } ∧
    ∀ k, k ≠ .channelStopped → ((s.testStop c).runBeats c).notice k = s.notice k := by
  have run : ∀ u : State, u.runBeats c = { u with channels := (u.runBeats c).channels } := by
    intro u
    obtain ⟨-, e⟩ | ⟨n, -, -, e⟩ := runBeats_cases u c <;> rw [e]
    rfl
  obtain ⟨-, e⟩ | ⟨-, e⟩ := testStop_cases s c
  · rw [e, run s]
    exact ⟨rfl, fun _ _ => rfl⟩
  · rw [e, run]
    exact ⟨rfl, fun k hk => notice_raise_ne _ _ hk⟩

/-! ## Tally reports (R99, R100) -/

theorem vput_vput {α : Type} {n : Nat} (v : Vector α n) (i : Fin n) (x y : α) : vput (vput v i x) i y = vput v i y :=
  vector_ext (fun j => by simp only [vget_vput]; split <;> rfl)

theorem laterSequence_iff (a b : PlanSeq) :
    laterSequence a b = true ↔ 1 ≤ (a - b).toNat ∧ (a - b).toNat ≤ 32767 := by
  simp only [laterSequence, Bool.and_eq_true, decide_eq_true_eq]

/-- A later tally replaces the one that stands (R100). -/
theorem latestAfter_some (l : LatestTally) (z : OpenTally) :
    latestAfter (some l) z = some (if laterSequence z.planSequence l.planSequence then z.finalized else l) := by
  simp only [latestAfter, laterSequence_iff]
  split <;> rfl

theorem tallyCounts_some (l : LatestTally) (z : OpenTally) (k : ChannelCounter) :
    TallyCounts (some l) z k ↔
      if laterSequence z.planSequence l.planSequence then
        k = .talliesFinalized ∨ (k = .tallySuperseded ∧ l.used = false)
      else k = .tallyStale := by
  simp only [TallyCounts, laterSequence_iff]

/-- The finalized tally offered to LATEST TALLY: what it then holds, and what counts (R100). -/
theorem offerTally_offers (s : State) (c : ChanNo) (z : OpenTally) :
    (s.offerTally c z).contention =
      (s.putContention c { s.contentionOf c with latest := latestAfter (s.contentionOf c).latest z }).contention ∧
    ∀ d j,
      (d = c ∧ TallyCounts (s.contentionOf c).latest z j → (s.offerTally c z).counter d j = saturate (s.counter d j) 1) ∧
      (¬ (d = c ∧ TallyCounts (s.contentionOf c).latest z j) → (s.offerTally c z).counter d j = s.counter d j) := by
  unfold offerTally
  cases hl : (s.contentionOf c).latest with
  | none =>
    refine ⟨rfl, fun d j => ⟨?_, fun h => ?_⟩⟩
    · rintro ⟨rfl, h⟩
      cases (show j = .talliesFinalized from h)
      simp [counter_count]
    · have h' : ¬ (d = c ∧ j = .talliesFinalized) := h
      simp [counter_count, h']
  | some l =>
    simp only [tallyCounts_some, latestAfter_some]
    by_cases h : laterSequence z.planSequence l.planSequence = true
    · refine ⟨?_, fun d j => ⟨?_, fun k => ?_⟩⟩
      · cases hu : l.used <;> simp [h]
      · rintro ⟨rfl, k⟩
        cases hu : l.used <;> simp [h, hu] at k <;> rcases k with rfl | rfl <;> simp [h, counter_count]
      · by_cases e : d = c
        · cases hu : l.used <;> simp [h, hu, e] at k <;> simp [h, counter_count, e, k]
        · cases hu : l.used <;> simp [h, counter_count, e]
    · refine ⟨?_, fun d j => ⟨?_, fun k => ?_⟩⟩
      · simp only [h, Bool.false_eq_true, if_false, ← hl]
        exact (vput_vget s.contention c).symm
      · rintro ⟨rfl, k⟩
        simp only [h, Bool.false_eq_true, if_false] at k
        subst k
        simp [h, counter_count]
      · simp only [h, Bool.false_eq_true, if_false] at k
        simp [h, counter_count, k]

/-- The first entry of a list that meets `g`: it is found, it is the one erased, and it is the one replaced. -/
theorem first_of_list {α : Type} (g : α → Bool) (h : α → α) {x : α} (hx : g x = true) (q : List α) :
    ∀ l : List α, (∀ y ∈ l, g y = false) →
      (l ++ x :: q).find? g = some x ∧ (l ++ x :: q).eraseP g = l ++ q ∧
        replaceFirst g h (l ++ x :: q) = l ++ h x :: q := by
  intro l
  induction l with
  | nil => simp [hx, replaceFirst]
  | cons y r ih =>
    intro hl
    have hy := hl y List.mem_cons_self
    obtain ⟨h1, h2, h3⟩ := ih (fun z hz => hl z (List.mem_cons_of_mem _ hz))
    simp [hy, h1, h2, h3, replaceFirst]

/-- A tally offered counts none but its own three counters (R100). -/
theorem tallyCounts_own {y : Option LatestTally} {z : OpenTally} {k : ChannelCounter} (h : TallyCounts y z k) :
    k = .talliesFinalized ∨ k = .tallySuperseded ∨ k = .tallyStale := by
  cases y with
  | none => exact .inl h
  | some l =>
    rw [tallyCounts_some] at h
    split at h
    · exact h.imp_right (fun k => .inl k.1)
    · exact .inr (.inr h)

/-- The openings of a report, counted (R99). -/
theorem openings_counted (s : State) (c : ChanNo) (e w k : Nat) (d : ChanNo) (j : ChannelCounter) :
    (((s.count c .openingsEmpty e).count c .openingsSuccess w).count c .openingsCollided k).counter d j =
      if d = c ∧ j = .openingsCollided then saturate (s.counter c j) k
      else if d = c ∧ j = .openingsSuccess then saturate (s.counter c j) w
      else if d = c ∧ j = .openingsEmpty then saturate (s.counter c j) e
      else s.counter d j := by
  simp only [counter_count]
  split
  · next h => simp [h.2]
  split
  · next h => simp [h.2]
  split
  · next h => simp [h.2]
  · rfl

/-- A tally report (R99). -/
theorem reportTally_reports (s : State) (c : ChanNo) (p : PlanSeq) (e w k : Nat) :
    s.TallyReported (s.reportTally c p e w k) c p e w k := by
  have hu := openings_counted s c e w k
  have hc : (((s.count c .openingsEmpty e).count c .openingsSuccess w).count c .openingsCollided k).contention =
    s.contention := rfl
  unfold reportTally
  generalize ((s.count c .openingsEmpty e).count c .openingsSuccess w).count c .openingsCollided k = u at hu hc
  have ho : u.contentionOf c = s.contentionOf c := by rw [contentionOf, hc, contentionOf]
  have rest : ∀ d j, ¬ (d = c ∧ (j = .openingsEmpty ∨ j = .openingsSuccess ∨ j = .openingsCollided)) →
      u.counter d j = s.counter d j := by
    intro d j h
    rw [hu, if_neg (fun x => h ⟨x.1, by simp [x.2]⟩), if_neg (fun x => h ⟨x.1, by simp [x.2]⟩),
      if_neg (fun x => h ⟨x.1, by simp [x.2]⟩)]
  have named : u.counter c .openingsEmpty = saturate (s.counter c .openingsEmpty) e ∧
      u.counter c .openingsSuccess = saturate (s.counter c .openingsSuccess) w ∧
      u.counter c .openingsCollided = saturate (s.counter c .openingsCollided) k := by simp [hu]
  have own : ∀ j, j = .talliesFinalized ∨ j = .tallySuperseded ∨ j = .tallyStale → u.counter c j = s.counter c j := by
    rintro j (rfl | rfl | rfl) <;> exact rest c _ (by simp)
  have unowned : ∀ d j, ¬ (d = c ∧ (j = .openingsEmpty ∨ j = .openingsSuccess ∨ j = .openingsCollided ∨
      j = .talliesFinalized ∨ j = .tallySuperseded ∨ j = .tallyStale)) → u.counter d j = s.counter d j :=
    fun d j h => rest d j (fun x => h ⟨x.1, by rcases x.2 with x | x | x <;> simp [x]⟩)
  simp only [ho]
  cases hf : (s.contentionOf c).openTallies.find? (fun t => t.planSequence == p) with
  | none =>
    have nobody : ∀ y ∈ (s.contentionOf c).openTallies, y.planSequence ≠ p := by simpa using List.find?_eq_none.1 hf
    refine ⟨named.1, named.2.1, named.2.2, fun l q x z hs hx => ?_,
      fun _ => ⟨hc, own _ (by simp), own _ (by simp), own _ (by simp)⟩, unowned⟩
    exact absurd hx (nobody x (by simp [hs]))
  | some y =>
    have somebody : ¬ ∀ y ∈ (s.contentionOf c).openTallies, y.planSequence ≠ p := fun h =>
      h y (List.mem_of_find?_eq_some hf) (by simpa using List.find?_some hf)
    have found : ∀ (l q : List OpenTally) (x z : OpenTally), (s.contentionOf c).openTallies = l ++ x :: q →
        x.planSequence = p → (∀ y ∈ l, y.planSequence ≠ p) → x = y ∧
        (s.contentionOf c).openTallies.eraseP (fun x => x.planSequence == p) = l ++ q ∧
        replaceFirst (fun x => x.planSequence == p) (fun x => reported x e w k) (s.contentionOf c).openTallies =
          l ++ reported x e w k :: q := by
      intro l q x z hs hx hl
      obtain ⟨f1, f2⟩ := first_of_list (fun x : OpenTally => x.planSequence == p) (fun x => reported x e w k) (x := x)
        (by simpa using hx) q l (by simpa using hl)
      rw [← hs] at f1 f2
      exact ⟨Option.some.inj (f1.symm.trans hf), f2⟩
    dsimp only
    split
    · next hz =>
      obtain ⟨o1, o2⟩ := offerTally_offers
        (u.putContention c
          { s.contentionOf c with
            openTallies := (s.contentionOf c).openTallies.eraseP (fun u => u.planSequence == p) })
        c (reported y e w k)
      simp only [contentionOf_putContention_same] at o1 o2
      have o3 : ∀ d j, ¬ (d = c ∧ (j = .talliesFinalized ∨ j = .tallySuperseded ∨ j = .tallyStale)) →
          _ = u.counter d j := fun d j h => (o2 d j).2 (fun x => h ⟨x.1, tallyCounts_own x.2⟩)
      refine ⟨(o3 c _ (by simp)).trans named.1, (o3 c _ (by simp)).trans named.2.1, (o3 c _ (by simp)).trans named.2.2,
        fun l q x z hs hx hl hz' => ?_, fun h => absurd h somebody, fun d j h => ?_⟩
      · obtain ⟨rfl, f2, -⟩ := found l q x z hs hx hl
        obtain rfl : z = reported x e w k := hz'
        refine ⟨fun h => ?_, fun _ => ⟨?_, fun j hj => ?_⟩⟩
        · simp only [reported] at hz
          omega
        · rw [o1, f2]
          simp only [putContention, hc, vput_vput]
        · have h1 := o2 c j
          have h2 : (u.putContention c
              { s.contentionOf c with
                openTallies := (s.contentionOf c).openTallies.eraseP (fun u => u.planSequence == p) }).counter c j =
              s.counter c j := own j hj
          rw [h2] at h1
          exact ⟨fun x => h1.1 ⟨rfl, x⟩, fun x => h1.2 (fun y => x y.2)⟩
      · exact (o3 d j (fun x => h ⟨x.1, by rcases x.2 with x | x | x <;> simp [x]⟩)).trans (unowned d j h)
    · next hz =>
      refine ⟨named.1, named.2.1, named.2.2, fun l q x z hs hx hl hz' => ?_, fun h => absurd h somebody, unowned⟩
      obtain ⟨rfl, -, f3⟩ := found l q x z hs hx hl
      obtain rfl : z = reported x e w k := hz'
      refine ⟨fun _ => ⟨?_, own _ (by simp), own _ (by simp), own _ (by simp)⟩, fun h => ?_⟩
      · rw [f3]
        simp only [putContention, hc]
      · simp only [reported] at hz
        omega

/-- Only the tallies and the counters differ between `s` and `t`. -/
def TallyFrame (s t : State) : Prop := t = { s with contention := t.contention, channelCounters := t.channelCounters }

theorem tallyFrame_count {s t : State} (h : s.TallyFrame t) (c : ChanNo) (j : ChannelCounter) (n : Nat) :
    s.TallyFrame (t.count c j n) := by
  unfold TallyFrame at h
  rw [h]
  rfl

theorem tallyFrame_putContention {s t : State} (h : s.TallyFrame t) (c : ChanNo) (x : Contention) :
    s.TallyFrame (t.putContention c x) := by
  unfold TallyFrame at h
  rw [h]
  rfl

theorem tallyFrame_offerTally {s t : State} (h : s.TallyFrame t) (c : ChanNo) (z : OpenTally) :
    s.TallyFrame (t.offerTally c z) := by
  unfold offerTally
  split
  · exact tallyFrame_count (tallyFrame_putContention h _ _) _ _ _
  split
  · split
    · exact tallyFrame_count (tallyFrame_putContention h _ _) _ _ _
    · exact tallyFrame_count (tallyFrame_count (tallyFrame_putContention h _ _) _ _ _) _ _ _
  · exact tallyFrame_count h _ _ _

/-- A tally report leaves everything alone but the tallies and the counters (R99). -/
theorem tallyFrame_reportTally (s : State) (c : ChanNo) (p : PlanSeq) (e w k : Nat) :
    s.TallyFrame (s.reportTally c p e w k) := by
  have h : s.TallyFrame (((s.count c .openingsEmpty e).count c .openingsSuccess w).count c .openingsCollided k) :=
    tallyFrame_count (tallyFrame_count (tallyFrame_count (show s.TallyFrame s from rfl) _ _ _) _ _ _) _ _ _
  unfold reportTally
  dsimp only
  split
  · exact h
  split
  · exact tallyFrame_offerTally (tallyFrame_putContention h _ _) _ _
  · exact tallyFrame_putContention h _ _

/-! ## A station that enters ONLINE (R28, R86) -/

/-- Ordered insertion puts the entry ahead of the first it goes ahead of. -/
theorem insertBy_split {α : Type} (g : α → α → Bool) (x : α) : ∀ q : List α,
    ∃ l r, q = l ++ r ∧ insertBy g x q = l ++ x :: r ∧ (∀ y ∈ l, g x y = false) ∧ ∀ y, r.head? = some y → g x y = true
  | [] => ⟨[], [], rfl, rfl, by simp, by simp⟩
  | y :: q => by
    cases h : g x y with
    | true => exact ⟨[], y :: q, rfl, by simp [insertBy, h], by simp, by simpa using h⟩
    | false =>
      obtain ⟨l, r, e, e', hl, hr⟩ := insertBy_split g x q
      exact ⟨y :: l, r, by simp [e], by simp [insertBy, h, e'], by simpa [h] using hl, hr⟩

/-- A flow of a station that is ONLINE on channel `c`, as the station enters ONLINE, is taken as FlowEnters says. -/
theorem onlineFlow_enters {s : State} {n : StationNo} {c : ChanNo} {g : FlowNo} (hf : (s.flow g).station = some n)
    (hs : (s.station n).state = .online) (hc : (s.station n).channel = c) : s.FlowEnters n c g (s.onlineFlow n c g) := by
  refine ⟨fun h => ?_, fun h k => ?_, fun h k => ⟨fun full => ?_, fun room => ⟨fun here => ?_, fun h1 h2 => ?_⟩⟩⟩
  · unfold onlineFlow
    split <;> simp_all
  · have meets : (s.meetsEnlistment g && (s.flow g).listLevel.isNone) =
        decide (0 < (s.flow g).backlog ∧ (s.flow g).listLevel = none) := by
      rw [Bool.eq_iff_iff]
      simp [meetsEnlistment, flowOnline, h, k, hf, hs]
    simp only [onlineFlow, h, k, enlist, meets, hf, hc, decide_eq_true_eq]
    rfl
  · simp [onlineFlow, h, k, calendarFull, Config.maxCalendar, full]
  · simp only [onlineFlow, h, k, calendarFull, Config.maxCalendar, Nat.not_le.2 room, decide_false, Bool.false_eq_true, if_false, joinCalendar]
    simp [inCalendar, here]
  · obtain ⟨l, r, e, e', hl, hr⟩ := insertBy_split (fun a b : FlowNo => decide (a < b)) g (s.calendar c).waiting
    refine ⟨l, r, e, by simpa using hl, by simpa using hr, ?_⟩
    have out : s.inCalendar c g = false := by simp [inCalendar, h1, h2]
    simp only [onlineFlow, h, k, calendarFull, Config.maxCalendar, Nat.not_le.2 room, decide_false, Bool.false_eq_true, if_false, joinCalendar, out, e']

/-- The entry of a flow keeps what the entry of the next is read from. -/
theorem onlineFlow_keeps (s : State) (n : StationNo) (c : ChanNo) (g : FlowNo) :
    (∀ m, (s.onlineFlow n c g).station m = s.station m) ∧
    ∀ f, ((s.onlineFlow n c g).flow f).station = (s.flow f).station := by
  unfold onlineFlow
  split
  · obtain ⟨-, e⟩ | ⟨k, -, -, -, e⟩ := enlist_cases s g <;> rw [e]
    · simp
    · refine ⟨by simp, fun f => ?_⟩
      rw [flow_putFlow]
      split
      · next h => rw [h]
      · simp
  · split
    · simp
    · unfold joinCalendar
      split <;> simp
  · simp

/-- The flows of a station that is ONLINE enter one after another (R28). -/
theorem flowsEnter_foldl (n : StationNo) (c : ChanNo) : ∀ (q : List FlowNo) (s : State),
    (∀ g ∈ q, (s.flow g).station = some n) → (s.station n).state = .online → (s.station n).channel = c →
    FlowsEnter n c s q (q.foldl (fun t g => t.onlineFlow n c g) s)
  | [], _, _, _, _ => rfl
  | g :: q, s, hq, hs, hc => by
    obtain ⟨k1, k2⟩ := onlineFlow_keeps s n c g
    refine ⟨s.onlineFlow n c g, onlineFlow_enters (hq g List.mem_cons_self) hs hc, ?_⟩
    exact flowsEnter_foldl n c q _ (fun f hf => (k2 f).trans (hq f (List.mem_cons_of_mem g hf))) (by rw [k1]; exact hs)
      (by rw [k1]; exact hc)

/-! ## The requests an idle engine takes (R62) -/

/-- An idle engine takes its requests as BUILD_BEGIN begins each. -/
theorem takeRequests_begun : ∀ (m : Nat) (s : State), ∃ k, k ≤ m ∧ s.BuildsBegun k (takeRequests m s) ∧
    (k < m → (takeRequests m s).engine ≠ none ∨ (takeRequests m s).buildQueue = [])
  | 0, s => ⟨0, le_refl 0, rfl, by simp⟩
  | m + 1, s => by
    by_cases h : s.engine = none ∧ s.buildQueue ≠ []
    · obtain ⟨k, hk, hb, he⟩ := takeRequests_begun m s.takeRequest
      have e : takeRequests (m + 1) s = takeRequests m s.takeRequest := by simp [takeRequests, h.1, h.2]
      rw [e]
      exact ⟨k + 1, Nat.succ_le_succ hk, ⟨h.1, h.2, s.takeRequest, rfl, hb⟩, fun hlt => he (Nat.lt_of_succ_lt_succ hlt)⟩
    · have e : takeRequests (m + 1) s = s := by
        simp only [not_and_or, not_not] at h
        obtain h | h := h
        · cases he : s.engine <;> simp_all [takeRequests]
        · simp [takeRequests, h]
      rw [e]
      exact ⟨0, Nat.zero_le _, rfl, fun _ => by tauto⟩

/-! ## The charges of a withdrawn plan (R131) -/

/-- Every charged DATA element of a plan is restored or forfeited. -/
theorem restoreElement_counts (c : ChanNo) (q : List Element) (r : Restoration) :
    (q.foldl (restoreElement c) r).restored + (q.foldl (restoreElement c) r).forfeited =
      r.restored + r.forfeited +
        (q.filter (fun e =>
          match e.body with
          | .data _ _ (some _) => true
          | _ => false)).length := by
  induction q generalizing r with
  | nil => simp
  | cons e q ih =>
    rw [List.foldl_cons, ih]
    unfold restoreElement
    rcases he : e.body with ⟨n, f, _ | k⟩ | _ | _ | _ | _ | _ | _ <;> simp [he]
    split <;> simp <;> omega

/-- Only flows, active lists and counters differ between `s` and `t`. -/
def ChargeFrame (s t : State) : Prop :=
  t = { s with flows := t.flows, activeLists := t.activeLists, channelCounters := t.channelCounters }

theorem chargeFrame_restoreElement {s : State} (c : ChanNo) {r : Restoration} (h : s.ChargeFrame r.state) (e : Element) :
    s.ChargeFrame (restoreElement c r e).state := by
  have count : ∀ (u : State) (k : ChannelCounter) (n : Nat), s.ChargeFrame u → s.ChargeFrame (u.count c k n) := by
    intro u k n hu
    unfold ChargeFrame at hu
    rw [hu]
    rfl
  have put : ∀ (u : State) (f : FlowNo) (x : Flow), s.ChargeFrame u → s.ChargeFrame (u.putFlow f x) := by
    intro u f x hu
    unfold ChargeFrame at hu
    rw [hu]
    rfl
  have list : ∀ (u : State) (d : ChanNo) (l : Level) (q : List FlowNo), s.ChargeFrame u →
      s.ChargeFrame (u.putActive d l q) := by
    intro u d l q hu
    unfold ChargeFrame at hu
    rw [hu]
    rfl
  unfold restoreElement
  split
  · split
    · next f k _ _ =>
      unfold restoreCharge
      obtain ⟨-, e⟩ | ⟨m, -, -, -, e⟩ := enlist_cases
        ((r.state.putFlow f ((r.state.flow f).restored k)).count c .chargesRestored 1) f
      · rw [e]
        exact count _ _ _ (put _ _ _ h)
      · rw [e]
        exact put _ _ _ (list _ _ _ _ (count _ _ _ (put _ _ _ h)))
    · exact count _ _ _ h
  · exact h

theorem risen_succ (v k : Nat) : saturate (risen v k) 1 = risen v (k + 1) := by
  unfold risen saturate Config.maxCounter
  split
  · simp_all
  · simp_all
    omega

/-- Each charge counts as it is restored or forfeited, and nothing else does (R131). -/
theorem counter_restoreElement (c : ChanNo) (r : Restoration) (e : Element) (v w : Nat)
    (hv : r.state.counter c .chargesRestored = risen v r.restored)
    (hw : r.state.counter c .chargesForfeited = risen w r.forfeited) :
    (restoreElement c r e).state.counter c .chargesRestored = risen v (restoreElement c r e).restored ∧
    (restoreElement c r e).state.counter c .chargesForfeited = risen w (restoreElement c r e).forfeited ∧
    ∀ d j, ¬ (d = c ∧ (j = .chargesRestored ∨ j = .chargesForfeited)) →
      (restoreElement c r e).state.counter d j = r.state.counter d j := by
  unfold restoreElement
  split
  · split
    · next f k _ _ =>
      have e : ∀ d j, (r.state.restoreCharge c f k).counter d j =
          if d = c ∧ j = .chargesRestored then saturate (r.state.counter c .chargesRestored) 1
          else r.state.counter d j := by
        intro d j
        unfold restoreCharge
        obtain ⟨-, e⟩ | ⟨m, -, -, -, e⟩ := enlist_cases
          ((r.state.putFlow f ((r.state.flow f).restored k)).count c .chargesRestored 1) f <;>
          rw [e] <;> simp [counter_count]
      dsimp only
      refine ⟨by simp [e, hv, risen_succ], by simp [e, hw], fun d j h => ?_⟩
      rw [e, if_neg (fun x => h ⟨x.1, .inl x.2⟩)]
    · dsimp only
      refine ⟨by simp [counter_count, hv], by simp [counter_count, hw, risen_succ], fun d j h => ?_⟩
      rw [counter_count, if_neg (fun x => h ⟨x.1, .inr x.2⟩)]
  · exact ⟨hv, hw, fun _ _ _ => rfl⟩

/-- The charges of a plan restored or forfeited, one after another: what counts, and what is left alone (R131). -/
theorem restoreCharges_leaves (s : State) (c : ChanNo) (q : List Element) :
    s.ChargeFrame (s.restoreCharges c q).state ∧
    (s.restoreCharges c q).state.counter c .chargesRestored =
      risen (s.counter c .chargesRestored) (s.restoreCharges c q).restored ∧
    (s.restoreCharges c q).state.counter c .chargesForfeited =
      risen (s.counter c .chargesForfeited) (s.restoreCharges c q).forfeited ∧
    ∀ d j, ¬ (d = c ∧ (j = .chargesRestored ∨ j = .chargesForfeited)) →
      (s.restoreCharges c q).state.counter d j = s.counter d j := by
  have step : ∀ (q : List Element) (r : Restoration), s.ChargeFrame r.state →
      r.state.counter c .chargesRestored = risen (s.counter c .chargesRestored) r.restored →
      r.state.counter c .chargesForfeited = risen (s.counter c .chargesForfeited) r.forfeited →
      (∀ d j, ¬ (d = c ∧ (j = .chargesRestored ∨ j = .chargesForfeited)) → r.state.counter d j = s.counter d j) →
      s.ChargeFrame (q.foldl (restoreElement c) r).state ∧
      (q.foldl (restoreElement c) r).state.counter c .chargesRestored =
        risen (s.counter c .chargesRestored) (q.foldl (restoreElement c) r).restored ∧
      (q.foldl (restoreElement c) r).state.counter c .chargesForfeited =
        risen (s.counter c .chargesForfeited) (q.foldl (restoreElement c) r).forfeited ∧
      ∀ d j, ¬ (d = c ∧ (j = .chargesRestored ∨ j = .chargesForfeited)) →
        (q.foldl (restoreElement c) r).state.counter d j = s.counter d j := by
    refine fun q => q.rec (fun _ frame rose fell others => ⟨frame, rose, fell, others⟩) ?_
    intro e _ later r frame rose fell others
    obtain ⟨rose', fell', others'⟩ := counter_restoreElement c r e _ _ rose fell
    exact later _ (chargeFrame_restoreElement c frame e) rose' fell'
      (fun d j h => (others' d j h).trans (others d j h))
  exact step q ⟨s, 0, 0⟩ rfl rfl rfl (fun _ _ _ => rfl)

end State

end Sys2Proof.Machine
end

