-- ==== Sys2Proof/Laws/Formats.lean ====
section
/-! SUPPORT. The bytes of the outbound frames are their fields, in their sizes, within the envelope (sections 11.1, 11.3 and
11.4). -/

namespace Sys2Proof.Machine

namespace State

theorem fieldBytes_nil : fieldBytes [] = [] := rfl

theorem fieldBytes_cons (x : Nat × Nat) (q : List (Nat × Nat)) : fieldBytes (x :: q) = be x.1 x.2 ++ fieldBytes q := rfl

theorem fieldBytes_append (p q : List (Nat × Nat)) : fieldBytes (p ++ q) = fieldBytes p ++ fieldBytes q := by
  simp [fieldBytes]

theorem boolCode_bit (b : Bool) : boolCode b = bit b := rfl

theorem beBeat_be (b : Beat) : beBeat b = be 4 b.toNat := rfl

theorem beInt_twos (n : Nat) (v : Int) : beInt n v = be n (twos n v) := rfl

/-- The envelope is the frame of its TYPE. -/
theorem envelope_framed (t : Nat) (b : List Byte) (x : Byte) (h : be 1 t = [x]) : envelope t b = framed x b := by
  simp [envelope, framed, h]

/-- An element in its 9 bytes. -/
theorem elements_fields (q : List Element) :
    q.flatMap Element.bytes =
      fieldBytes (q.flatMap (fun e =>
        match e.body with
        | .data n f _ => [(1, 0), (2, e.offset), (2, e.length), (2, n.val), (2, f.val)]
        | .periodic n f => [(1, 1), (2, e.offset), (2, e.length), (2, n.val), (2, f.val)]
        | .poll n => [(1, 2), (2, e.offset), (2, e.length), (2, n.val), (2, 0)]
        | .join => [(1, 3), (2, e.offset), (2, e.length), (2, 0), (2, 0)]
        | .request k => [(1, 4), (2, e.offset), (2, e.length), (2, k), (2, 0)]
        | .idle => [(1, 5), (2, e.offset), (2, e.length), (2, 0), (2, 0)]
        | .hold n f => [(1, 6), (2, e.offset), (2, e.length), (2, n.val), (2, f.val)])) := by
  simp only [fieldBytes, List.flatMap_assoc]
  congr 1
  funext e
  simp only [Element.bytes]
  cases e.body <;> simp [ElementBody.codes]

/-- The plan frame. -/
theorem planFrame_fields (c : ChanNo) (p : PlanRecord) : planFrame c p = framed 2 (fieldBytes (planFields c p)) := by
  unfold planFrame
  rw [envelope_framed 2 _ 2 (by decide), elements_fields]
  congr 1
  simp only [planFields, fieldBytes_append, fieldBytes_cons, fieldBytes_nil, beBeat_be, List.append_assoc,
    List.append_nil]
  cases p.planSequence <;> cases p.requestMark <;> cases p.cut <;> cases p.fallback <;> cases p.idle <;> rfl

/-- The adjust frame. -/
theorem adjustFrame_fields (a : AdjustEntry) : adjustFrame a = framed 3 (fieldBytes (adjustFields a)) := by
  unfold adjustFrame
  rw [envelope_framed 3 _ 3 (by decide)]
  simp only [adjustFields, fieldBytes_cons, fieldBytes_nil, beInt_twos, boolCode_bit, List.append_assoc,
    List.append_nil]

/-- The upstream data unit frame. -/
theorem forwardFrame_fields (u : ForwardUnit) :
    forwardFrame u = framed 4 (fieldBytes (forwardFields u) ++ u.data) := by
  unfold forwardFrame
  rw [envelope_framed 4 _ 4 (by decide)]
  simp only [forwardFields, fieldBytes_cons, fieldBytes_nil, beBeat_be, List.append_assoc, List.nil_append]
  cases u.flow <;> rfl

/-- The notice frame. -/
theorem noticeFrame_fields (p : PendingNotice) : noticeFrame p = framed 5 (fieldBytes (noticeFields p)) := by
  unfold noticeFrame
  rw [envelope_framed 5 _ 5 (by decide)]
  congr 1
  unfold noticeFields
  cases p.detail <;>
    simp only [fieldBytes_cons, fieldBytes_nil, beBeat_be, beInt_twos, boolCode_bit, List.append_assoc,
      List.append_nil, NoticeDetail.bytes, NoticeDetail.kind, NoticeKind.index]
  all_goals first | rfl | skip
  case e_body.periodicMiss a b c d e => cases a <;> cases e <;> rfl
  case e_body.strayBurst a b c d e => cases c <;> cases d <;> cases e <;> rfl

/-- The response frame. -/
theorem responseFrame_fields (r : Response) :
    responseFrame r = framed 6 (fieldBytes (responseFields r) ++ r.results) := by
  unfold responseFrame
  rw [envelope_framed 6 _ 6 (by decide)]
  have h : [r.operation] = be 1 r.operation.toNat := by simp [be]
  simp only [responseFields, fieldBytes_cons, fieldBytes_nil, h, List.append_assoc, List.nil_append]
  cases r.code <;> rfl

end State

end Sys2Proof.Machine
end

