-- ==== Sys2Proof/Laws/Phases.lean ====
section
/-! SUPPORT. For each function that moves a build on to its next group, stage, level or round, one lemma that says what it
can leave, in the terms of the statements (R68 to R73, R90, R93, R104, R112, R113). -/

namespace Sys2Proof.Machine

namespace BuildContext

/-! ## Stage 3 -/

theorem levelsDown_falls : levelsDown.Pairwise (fun a b => b < a) := by decide

theorem mem_levelsDown : ∀ l : Level, l ∈ levelsDown := by decide

/-- Entering stage 3 changes none of CHANNEL, START, CADENCE SEQUENCE and FREE SPANS. -/
theorem enterVisits_keeps (s : State) (b : BuildContext) (ls : List Level) :
    (b.enterVisits s ls).channel = b.channel ∧ (b.enterVisits s ls).start = b.start ∧
      (b.enterVisits s ls).cadenceSequence = b.cadenceSequence ∧ (b.enterVisits s ls).freeSpans = b.freeSpans := by
  unfold enterVisits startLevel
  split
  · simp
  · split <;> simp

/-- What is found first in a falling list of levels is the highest of those looked for. -/
theorem find_highest {p : Level → Bool} {l : Level} :
    ∀ {ls : List Level}, ls.Pairwise (fun a b => b < a) → ls.find? p = some l →
      l ∈ ls ∧ p l = true ∧ ∀ m ∈ ls, l < m → p m = false
  | k :: ks, ho, hl => by
    rw [List.pairwise_cons] at ho
    cases hk : p k with
    | true =>
      obtain rfl : k = l := by simpa [hk] using hl
      refine ⟨List.mem_cons_self, hk, fun m hm hlt => absurd hlt ?_⟩
      obtain rfl | hm := List.mem_cons.1 hm
      · exact lt_irrefl m
      · exact (ho.1 m hm).asymm
    | false =>
      have ih := find_highest (ls := ks) ho.2 (by simpa [hk] using hl)
      exact ⟨List.mem_cons_of_mem _ ih.1, ih.2.1, List.forall_mem_cons.2 ⟨fun _ => hk, ih.2.2⟩⟩

/-- Stage 3 over the levels `ls`, from the top: the highest that holds a flow is begun, or closing comes next. -/
theorem enterVisits_from (s : State) (b : BuildContext) (ls : List Level) (P : Level → Prop)
    (hm : ∀ l, l ∈ ls ↔ P l) (ho : ls.Pairwise (fun a b => b < a)) : s.VisitsFrom P (b.enterVisits s ls) := by
  by_cases full : b.freeSpans = []
  · simp [enterVisits, full, State.VisitsFrom]
  cases found : ls.find? (fun l => !(s.active b.channel l).isEmpty) with
  | none =>
    have nothing (l : Level) (h : P l) : s.active b.channel l = [] := by
      simpa using List.find?_eq_none.1 found l ((hm l).2 h)
    simp [enterVisits, full, found, State.VisitsFrom]
    exact fun l h hn => absurd (nothing l h) hn
  | some l =>
    obtain ⟨hl, holds, above⟩ := find_highest ho found
    simp only [enterVisits, List.isEmpty_iff, full, if_false, found, startLevel, State.VisitsFrom, false_or]
    constructor
    · intro h
      simp [h l ((hm l).1 hl)] at holds
    · intro k _ hk hne hhigh
      obtain h | rfl | h := lt_trichotomy k l
      · simp [hhigh l ((hm l).1 hl) h] at holds
      · simp
      · exact absurd (by simpa using above k ((hm k).2 hk) h) hne

/-- Stage 3 begins over all the levels (R70). -/
theorem enterVisits_all (s : State) (b : BuildContext) : s.VisitsFrom (fun _ => True) (b.enterVisits s levelsDown) :=
  enterVisits_from s b _ _ (by simp [mem_levelsDown]) levelsDown_falls

/-- Stage 3 goes on over the levels below LEVEL (R70). -/
theorem enterVisits_below (s : State) (b : BuildContext) :
    s.VisitsFrom (fun m => m < b.level) (b.enterVisits s b.levelsBelow) :=
  enterVisits_from s b _ _ (by simp [levelsBelow, mem_levelsDown]) (levelsDown_falls.filter _)

/-- Between two visits (R70, R71). -/
theorem advanceVisits_from (s : State) (b : BuildContext) (h : b.phase = .visits) :
    s.RoundFrom b.level b.roundRemaining b.roundPlaced (b.advanceVisits s) := by
  have below := enterVisits_below s b
  have kept := enterVisits_keeps s b b.levelsBelow
  by_cases full : b.freeSpans = []
  · simp [advanceVisits, State.RoundFrom, full]
  by_cases bare : s.active b.channel b.level = []
  · simp [advanceVisits, State.RoundFrom, full, bare, kept, below]
  by_cases last : b.roundRemaining = 0
  · cases turn : b.roundPlaced <;>
      simp [advanceVisits, State.RoundFrom, startLevel, full, bare, last, turn, kept, below]
  · simp [advanceVisits, State.RoundFrom, full, bare, last, h]

/-! ## Stage 2, and groups 4 to 1 -/

/-- Stage 2 begins with TARGET openings (R69). -/
theorem enterOpenings_from (s : State) (b : BuildContext) : s.TargetFrom (b.enterOpenings s) := by
  have hv := enterVisits_all s b
  have hk := enterVisits_keeps s b levelsDown
  unfold enterOpenings State.TargetFrom State.OpeningsFrom
  split <;> simp_all

@[simp] theorem enterOpenings_channel (s : State) (b : BuildContext) : (b.enterOpenings s).channel = b.channel := by
  unfold enterOpenings
  split <;> simp [enterVisits_keeps]

@[simp] theorem enterSweep_channel (s : State) (b : BuildContext) (q : List StationNo) :
    (b.enterSweep s q).channel = b.channel := by
  unfold enterSweep
  split <;> simp

@[simp] theorem enterPolls_channel (s : State) (b : BuildContext) : (b.enterPolls s).channel = b.channel := by
  unfold enterPolls
  split <;> simp

@[simp] theorem enterJoin_channel (s : State) (b : BuildContext) : (b.enterJoin s).channel = b.channel := by
  unfold enterJoin
  split <;> simp

@[simp] theorem enterExtras_channel (s : State) (b : BuildContext) (q : List FlowNo) :
    (b.enterExtras s q).channel = b.channel := by
  unfold enterExtras
  split <;> simp

@[simp] theorem enterJoin_cadenceSequence (s : State) (b : BuildContext) :
    (b.enterJoin s).cadenceSequence = b.cadenceSequence := by
  unfold enterJoin enterPolls enterSweep enterOpenings
  (repeat' split) <;> simp [enterVisits_keeps]

@[simp] theorem enterExtras_start (s : State) (b : BuildContext) (q : List FlowNo) :
    (b.enterExtras s q).start = b.start := by
  unfold enterExtras enterJoin enterPolls enterSweep enterOpenings
  (repeat' split) <;> simp [enterVisits_keeps]

/-- The sweep begins, or stage 2 does (R113). -/
theorem enterSweep_from (s : State) (b : BuildContext) (q : List StationNo) :
    s.SweepFrom 0 q (b.enterSweep s q) := by
  have stage2 := enterOpenings_from s b
  by_cases room : q.length < (s.params b.channel).pollLimit
  · simp [enterSweep, State.SweepFrom, room]
  · simp [enterSweep, State.SweepFrom, room, stage2]

/-- Group 4 begins (R112). -/
theorem enterPolls_from (s : State) (b : BuildContext) : s.Group4From (b.enterPolls s) := by
  have sweep := enterSweep_from s b []
  by_cases waits : s.pollQueue b.channel = []
  · simp [State.Group4From, State.PollsFrom, enterPolls, waits, sweep]
  by_cases limit : (s.params b.channel).pollLimit = 0
  · simp [State.Group4From, State.PollsFrom, enterPolls, limit, sweep]
  · simp [State.Group4From, State.PollsFrom, enterPolls, waits, limit]

/-- Group 3, or group 4 where the cadence does not select the plan (R104). -/
theorem enterJoin_from (s : State) (b : BuildContext) : s.Group3From (b.enterJoin s) := by
  have hv := enterPolls_from s b
  unfold State.Group3From
  rw [enterJoin_channel, enterJoin_cadenceSequence]
  unfold enterJoin State.joinOffered
  rcases Decidable.em ((s.params b.channel).joinCadence = 0) with h | h <;>
    rcases Decidable.em (b.cadenceSequence.toNat % (s.params b.channel).joinCadence = 0) with k | k <;>
    simp_all

/-- Group 2 over the flows `q`, or group 3 where none of them owes an extra (R93). -/
theorem enterExtras_from (s : State) (b : BuildContext) (q : List FlowNo) :
    s.ExtrasFrom q (b.enterExtras s q) := by
  have hv := enterJoin_from s b
  have hown : ∀ g, s.owesExtra b.channel g = true ↔
      (g ∈ (s.calendar b.channel).timed ∧ 0 < (s.flow g).extrasOwed) := by
    intro g
    simp [State.owesExtra]
  unfold State.ExtrasFrom
  rw [enterExtras_channel]
  simp only [← hown]
  unfold enterExtras
  refine ⟨?_, fun h => ?_⟩
  · rintro l f r rfl hl hf ho
    rw [List.dropWhile_append_of_pos (by simpa using hl)]
    simp [List.dropWhile, (hown f).2 ⟨hf, ho⟩]
  · have e : q.dropWhile (fun f => !s.owesExtra b.channel f) = [] := by simpa using h
    rw [e]
    exact hv

/-- Group 1 goes on, or group 2 begins over the TIMED flows (R90, R93). -/
theorem enterWalk_from (s : State) (b : BuildContext) : s.WalkFrom (b.enterWalk s) := by
  have hv := enterExtras_from s b (s.calendar b.channel).timed
  unfold State.WalkFrom enterWalk
  rcases hw : s.walkHead b with _ | f
  · simp only [enterExtras_channel, enterExtras_start]
    refine ⟨fun f r n h1 h2 h3 => ?_, fun _ => hv⟩
    simp [State.walkHead, State.nominalOffset, h1, h2] at hw
    bv_omega
  · refine ⟨by simp, fun h => ?_⟩
    unfold State.walkHead State.nominalOffset at hw
    rcases ht : (s.calendar b.channel).timed with _ | ⟨g, r⟩
    · simp [ht] at hw
    rcases hn : (s.flow g).nextNominal with _ | n
    · simp [ht, hn] at hw
    · have hl := h g r n ht hn
      simp only [ht, hn, Option.map] at hw
      split at hw
      · next hlt => exact absurd hlt (Nat.not_lt.2 hl)
      · simp at hw

end BuildContext

/-- Outside the reading for holds, a build moved on is still under way, in its context moved on. -/
theorem State.advanceBuild_moves {s : State} {b : BuildContext} (h : s.engine = some b)
    (hp : ∀ l i, (b.advance s).phase ≠ .holds l i) : s.advanceBuild = s.putEngine (some (b.advance s)) := by
  have e : s.holdsOver (b.advance s) = false := by
    unfold State.holdsOver
    split
    · next l i hl => exact absurd hl (hp l i)
    · rfl
  simp only [State.advanceBuild, h, e, Bool.false_eq_true, if_false]

end Sys2Proof.Machine
end

