-- ==== Sys2Proof/Laws/Offline.lean ====
section
/-! SUPPORT. Flows that leave the lists by an event outside the build: what it leaves, and what the build under way sees of
it (R27, R70, R78). -/

namespace Sys2Proof.Machine

namespace State

/-- The engine as the leaving of flows alone leaves it: the build is as it was, but that a reading for holds may have moved
back among the flows that remain. -/
def PlaceKept (e e' : Option BuildContext) : Prop :=
  (e = none → e' = none) ∧
  ∀ b, e = some b →
    ((∀ l i, b.phase ≠ .holds l i) → e' = some b) ∧
    ∀ l i, b.phase = .holds l i → ∃ j ≤ i, e' = some { b with phase := .holds l j }

theorem placeKept_refl (engine : Option BuildContext) : PlaceKept engine engine := by
  refine ⟨id, fun b building => ⟨fun _ => building, fun l place reading => ⟨place, le_rfl, ?_⟩⟩⟩
  rw [building, ← reading]

theorem placeKept_trans {first mid last : Option BuildContext} (before : PlaceKept first mid)
    (after : PlaceKept mid last) : PlaceKept first last := by
  refine ⟨after.1 ∘ before.1, fun b building => ?_⟩
  obtain ⟨stays, moves⟩ := before.2 b building
  refine ⟨fun other => (after.2 b (stays other)).1 other, fun l i reading => ?_⟩
  obtain ⟨j, hj, now⟩ := moves l i reading
  obtain ⟨m, hm, then'⟩ := (after.2 _ now).2 l j rfl
  exact ⟨m, hm.trans hj, then'⟩

/-- One flow's leaving keeps the place of a reading (R75). -/
theorem placeKept_delist (s : State) (c : ChanNo) (f : FlowNo) : PlaceKept s.engine (s.delist c f).engine := by
  unfold delist
  split
  · exact placeKept_refl _
  rename_i l _
  refine ⟨fun h => by simp [h], fun b hb => ⟨fun hp => ?_, fun m i hp => ?_⟩⟩
  · simp only [putEngine_engine, putFlow_engine, putActive_engine, hb, Option.map_some, BuildContext.afterDelist]
  · simp only [putEngine_engine, putFlow_engine, putActive_engine, hb, Option.map_some, BuildContext.afterDelist, hp]
    split
    · exact ⟨i - 1, Nat.sub_le i 1, rfl⟩
    · exact ⟨i, le_rfl, by rw [← hp]⟩

theorem offlineFlow_engine (s : State) (c : ChanNo) (f : FlowNo) :
    (s.offlineFlow c f).engine = (s.delist c f).engine := by
  unfold offlineFlow leaveCalendar
  split <;> rfl

/-- A station's leaving ONLINE keeps the place of a reading. -/
theorem placeKept_leaveOnline (s : State) (n : StationNo) : PlaceKept s.engine (s.leaveOnline n).engine := by
  have fold (c : ChanNo) (q : List FlowNo) :
      ∀ t : State, PlaceKept t.engine (q.foldl (fun u f => u.offlineFlow c f) t).engine :=
    q.rec (fun t => placeKept_refl t.engine)
      (fun f _ later t => placeKept_trans (offlineFlow_engine t c f ▸ placeKept_delist t c f) (later (t.offlineFlow c f)))
  unfold leaveOnline flowsOffline
  split
  · exact fold _ _ s
  · exact placeKept_refl s.engine

/-- Ending an emptied level writes the engine alone. -/
theorem levelEnded_frame (s t : State) : s.levelEnded t = { t with engine := (s.levelEnded t).engine } := rfl

/-- An event that keeps the place of a reading, and ends the level it empties, is seen by the build as R70 and R78 say. -/
theorem buildSees_levelEnded {s t : State} (h : PlaceKept s.engine t.engine) : s.BuildSees (s.levelEnded t) := by
  refine ⟨fun hn => ?_, fun b hb => ⟨fun hp hl => ?_, fun hp hl hl' => ?_, fun l i hp => ?_⟩⟩
  · simp [levelEnded, h.1 hn]
  · have hl : ¬ (b.phase = .visits ∧ s.active b.channel b.level ≠ [] ∧ t.active b.channel b.level = []) := hl
    simp [levelEnded, (h.2 b hb).1 hp, BuildContext.afterEvent, if_neg hl]
  · have gone : t.active b.channel b.level = [] := hl'
    have he : (s.levelEnded t).engine = some (b.advanceVisits t) := by
      simp [levelEnded, (h.2 b hb).1 (by simp [hp]), BuildContext.afterEvent, hp, hl, gone]
    have from' := (BuildContext.advanceVisits_from t b hp).2.1
    refine ⟨b.advanceVisits t, he, ?_, ?_, ?_, ?_, ?_⟩
    iterate 4
      unfold BuildContext.advanceVisits
      split <;> simp [gone, BuildContext.enterVisits_keeps]
    by_cases full : b.freeSpans = []
    · simp [BuildContext.advanceVisits, VisitsFrom, full]
    · have kept : (b.advanceVisits t).freeSpans = b.freeSpans ∧ (b.advanceVisits t).channel = b.channel := by
        simp [BuildContext.advanceVisits, full, gone, BuildContext.enterVisits_keeps]
      exact from' (by rw [kept.1]; exact full) (.inl (by rw [kept.2]; exact gone))
  · obtain ⟨j, hj, x⟩ := (h.2 b hb).2 l i hp
    exact ⟨j, hj, by simp [levelEnded, x, BuildContext.afterEvent]⟩

/-- What the build sees lies in the engine and the active lists. -/
theorem buildSees_congr {s t u : State} (h : s.BuildSees t) (he : u.engine = t.engine)
    (ha : u.activeLists = t.activeLists) : s.BuildSees u := by
  have e : ∀ c l, u.active c l = t.active c l := fun c l => by unfold active; rw [ha]
  simpa only [BuildSees, BuildGoesOn, VisitsFrom, e, he] using h

/-- What the build sees of a station that leaves ONLINE (R27, R78). -/
theorem buildSees_takenOffline (s : State) (n : StationNo) : s.BuildSees (s.takenOffline n) :=
  buildSees_levelEnded (placeKept_leaveOnline s n)

/-- Only flows, active lists, calendars and the engine differ between `s` and `t`. -/
def ListFrame (s t : State) : Prop :=
  t = { s with flows := t.flows, activeLists := t.activeLists, calendars := t.calendars, engine := t.engine }

theorem listFrame_delist {s t : State} (h : s.ListFrame t) (c : ChanNo) (f : FlowNo) : s.ListFrame (t.delist c f) := by
  obtain ⟨-, e⟩ | ⟨l, x, -, e⟩ := delist_cases t c f
  · rwa [e]
  · unfold ListFrame at h ⊢
    rw [e, h]
    rfl

theorem listFrame_offlineFlow {s t : State} (h : s.ListFrame t) (c : ChanNo) (f : FlowNo) :
    s.ListFrame (t.offlineFlow c f) := by
  have k := listFrame_delist h c f
  unfold offlineFlow leaveCalendar
  split
  · unfold ListFrame at k ⊢
    rw [k]
    rfl
  · exact k

/-- A station's leaving ONLINE writes flows, active lists, calendars and the engine, and nothing else. -/
theorem listFrame_takenOffline (s : State) (n : StationNo) : s.ListFrame (s.takenOffline n) := by
  have fold (c : ChanNo) (q : List FlowNo) : ∀ t, s.ListFrame t → s.ListFrame (q.foldl (fun u f => u.offlineFlow c f) t) := by
    induction q with
    | nil => exact fun t h => h
    | cons f q ih => exact fun t h => ih _ (listFrame_offlineFlow h c f)
  have left : s.ListFrame (s.leaveOnline n) := by
    unfold leaveOnline flowsOffline
    split
    · exact fold _ _ s rfl
    · rfl
  unfold ListFrame at left ⊢
  unfold takenOffline
  rw [levelEnded_frame, left]

end State

end Sys2Proof.Machine
end

