-- ==== Sys2Proof/WellFormed.lean ====
section
/-! DEFINITION. Which commands a sender can send. A channel, a reference count and a hold indication are in range by
their types, so one check remains: a link carries no frame longer than its envelope allows (section 11.1: TYPE, two
bytes of LENGTH, at most 4,095 bytes of BODY, two bytes of CHECK) and no frame of no byte (a frame is opened by its
TYPE). The machine is total beyond the check: a longer control frame is answered MALFORMED (R173), a longer burst
record is judged by R171. -/

namespace Sys2Proof

/-- The most bytes of a frame: TYPE, LENGTH, BODY and CHECK (section 11.1). -/
def maxFrameBytes : Nat := 1 + 2 + Config.maxBody + 2

/-- A frame a link can carry (section 11.1). -/
def RawFrame.wellFormed (f : RawFrame) : Bool :=
  decide (0 < f.bytes.length) && decide (f.bytes.length ≤ maxFrameBytes)

/-- The check of every command. -/
def Instr.wellFormed : Instr → Bool
  | .burstRecord f => f.wellFormed
  | .controlFrame f => f.wellFormed
  | .powerOnReset _ | .lineReset _ | .referenceCount _ | .emitTime _ | .withdrawalDeadline _ | .expiry _
  | .buildBegin | .periodicTiming | .periodicWalk | .extraTurn | .joinOpening | .pollQueueTake | .sweep
  | .requestOpeningPlace | .flowVisit | .closing | .holdAppend | .planDeparture | .adjustFrameDeparture
  | .planLinkHold | .planLinkRelease | .planLinkFrameEnd | .systemLinkFrameEnd | .responseDeparture
  | .noticeDeparture | .forwardDeparture | .unknownOp | .channelStart | .channelStopOrderly
  | .channelStopAbrupt | .profileCommit | .stationAdmit | .stationMove | .stationRelease | .flowBind
  | .flowActivate | .flowHold | .flowUnbind | .planWrite | .planReady | .planDiscard | .read | .readRecord
  | .write | .fill | .fillRecord | .counters | .clear => true

end Sys2Proof
end

