-- ==== Sys2Proof/Tests/Slice0.lean ====
section
/-! SUPPORT. Tests on small states, and a witness for the hypotheses of each statement. Expected results come from the
worked examples and the tables of the manual; each test names its section or its rule. -/

open Sys2Proof Sys2Proof.Machine

namespace Sys2Proof.Tests

set_option Elab.async false

/-! ## Small states -/

/-- A state with two free numbers, after the first reference count. -/
def base : State := { State.reset with freeList := [1, 2], referenceSeen := true, lastReference := 640 }

/-- A control frame with TAG 7, an OPERATION and its operand bytes. -/
def ctl (op : Nat) (operands : List Nat) : RawFrame :=
  { bytes := envelope 7 (be 2 7 ++ be 1 op ++ operands.flatMap (fun v => be 1 v)), close := .frameEnd }

/-- `s` with one control frame waiting. -/
def sends (s : State) (op : Nat) (operands : List Nat) : State := { s with controlQueue := [ctl op operands] }

/-- A context that runs on the default page, its first plan at beat 1,000 (section 1.8). -/
def runs : ChannelContext :=
  { ChannelContext.reset with state := .running, currentBeat := 10, nextStart := 1000 }

/-- `base` with channel 0 running. -/
def running : State := base.putContext 0 runs

/-- Channel 0 stands at its first emit time, a request of channel 1 waiting for an idle engine. -/
def queuedFirst : State :=
  { base.putContext 0 { runs with currentBeat := 968 } with buildQueue := [{ channel := 1, emitTime := 968 }] }

/-- A station of channel 0 in a state, with a flow. -/
def member (x : StationState) (q : List FlowNo) : Station :=
  { Station.reset with state := x, hardwareId := some 77, flowList := q }

/-- A flow of station 5 in a state. -/
def bound (x : FlowState) : Flow := { Flow.reset with state := x, station := some 5 }

/-- `running` with station 5 in a state, flow 9 bound to it. -/
def served (x : StationState) (f : Flow) : State := (running.putStation 5 (member x [9])).putFlow 9 f

/-- A build of channel 0's first plan, in a phase, over some free spans. -/
def build (p : BuildPhase) (q : List Span) : BuildContext where
  channel := 0
  start := 1000
  cadenceSequence := 0
  freeSpans := q
  level := 3
  roundRemaining := 1
  roundPlaced := false
  phase := p

/-- `s` with that build under way. -/
def builds (s : State) (p : BuildPhase) (q : List Span) : State :=
  (s.putEngine (some (build p q))).putBuildCondition 0 .underBuild

/-- The whole timeline of a default plan. -/
def whole : List Span := [{ offset := 0, length := 256 }]

/-- What a step answers, when it goes on. -/
def after (x : Host.Outcome State Fault Refusal) (p : State → Bool) : Bool :=
  match x with
  | .next t => p t
  | .fault _ => false
  | .refused _ => false

/-- The code and the results of the last response of a state. -/
def answered (t : State) : Option (Code × List Byte) := t.responseQueue.getLast?.map (fun r => (r.code, r.results))

/-! ## Well-formed commands, and words -/

theorem test_wellFormed_accepts_a_frame : (Instr.controlFrame (ctl 18 [])).wellFormed = true := by decide +kernel

theorem test_wellFormed_refuses_an_empty_frame : (Instr.burstRecord ⟨[], .frameEnd⟩).wellFormed = false := by
  decide +kernel

theorem test_wellFormed_refuses_an_overlong_frame :
    (Instr.controlFrame ⟨List.replicate 4101 0, .frameEnd⟩).wellFormed = false := by decide +kernel

theorem test_no_word_spells_a_command (n w : Nat) : decodeTableWord n w = none := rfl

/-! ## Bytes and arithmetic -/

/-- The check value of the CRC of section 11.1 over the digits 1 to 9. -/
theorem test_crc : crc16 (be 9 0x313233343536373839) = 0x29b1#16 := by decide +kernel

/-- The profile of section 1.7. -/
def profile17 : Profile where
  symbolsPerBeat := 32
  bitsPerSymbol := 6
  infoBytes := 200
  parityBytes := 16
  shortenedAllowed := true
  preambleSymbols := 64
  guardSymbols := 8

/-- Section 1.7. -/
theorem test_beats_and_capacity :
    burstBeats profile17 1500 = 71 ∧ capacity profile17 71 = 1522 ∧
    burstBeats { profile17 with shortenedAllowed := false } 1500 = 75 ∧
    capacity { profile17 with shortenedAllowed := false } 71 = 1400 ∧
    capacity { profile17 with shortenedAllowed := false } 75 = 1600 := by decide +kernel

/-- Section 3.7: the bucket's first and third visit. -/
theorem test_bucket :
    ({ Flow.reset with rate := 1000, depth := 4000, credit := some 500, residue := 500
                       fillAnchor := some 10000 }.bucketUpdate 11500).credit = some 1965 ∧
    ({ Flow.reset with rate := 1000, depth := 4000, credit := some 715, residue := 340
                       fillAnchor := some 11756 }.bucketUpdate 5011756).residue = 852 := by decide +kernel

/-- Section 6.5: plan 10's tally raises TARGET from 20 to NMAX 24 and BACKOFF START from 5 to 6. -/
theorem test_adaptation :
    adaptation ⟨10, 20, 4, 10, 6, false⟩ = .raise ∧
    adaptedTarget { Page.default.params with nmax := 24 } 20 .raise = 24 ∧
    adaptedBackoff Page.default.params 5 .raise = 6 := by decide +kernel

/-- R102: at the bounds a lower and a raise are stopped by their clamps. -/
theorem test_adaptation_clamps :
    adaptedTarget Page.default.params 4 .lower = 4 ∧ adaptedBackoff Page.default.params 10 .raise = 10 ∧
    adaptation ⟨0, 0, 0, 0, 0, false⟩ = .hold := by decide +kernel

/-- Section 7.8: the join at beat 7,040 is corrected by −900 and +24, the first poll by 0 and +16. -/
theorem test_steps :
    proposedTiming Page.default.params 0 ⟨900, -40, 0⟩ = -900 ∧
    proposedPower Page.default.params 0 ⟨900, -40, 0⟩ = 24 ∧
    proposedPower Page.default.params 24 ⟨20, -16, 0⟩ = 40 ∧
    Page.default.params.within ⟨-10, 2, 0⟩ = true := by decide +kernel

/-- The record of section 11.5: channel 3, beat 30,728, station 55, a request of 1,000 bytes for flow 600. -/
def record115 : RawFrame :=
  let fixed := be 1 1 ++ be 2 25 ++ be 1 3 ++ be 4 30728 ++ be 1 0 ++ be 1 3 ++ be 2 55 ++ beInt 2 (-12) ++ be 1 3 ++ be 1 200
  let q := fixed ++ be 2 (crc16 fixed).toNat ++ be 1 1 ++ be 1 1 ++ be 2 600 ++ be 3 1000 ++ be 1 1 ++ be 2 55
  { bytes := q ++ be 2 (crc16 q).toNat, close := .frameEnd }

/-- Section 11.5. -/
theorem test_request_record :
    record115.bytes.length = 30 ∧
    record115.burstRecord = some ⟨3, 30728, .clean, some 55, some ⟨-12, 3, 200⟩, [.request 600 1000 (some 55)]⟩ := by
  decide +kernel

/-- Section 11.5: with a wrong CHECK the record is DAMAGED, with a wrong HEADER CHECK it is discarded. -/
theorem test_request_record_spoiled :
    { record115 with bytes := record115.bytes.set 29 0 }.burstRecord = some (damagedRecord 3 30728) ∧
    { record115 with bytes := record115.bytes.set 17 0 }.burstRecord = none := by decide +kernel

/-! ## Witnesses: time and deadlines -/

theorem witness_StepRunsTheFrontCommand :
    { base with pending := [.sweep, .closing] }.pending = .sweep :: [.closing] ∧ base.pending = [] := ⟨rfl, rfl⟩

/-- With nothing due the state is settled; channel 0 at its emit time is the only one with a deadline, and is next. -/
theorem witness_CommandsCompleteAndKeepTheQueue :
    takenWhenSettled .closing = true ∧ running.settle.Quiet ∧ running.emitTimeReached 0 = false ∧
    queuedFirst.nextDue = some .buildBegin ∧ queuedFirst.deadlineReached 0 = true ∧
    (∀ d, d ≠ 0 → queuedFirst.deadlineReached d = false) ∧
    { queuedFirst with buildQueue := [] }.nextDue = some (.emitTime 0) :=
  ⟨rfl, by rw [State.settle_quiet (by decide +kernel)]; decide +kernel, by decide +kernel⟩

/-- No source of either link has anything to send, and no frame waits for an execution. -/
theorem witness_CommandsCompleteAndKeepTheQueue_idle :
    running.withdrawalReached 0 = false ∧ running.expiryReached 0 = false ∧ running.buildQueue = [] ∧
    (∀ d, running.awaits d = false) ∧ running.adjustQueue = [] ∧ running.responseQueue = [] ∧
    (∀ k ∈ NoticeKind.all, running.notice k = none) ∧ running.forwardBuffer = [] ∧
    executesTheHead .read = true ∧ running.controlQueue = [] := by decide +kernel

/-- Each row of R8 has a count that meets it, at both ends of its range. -/
theorem witness_ReferenceCountAdvancesChannels :
    running.Quiet ∧ running.advancing 0 = true ∧ running.referenceSeen = true ∧ State.reset.referenceSeen = false ∧
    (641#32 - running.lastReference).toNat = 1 ∧
    (0x8000027f#32 - running.lastReference).toNat = 2 ^ 31 - 1 ∧
    (0x80000280#32 - running.lastReference).toNat = 2 ^ 31 ∧
    (639#32 - running.lastReference).toNat = 2 ^ 32 - 1 := by decide +kernel

/-- Section 1.3 and R8: 128 units are two beats of 64; channel 1, STOPPED, stays where it is. -/
theorem test_reference_count :
    after (exec (.referenceCount 800) running) (fun t =>
      (t.context 0).currentBeat == 12 && (t.context 0).beatPhase == 32 && t.lastReference == 800 &&
        (t.context 1).currentBeat == 0) = true := by decide +kernel

/-- R8: a step backward is counted and moves nothing. -/
theorem test_reference_backstep :
    after (exec (.referenceCount 600) running) (fun t =>
      t.deviceCounter .referenceBackstep == 1 && t.lastReference == 640) = true := by decide +kernel

/-- Channel 0 at its first emit time, 968 (section 1.8), its half in a condition. -/
def emitting (m : SourceMode) (x : BuildCondition) : State :=
  (base.putContext 0
    { runs with
      currentBeat := 968
      activePage := { Page.default with params := { Page.default.params with sourceMode := m } } }).putBuildCondition
    0 x

theorem witness_EmitTimeSwapsACompletePlan :
    (emitting .automatic .complete).emitTimeReached 0 = true ∧
    ((emitting .automatic .complete).params 0).sourceMode = .automatic ∧
    (emitting .automatic .complete).buildCondition 0 = .complete := by decide +kernel

/-- `s` with stations 5 and 6 in channel 0's poll queue. -/
def takingPolls (s : State) : State :=
  ((s.putStation 5 { member .online [] with inPollQueue := true }).putStation 6
    { member .online [] with inPollQueue := true }).putPollQueue 0 [5, 6]

/-- Channel 0's build under way at its emit time, while requests of channel 2, DIRECTED, and of channel 1 wait. -/
def cutting : State :=
  { (builds (emitting .automatic .underBuild) .visits whole).putContext 2
      { runs with
        activePage := { Page.default with params := { Page.default.params with sourceMode := .directed } } } with
    buildQueue := [{ channel := 2, emitTime := 968 }, { channel := 1, emitTime := 980 }] }

theorem witness_EmitTimeCutsABuildUnderWay :
    cutting.engine = some (build .visits whole) ∧ cutting.emitTimeReached 0 = true ∧
    ((0 : ChanNo) :: cutting.buildQueue.map (fun r => r.channel)).Nodup ∧
    (builds (emitting .automatic .underBuild) .visits whole).engine = some (build .visits whole) ∧
    (builds (emitting .automatic .underBuild) .visits whole).emitTimeReached 0 = true ∧
    (builds (emitting .automatic .underBuild) .visits whole).buildCondition 0 = .underBuild ∧
    (builds (emitting .automatic .underBuild) .visits whole).buildQueue = [] ∧
    (builds (takingPolls (emitting .automatic .underBuild)) (.polls 2 []) whole).engine =
      some (build (.polls 2 []) whole) ∧
    (takingPolls (emitting .automatic .underBuild)).pollQueue 0 = 5 :: [6] ∧
    ((takingPolls (emitting .automatic .underBuild)).station 5).channel = 0 := by decide +kernel

theorem witness_EmitTimeFallsBack :
    (emitting .automatic .queued).emitTimeReached 0 = true ∧
    (emitting .automatic .queued).buildCondition 0 = .queued := by decide +kernel

theorem witness_EmitTimeJudgesADirectedHalf :
    (emitting .directed .none).emitTimeReached 0 = true ∧
    ((emitting .directed .none).params 0).sourceMode = .directed ∧
    (emitting .directed .none).buildCondition 0 = .none ∧
    (emitting .directed .queued).buildCondition 0 = .queued := by decide +kernel

/-- Section 1.8, step 2: sequence 0, NEXT START 1,256, withdrawal deadline 992, the next build queued for 1,224. -/
theorem test_first_swap :
    after (exec (.emitTime 0) (emitting .automatic .complete)) (fun t =>
      (t.context 0).planSequence == 1 && (t.context 0).nextStart == 1256 &&
        (t.emitHalfPlan 0).planSequence == some 0 && t.awaits 0 && t.buildCondition 0 == .queued &&
        t.buildQueue == [{ channel := 0, emitTime := 1224 }]) = true := by decide +kernel

/-- R82: Lp 256 and RB 2 give one REQUEST element of 128 openings; PLAN CUT and FALLBACK count. -/
theorem test_fallback :
    after (exec (.emitTime 0) (emitting .automatic .queued)) (fun t =>
      (t.emitHalfPlan 0).elements == [{ offset := 0, length := 256, body := .request 128 }] &&
        t.counter 0 .planCut == 1 && t.counter 0 .fallback == 1 && (t.emitHalfPlan 0).fallback) = true := by
  decide +kernel

/-- R81, R62: a cut names the stage reached and turns the free spans into openings; the engine takes the requests that wait, up
to the first of an AUTOMATIC channel. -/
theorem test_cut :
    after (exec (.emitTime 0) (builds (emitting .automatic .underBuild) .visits whole)) (fun t =>
      t.notice .planCut == some ⟨.planCut 0 0 (some 3), 1⟩ && (t.emitHalfPlan 0).cut &&
        (t.emitHalfPlan 0).elements == [{ offset := 0, length := 256, body := .request 128 }]) = true ∧
    after (exec (.emitTime 0) cutting) (fun t =>
      t.engine.map (fun b => b.channel) == some 1 && t.buildQueue == [{ channel := 0, emitTime := 1224 }] &&
        t.buildCondition 2 == .none && (t.buildHalf 2).start == 1000) = true := by decide +kernel

/-- R114: a cut that finds station 5 taken and not yet offered its placement enqueues it again behind station 6; one that
does not leaves the queue. -/
theorem test_cut_enqueues_the_station_in_hand (s : State) (hs : s = takingPolls (emitting .automatic .underBuild)) :
    (Config.stationInHand 0 = true → (s.requeueTaken (build (.polls 2 []) whole)).pollQueue 0 = [6, 5]) ∧
    (Config.stationInHand 0 = false → (s.requeueTaken (build (.polls 2 []) whole)).pollQueue 0 = [5, 6]) := by
  have hn : s.nextTaken (build (.polls 2 []) whole) = some 5 := by subst hs; decide +kernel
  have hd : s.freeDraws = 0 := by subst hs; decide +kernel
  unfold State.requeueTaken
  rw [hn]
  refine ⟨fun h => ?_, fun h => ?_⟩ <;> simp only [hd, h, if_true, if_false, Bool.false_eq_true] <;> subst hs <;>
    decide +kernel

/-- R136: a half that is not ready gives an idle plan. -/
theorem test_idle_plan :
    after (exec (.emitTime 0) (emitting .directed .none)) (fun t =>
      (t.emitHalfPlan 0).elements == [{ offset := 0, length := 256, body := .idle }] &&
        (t.emitHalfPlan 0).idle && t.counter 0 .idlePlans == 1) = true := by decide +kernel

/-- Channel 0, DRAINING, at the emit time of its final plan, with 5 beats more already brought. -/
def lastEmit : State :=
  let s := emitting .directed .none
  s.putContext 0 { s.context 0 with state := .draining, drainMark := .beforeFinalSwap, beatsToReach := 5 }

/-- R124, step 6, R128, R13: the final idle plan departs at its swap, and the channel stops at the beat of its emit time. -/
theorem test_final_plan_stops_at_its_emit_time :
    after (exec (.emitTime 0) lastEmit) (fun t =>
      t.awaits 0 && after (exec .planDeparture t) (fun u =>
        (u.context 0).state == .stopped && (u.context 0).currentBeat == 968 && (u.context 0).beatsToReach == 0)) =
      true := by decide +kernel

/-- Channel 0 with a plan awaiting departure that holds one turn of flow 9, charge 100, at a beat. -/
def waiting (s : State) (beat : Beat) : State :=
  (s.putContext 0 { s.context 0 with currentBeat := beat, nextStart := 1256 }).putPlanStore 0
    { s.planStore 0 with
      emitCondition := .awaitingDeparture
      withdrawalDeadline := 992
      h0 :=
        { PlanRecord.empty with
          start := 1000, planSequence := some 0
          elements :=
            [{ offset := 0, length := 6, body := .data 5 9 (some 100) },
             { offset := 6, length := 250, body := .request 125 }] } }

theorem countersBounded_of {s : State} (h : s.channelCounters = State.reset.channelCounters)
    (hd : s.deviceCounters = State.reset.deviceCounters) (ho : s.overwrites = 0) : s.CountersBounded := by
  refine ⟨fun c k => ?_, fun k => ?_, by omega⟩
  · simp [State.counter, h, State.reset]
  · simp [State.deviceCounter, hd, State.reset]

theorem witness_WithdrawalTakesThePlanBack :
    (waiting (served .online (bound .active)) 992).CountersBounded ∧
    (waiting (served .online (bound .active)) 992).withdrawalReached 0 = true :=
  ⟨countersBounded_of rfl rfl rfl, by decide +kernel⟩

/-- R131: a charge is restored to a flow that is ACTIVE, bound to the station named, ONLINE on the channel; else not. -/
theorem witness_ChargesAreRestoredOrForfeited :
    ((served .online (bound .active)).flow 9).state = .active ∧
    ((served .online (bound .active)).flow 9).station = some 5 ∧
    ((served .online (bound .active)).station 5).state = .online ∧
    ((served .online (bound .active)).station 5).channel = 0 ∧
    ((served .online (bound .held)).flow 9).state ≠ .active ∧
    ((served .parked (bound .active)).station 5).state ≠ .online := by decide +kernel

/-- `s` with channel 0 DRAINING past its final swap. -/
def ending (s : State) : State :=
  s.putContext 0 { s.context 0 with state := .draining, drainMark := .afterFinalSwap }

/-- R130, R131, R13: the charge comes back, the flow joins its list, and the notice carries one charge restored. Of a station
PARKED it is forfeited, and the final plan's withdrawal stops the channel. -/
theorem test_withdrawal :
    after (exec (.withdrawalDeadline 0) (waiting (served .online (bound .active)) 992)) (fun t =>
      (t.flow 9).backlog == 100 && t.active 0 0 == [9] && !t.awaits 0 &&
        t.notice .planWithdrawn == some ⟨.planWithdrawn 0 0 1000 1 0, 1⟩) = true ∧
    after (exec (.withdrawalDeadline 0) (ending (waiting (served .parked (bound .active)) 992))) (fun t =>
      (t.flow 9).backlog == 0 && t.notice .planWithdrawn == some ⟨.planWithdrawn 0 0 1000 0 1, 1⟩ &&
        (t.context 0).state == .stopped && t.notice .channelStopped == some ⟨.channelStopped 0 .orderly, 1⟩) = true := by
  decide +kernel

/-- Channel 0 with one expect entry from beat 1,000, at a beat. -/
def expecting (s : State) (g : Grant) (beat : Beat) : State :=
  (s.putContext 0 { s.context 0 with currentBeat := beat, nextStart := 4000 }).putExpectQueue 0
    [{ start := 1000, length := 8, expiry := 1024, grant := g }]

/-- Plan 0's tally is open, its one REQUEST element, with two openings, about to expire. -/
def unreported : State :=
  (ending (expecting running (.request 2 [.success, .unreported] 0) 1024)).putContention 0
    { Contention.reset with openTallies := [⟨0, 2, 1, 0, 0, 0⟩] }

theorem witness_ExpiryClosesTheEntry :
    (unreported.expiringEntry 0).map (fun e => e.grant) = some (.request 2 [.success, .unreported] 0) ∧
    (unreported.contentionOf 0).openTallies = [] ++ ⟨0, 2, 1, 0, 0, 0⟩ :: [] ∧
    (expecting (served .online (bound .active)) (.data 5 9) 1024).expiringEntry 0 =
      some { start := 1000, length := 8, expiry := 1024, grant := .data 5 9 } ∧
    ((expecting (served .online (bound .active)) (.poll 5) 1024).expiringEntry 0).map (fun e => e.grant) =
      some (.poll 5) ∧
    ((expecting running .join 1024).expiringEntry 0).map (fun e => e.grant) = some .join ∧
    ((expecting running (.request 2 [.empty, .unreported] 0) 1024).expiringEntry 0).map (fun e => e.grant) =
      some (.request 2 [.empty, .unreported] 0) := by decide +kernel

/-- R148, R99, R13: an expired poll is a miss, an expired opening counts EMPTY and is reported; the last entry of a DRAINING channel
past its final swap stops it. -/
theorem test_expiry :
    after (exec (.expiry 0) (expecting (served .online (bound .active)) (.poll 5) 1024)) (fun t =>
      (t.station 5).missCount == 1 && t.counter 0 .misses == 1 && t.pollQueue 0 == [5]) = true ∧
    after (exec (.expiry 0) (expecting running (.request 2 [.success, .unreported] 0) 1024)) (fun t =>
      t.counter 0 .openingsEmpty == 1 && t.counter 0 .openingsSuccess == 1 && t.expectQueue 0 == []) = true ∧
    after (exec (.expiry 0) unreported) (fun t =>
      (t.contentionOf 0).latest == some ⟨0, 2, 1, 1, 0, false⟩ && (t.contentionOf 0).openTallies == [] &&
        (t.context 0).state == .stopped) = true := by decide +kernel

/-! ## Witnesses: the build -/

/-- Channel 0's first request in the queue of an idle engine. -/
def queued : State :=
  { running with buildQueue := [{ channel := 0, emitTime := 968 }] }.putBuildCondition 0 .queued

theorem witness_BuildBeginTakesTheHeadRequest :
    queued.engine = none ∧ queued.buildQueue = [{ channel := 0, emitTime := 968 }] := ⟨rfl, rfl⟩

/-- R63: the engine is BUILDING over [0, Lp) with the header begun. -/
theorem test_build_begin :
    after (exec .buildBegin queued) (fun t =>
      t.engine.map (fun b => (b.channel, b.start, b.freeSpans)) == some (0, 1000, whole) &&
        t.buildCondition 0 == .underBuild && (t.buildHalf 0).start == 1000 && (t.buildHalf 0).backoffEnd == 10) = true := by
  decide +kernel

/-- A PERIODIC flow with a period of 100 beats and turns of 6. -/
def periodic (n : Option Beat) : Flow :=
  { bound .active with kind := .periodic, turnBeats := 6, period := 100, jitter := 4, phase := 20, nextNominal := n }

/-- Channel 0 with flow 9 in one part of its calendar. -/
def scheduled (n : Option Beat) : State :=
  (served .online (periodic n)).putCalendar 0
    (match n with
    | none => { waiting := [9], timed := [] }
    | some _ => { waiting := [], timed := [9] })

theorem witness_PeriodicTimingTimesTheCalendar :
    (builds (scheduled none) .timing whole).Quiet ∧ (builds (scheduled none) .timing whole).CountersBounded ∧
    (((scheduled none).calendar 0).timed ++ ((scheduled none).calendar 0).waiting).Nodup ∧
    (∀ f ∈ ((scheduled none).calendar 0).waiting, ((scheduled none).flow f).phase ≤ 65535) := by
  refine ⟨by decide +kernel, countersBounded_of rfl rfl rfl, by decide +kernel, fun f h => ?_⟩
  have e : ((scheduled none).calendar 0).waiting = [9] := by decide +kernel
  rw [e, List.mem_singleton] at h
  subst h
  decide +kernel

/-- R88, R89: a waiting flow is timed at START + PHASE; a nominal of 790 is brought forward by three periods to 1,090. -/
theorem test_periodic_timing :
    after (exec .periodicTiming (builds (scheduled none) .timing whole)) (fun t =>
      (t.flow 9).nextNominal == some 1020 && (t.calendar 0).timed == [9] && (t.calendar 0).waiting == []) = true ∧
    after (exec .periodicTiming (builds (scheduled (some 790)) .timing whole)) (fun t =>
      (t.flow 9).nextNominal == some 1090 && t.counter 0 .periodicLapsed == 3) = true := by decide +kernel

theorem witness_PeriodicWalkPlacesOrMissesTheHead :
    (builds (scheduled (some 1020)) .walk whole).Quiet ∧ (builds (scheduled (some 1020)) .walk whole).BuildSettled ∧
    ((scheduled (some 1020)).calendar 0).timed = [9] ∧ ((scheduled (some 1020)).flow 9).station = some 5 ∧
    ((1020#32 : Beat) - 1000).toNat < ((scheduled (some 1020)).params 0).planLength ∧
    cutWindow 20 6 whole = some [⟨0, 20⟩, ⟨26, 230⟩] ∧ cutWindow 20 6 [] = none := by decide +kernel

/-- R90, R91: a free window at offset 20; with beats 18 to 23 taken, the turn lands at 24, its last permitted offset; with
one beat more taken it is missed. -/
theorem test_periodic_walk :
    after (exec .periodicWalk (builds (scheduled (some 1020)) .walk whole)) (fun t =>
      (t.buildHalf 0).elements == [{ offset := 20, length := 6, body := .periodic 5 9 }] &&
        (t.flow 9).nextNominal == some 1120) = true ∧
    after (exec .periodicWalk (builds (scheduled (some 1020)) .walk [⟨0, 18⟩, ⟨24, 232⟩])) (fun t =>
      (t.buildHalf 0).elements == [{ offset := 24, length := 6, body := .periodic 5 9 }]) = true ∧
    after (exec .periodicWalk (builds (scheduled (some 1020)) .walk [⟨0, 18⟩, ⟨25, 231⟩])) (fun t =>
      (t.buildHalf 0).elements == [] && t.counter 0 .periodicMiss == 1 && (t.flow 9).nextNominal == some 1120) =
      true := by decide +kernel

/-- Flow 9, timed past the plan, owes an extra. -/
def owing : State :=
  (scheduled (some 1300)).putFlow 9 { periodic (some 1300) with extrasOwed := 2 }

theorem witness_ExtraTurnPlacesOrDefersOne :
    (builds owing (.extras [9]) whole).Quiet ∧ (builds owing (.extras [9]) whole).BuildSettled ∧
    (owing.flow 9).station = some 5 ∧
    (builds owing (.extras [9]) whole).Room (build (.extras [9]) whole) 6 (.periodic 5 9) 0 [⟨6, 250⟩] ∧
    (builds owing (.extras [9]) []).BuildSettled ∧ firstFit 6 [] = none := by decide +kernel

/-- R93. -/
theorem test_extra_turn :
    after (exec .extraTurn (builds owing (.extras [9]) whole)) (fun t =>
      (t.buildHalf 0).elements == [{ offset := 0, length := 6, body := .periodic 5 9 }] &&
        (t.flow 9).extrasOwed == 1 && t.counter 0 .periodicPlaced == 1) = true ∧
    after (exec .extraTurn (builds owing (.extras [9]) [⟨0, 5⟩])) (fun t =>
      (t.flow 9).extrasOwed == 2 && t.counter 0 .extraDeferred == 1) = true := by decide +kernel

theorem witness_JoinOpeningIsOfferedByTheCadence :
    (builds running .join whole).Quiet ∧ (builds running .join whole).BuildSettled ∧
    (builds running .join whole).Room (build .join whole) 32 .join 0 [⟨32, 224⟩] ∧
    (builds running .join []).BuildSettled ∧ firstFit 32 [] = none := by decide +kernel

/-- R104. -/
theorem test_join_opening :
    after (exec .joinOpening (builds running .join whole)) (fun t =>
      (t.buildHalf 0).elements == [{ offset := 0, length := 32, body := .join }] && t.counter 0 .joinOffered == 1) =
      true ∧
    after (exec .joinOpening (builds running .join [⟨0, 31⟩])) (fun t =>
      (t.buildHalf 0).elements == [] && t.counter 0 .joinDropped == 1) = true := by decide +kernel

/-- Station 5 in channel 0's poll queue. -/
def polling : State :=
  (running.putStation 5 { member .online [] with inPollQueue := true }).putPollQueue 0 [5]

/-- With no notice pending, the bounds of the collections are decidable. -/
theorem collectionsBounded_of {s : State} (hn : s.notices = State.reset.notices)
    (h : (s.strayRing.length ≤ 64 ∧ s.forwardBuffer.length ≤ 256) ∧
      s.adjustQueue.length ≤ 64 ∧ ∀ c, (s.pollQueue c).length ≤ 256) : s.CollectionsBounded :=
  ⟨h.1.1, h.1.2, h.2.1, h.2.2, fun k p hk => by simp [State.notice, hn, State.reset] at hk⟩

theorem witness_PollQueueTakeOffersAPoll :
    (builds polling (.polls 1 []) whole).Quiet ∧ (builds polling (.polls 1 []) whole).BuildSettled ∧
    (builds polling (.polls 1 []) whole).CollectionsBounded ∧ polling.pollQueue 0 = [5] ∧
    (polling.station 5).channel = 0 ∧
    (builds polling (.polls 1 []) whole).Room (build (.polls 1 []) whole) 8 (.poll 5) 0 [⟨8, 248⟩] ∧
    (builds polling (.polls 1 []) []).BuildSettled ∧ firstFit 8 [] = none :=
  have settled : (builds polling (.polls 1 []) whole).Quiet ∧ (builds polling (.polls 1 []) whole).BuildSettled := by
    decide +kernel
  ⟨settled.1, settled.2, collectionsBounded_of rfl (by decide +kernel), by decide +kernel⟩

/-- R112. -/
theorem test_poll_queue_take :
    after (exec .pollQueueTake (builds polling (.polls 1 []) whole)) (fun t =>
      (t.buildHalf 0).elements == [{ offset := 0, length := 8, body := .poll 5 }] && t.pollQueue 0 == [] &&
        !(t.station 5).inPollQueue && t.counter 0 .pollsPlaced == 1) = true ∧
    after (exec .pollQueueTake (builds polling (.polls 1 []) [⟨0, 7⟩])) (fun t =>
      t.pollQueue 0 == [5] && (t.station 5).inPollQueue && t.counter 0 .pollsDeferred == 1) = true := by
  decide +kernel

/-- Channel 0's sweep stands at a station. -/
def sweeping (n : StationNo) : State := (running.putStation 5 (member .aligning [])).putSweepPointer 0 n

theorem witness_SweepExaminesOneRecord :
    (builds (sweeping 5) (.sweep 0 []) whole).Quiet ∧ (builds (sweeping 5) (.sweep 0 []) whole).BuildSettled ∧
    (builds (sweeping 5) (.sweep 0 []) whole).Room (build (.sweep 0 []) whole) 8 (.poll 5) 0 [⟨8, 248⟩] ∧
    (sweeping 5).pollDue 0 1000 5 = true ∧ (sweeping 6).pollDue 0 1000 6 = false ∧
    (builds (sweeping 5) (.sweep 0 []) []).BuildSettled := by decide +kernel

/-- R113: an ALIGNING station is due; the pointer wraps from 8,191 to 0. -/
theorem test_sweep :
    after (exec .sweep (builds (sweeping 5) (.sweep 0 []) whole)) (fun t =>
      (t.buildHalf 0).elements == [{ offset := 0, length := 8, body := .poll 5 }] && t.sweepPointer 0 == 6) = true ∧
    after (exec .sweep (builds (sweeping 8191) (.sweep 0 []) whole)) (fun t =>
      (t.buildHalf 0).elements == [] && t.sweepPointer 0 == 0) = true := by decide +kernel

theorem witness_RequestOpeningPlacesOne :
    (builds running (.openings 2) whole).Quiet ∧ (builds running (.openings 2) whole).BuildSettled ∧
    (builds running (.openings 2) whole).Room (build (.openings 2) whole) 2 (.request 1) 0 [⟨2, 254⟩] ∧
    (builds running (.openings 2) []).BuildSettled ∧ firstFit 2 [] = none := by decide +kernel

/-- R69, R67: a second opening that touches the first merges with it. -/
theorem test_request_opening :
    after (exec .requestOpeningPlace (builds running (.openings 2) whole)) (fun t =>
      after (exec .requestOpeningPlace t) (fun u =>
        (u.buildHalf 0).elements == [{ offset := 0, length := 4, body := .request 2 }])) = true := by
  decide +kernel

/-- Flow 9 with a backlog, alone at level 3 of channel 0. -/
def enlisted (n : Nat) : State :=
  (served .online { bound .active with backlog := n, listLevel := some 3, fresh := true }).putActive 0 3 [9]

theorem witness_FlowVisitPlacesOrSkips :
    (builds (enlisted 100) .visits whole).Quiet ∧ (builds (enlisted 100) .visits whole).BuildSettled ∧
    (enlisted 100).active 0 3 = [9] ∧ ((enlisted 100).flow 9).listLevel = some 3 ∧
    ((enlisted 100).flow 9).station = some 5 := by decide +kernel

/-- R71, R72, R19 with the default page: 20 bytes need (64 + ceil(8·36 / 4) + 16) / 64 = 3 beats of the 4 that weight 1 and
quantum 4 earn; 100 bytes need 5, so the turn is cut to 4 beats, whose capacity is 72 bytes, and 28 bytes stay. -/
theorem test_flow_visit :
    after (exec .flowVisit (builds (enlisted 20) .visits whole)) (fun t =>
      (t.buildHalf 0).elements == [{ offset := 0, length := 3, body := .data 5 9 (some 20) }] &&
        (t.flow 9).backlog == 0 && (t.flow 9).listLevel == none && t.active 0 3 == [] && !(t.flow 9).fresh) = true ∧
    after (exec .flowVisit (builds (enlisted 100) .visits whole)) (fun t =>
      (t.buildHalf 0).elements == [{ offset := 0, length := 4, body := .data 5 9 (some 72) }] &&
        (t.flow 9).backlog == 28 && (t.flow 9).deficit == 0 && t.active 0 3 == [9]) = true := by decide +kernel

/-- `enlisted` with 239 elements in the build half: one more passes 240 with the span that is left (R66). -/
def crowded : State :=
  (enlisted 100).putBuildHalf 0 { PlanRecord.empty with elements := List.replicate 239 ⟨0, 0, .hold 5 9⟩ }

/-- R70, R73: a visit that the budget refuses lowers ROUND REMAINING like any other, keeps the raised DEFICIT and ends stage 3. -/
theorem test_flow_visit_refused :
    after (exec .flowVisit (builds crowded .visits whole)) (fun t =>
      t.engine == some { build .closing whole with roundRemaining := 0 } && (t.flow 9).deficit == 4 &&
        (t.flow 9).backlog == 100 && (t.buildHalf 0).elements.length == 239) = true := by decide +kernel

theorem witness_ClosingConvertsEverySpan :
    (builds (enlisted 100) .closing [⟨0, 7⟩]).Quiet ∧ (builds (enlisted 100) .closing [⟨0, 7⟩]).BuildSettled ∧
    (builds running .closing []).BuildSettled := by decide +kernel

/-- R74, R75: 7 beats become 3 openings and one idle beat; with no hold to append the build is complete. -/
theorem test_closing :
    after (exec .closing (builds running .closing [⟨0, 7⟩])) (fun t =>
      (t.buildHalf 0).elements ==
          [{ offset := 0, length := 6, body := .request 3 }, { offset := 6, length := 1, body := .idle }] &&
        t.buildCondition 0 == .complete && t.counter 0 .plansBuilt == 1 && t.engine == none) = true := by
  decide +kernel

/-- `enlisted` with class 0 of POLICY-A holding. -/
def holding : State :=
  (enlisted 100).putPolicyClass .a 0 { PolicyClass.reset with holdsEnabled := true }

theorem witness_HoldAppendHoldsTheNextFlow :
    (builds holding (.holds 7 0) []).Quiet ∧ (builds holding (.holds 7 0) []).BuildSettled ∧
    nextHold (builds holding (.holds 7 0) []) 0 7 0 = some (3, 0, 9) ∧ (holding.flow 9).station = some 5 := by
  decide +kernel

/-- R75. -/
theorem test_hold_append :
    after (exec .holdAppend (builds holding (.holds 7 0) [])) (fun t =>
      (t.buildHalf 0).elements == [{ offset := 0, length := 0, body := .hold 5 9 }] && !(t.flow 9).fresh &&
        t.active 0 3 == [9] && t.buildCondition 0 == .complete) = true := by decide +kernel

/-! ## Witnesses: the Plan Link -/

theorem witness_PlanDepartureMakesEntriesAndTally :
    (waiting (served .online (bound .active)) 900).planLinkHold = false ∧
    (waiting (served .online (bound .active)) 900).planLink.sending = none ∧
    (waiting (served .online (bound .active)) 900).awaits 0 = true ∧
    (∀ d, (waiting (served .online (bound .active)) 900).awaits d = true → d ≠ 0 →
      (waiting (served .online (bound .active)) 900).unitsLeft ⟨0, 992⟩ <
          (waiting (served .online (bound .active)) 900).unitsLeft
            ⟨d, ((waiting (served .online (bound .active)) 900).planStore d).withdrawalDeadline⟩ ∨
        ((waiting (served .online (bound .active)) 900).unitsLeft ⟨0, 992⟩ =
          (waiting (served .online (bound .active)) 900).unitsLeft
            ⟨d, ((waiting (served .online (bound .active)) 900).planStore d).withdrawalDeadline⟩ ∧ 0 < d)) := by
  decide +kernel

/-- R139, R97: a turn of 6 beats and 125 openings of 2, each with EXPIRY at its end and SETTLE 16. -/
theorem test_plan_departure :
    after (exec .planDeparture (waiting (served .online (bound .active)) 900)) (fun t =>
      t.expectQueue 0 ==
          [{ start := 1000, length := 6, expiry := 1022, grant := .data 5 9 },
           { start := 1006, length := 250, expiry := 1272, grant := .request 2 (List.replicate 125 .unreported) 0 }] &&
        (t.contentionOf 0).openTallies == [⟨0, 125, 1, 0, 0, 0⟩] && t.counter 0 .plansSent == 1 &&
        t.planLink.sending.isSome && !t.awaits 0) = true := by decide +kernel

/-- `base` with an adjustment of station 5 queued. -/
def adjusting : State :=
  { base with adjustQueue := [{ station := 5, channel := 0, timingStep := -900, powerStep := 24, aligned := true }] }

theorem witness_AdjustFrameDepartsBehindPlans :
    adjusting.adjustQueue = [{ station := 5, channel := 0, timingStep := -900, powerStep := 24, aligned := true }] ∧
    adjusting.planLinkHold = false ∧ adjusting.planLink.sending = none ∧ (∀ c, adjusting.awaits c = false) ∧
    { adjusting with planLinkHold := true }.planLinkHold = true := by decide +kernel

/-- Section 11.3: station 5, channel 0, −900 in 3 bytes, 24 in 2, ALIGNED yes. -/
theorem test_adjust_frame :
    after (exec .adjustFrameDeparture adjusting) (fun t =>
      t.planLink.sending.map (fun q => (q.drop 3).take 9) ==
        some [0x00#8, 0x05#8, 0x00#8, 0xff#8, 0xfc#8, 0x7c#8, 0x00#8, 0x18#8, 0x01#8]) = true := by decide +kernel

theorem witness_LinkEventsSetHoldAndSending :
    base.Quiet ∧ base.planLink.sending = none ∧ base.systemLink.sending = none ∧
    { base with planLink := ⟨some [1], []⟩, systemLink := ⟨some [2], []⟩ }.Quiet := by decide +kernel

/-! ## Witnesses: Burst Intake -/

/-- A burst record of channel 0 (section 11.2). -/
def burst (outcome start : Nat) (station : Option Nat) (m : Option Measurement) (n : Nat) (units : List Byte) :
    RawFrame :=
  let fixed :=
    be 1 1 ++ be 2 (16 + units.length) ++ be 1 0 ++ be 4 start ++ be 1 outcome ++
      be 1 (bitsLow [station.isSome, m.isSome]) ++ beOpt 2 station ++ (m.map Measurement.bytes).getD (be 4 0)
  let q := fixed ++ be 2 (crc16 fixed).toNat ++ be 1 n ++ units
  { bytes := q ++ be 2 (crc16 q).toNat, close := .frameEnd }

/-- A record with no contents. -/
def bare (o : BurstOutcome) (start : Beat) : BurstRecord := ⟨0, start, o, none, none, []⟩

theorem witness_UnsoundRecordsAreDiscardedOrDamaged :
    base.Quiet ∧
    be 2 (crc16 ({ record115 with bytes := record115.bytes.set 17 0 }.bytes.take 16)).toNat ≠
      ({ record115 with bytes := record115.bytes.set 17 0 }.bytes.drop 16).take 2 ∧
    { record115 with bytes := record115.bytes.set 29 0 }.headerSound = true ∧
    ofBe ({ record115 with bytes := record115.bytes.set 29 0 }.body.take 1) = (3 : ChanNo).val ∧
    ofBe (({ record115 with bytes := record115.bytes.set 29 0 }.body.drop 5).take 1) ≤ 1 ∧
    { record115 with bytes := record115.bytes.set 29 0 }.checkHolds = false := by decide +kernel

/-- A turn over [1000, 1006) and two openings of 2 over [1006, 1010), the first reported. -/
def expected : List ExpectEntry :=
  [{ start := 1000, length := 6, expiry := 1022, grant := .data 5 9 },
   { start := 1006, length := 4, expiry := 1026, grant := .request 2 [.success, .unreported] 0 }]

/-- R141, at the first and the last beat of each range. -/
theorem test_finding :
    findingOf expected 999 = .stray .noEntry ∧
    findingOf expected 1000 = .entry { start := 1000, length := 6, expiry := 1022, grant := .data 5 9 } ∧
    findingOf expected 1005 = .stray .misaligned ∧ findingOf expected 1006 = .stray .reported ∧
    findingOf expected 1007 = .stray .misaligned ∧
    findingOf expected 1008 =
      .opening { start := 1006, length := 4, expiry := 1026, grant := .request 2 [.success, .unreported] 0 } 1 ∧
    findingOf expected 1010 = .stray .noEntry := by decide +kernel

theorem witness_RecordsMatchTheEntryThatHoldsTheirStart :
    (∀ e ∈ expected, e.length ≤ ((999#32 : Beat) - e.start).toNat) ∧
    expected =
      [{ start := 1000, length := 6, expiry := 1022, grant := .data 5 9 }] ++
        { start := 1006, length := 4, expiry := 1026, grant := .request 2 [.success, .unreported] 0 } :: [] ∧
    (6 : Nat) ≤ ((1008#32 : Beat) - 1000).toNat ∧ ((1008#32 : Beat) - 1006).toNat < 4 ∧
    ((1008#32 : Beat) - 1006).toNat = 1 * 2 ∧ [Mark.success, .unreported][1]? = some .unreported ∧
    ((1005#32 : Beat) - 1000).toNat < 6 := by decide +kernel

theorem witness_StrayRecordsAreRecordedOnly :
    running.Quiet ∧ (burst 2 500 none none 0 []).burstRecord = some (bare .collided 500) ∧
    findingOf (running.expectQueue 0) 500 = .stray .noEntry := by decide +kernel

/-- R150. -/
theorem test_stray :
    after (exec (.burstRecord (burst 2 500 none none 0 [])) running) (fun t =>
      t.counter 0 .stray == 1 && t.strayRing.length == 1 &&
        t.notice .strayBurst == some ⟨.strayBurst 0 500 .collided none .noEntry, 1⟩) = true := by decide +kernel

/-- Channel 0 stands at beat 1,000 and expects a turn of flow 9 there. -/
def turn : State := expecting (served .online (bound .active)) (.data 5 9) 1000

/-- Channel 0 stands at beat 1,000 and expects a poll of station 5, in a state, there. -/
def poll (x : StationState) : State := expecting (served x (bound .active)) (.poll 5) 1000

/-- A clean record of a station at beat 1,000, with a measurement and a data unit AB, or with none. -/
def heard (n : Nat) (m : Measurement) : RawFrame := burst 0 1000 (some n) (some m) 1 (be 1 0 ++ be 2 1 ++ be 1 0xab)
def silent (n : Nat) (m : Measurement) : RawFrame := burst 0 1000 (some n) (some m) 0 []

theorem witness_MisplacedRecordsCountAgainstTheExpectedStation :
    turn.Quiet ∧ (poll .online).Quiet ∧
    (silent 6 ⟨0, 0, 9⟩).burstRecord = some ⟨0, 1000, .clean, some 6, some ⟨0, 0, 9⟩, []⟩ ∧
    findingOf (turn.expectQueue 0) 1000 =
      .entry { start := 1000, length := 8, expiry := 1024, grant := .data 5 9 } ∧
    findingOf ((poll .online).expectQueue 0) 1000 =
      .entry { start := 1000, length := 8, expiry := 1024, grant := .poll 5 } ∧
    (6#16).toNat ≠ (5 : StationNo).val := by decide +kernel

/-- R142. -/
theorem test_misplaced :
    after (exec (.burstRecord (silent 6 ⟨0, 0, 9⟩)) (poll .online)) (fun t =>
      t.counter 0 .misplaced == 1 && (t.station 5).missCount == 1 && t.expectQueue 0 == [] &&
        t.strayRing.map (fun x => (x.stationNamed, x.stationExpected, x.cause)) ==
          [(some 6, some 5, .misplaced)]) = true := by decide +kernel

theorem witness_TurnRecordsAreSettledByOutcome :
    turn.Quiet ∧
    (heard 5 ⟨-12, 3, 200⟩).burstRecord =
      some ⟨0, 1000, .clean, some 5, some ⟨-12, 3, 200⟩, [[0xab#8]].map BurstUnit.data⟩ ∧
    (burst 3 1000 none none 0 []).burstRecord = some (bare .damaged 1000) ∧
    (burst 4 1000 none none 0 []).burstRecord = some (bare .empty 1000) ∧
    misplaces ⟨0, 1000, .clean, some 5, some ⟨-12, 3, 200⟩, [.data [0xab]]⟩
      { start := 1000, length := 8, expiry := 1024, grant := .data 5 9 } = false := by decide +kernel

/-- R143, R119, R147: within tolerance the station is maintained, and the unit goes to the forward buffer and out. -/
theorem test_turn_answered :
    after (exec (.burstRecord (heard 5 ⟨-12, 3, 200⟩)) turn) (fun t =>
      t.counter 0 .turnsAnswered == 1 && t.counter 0 .maintained == 1 &&
        (t.station 5).lastGood == some 1000 &&
        t.forwardBuffer == [{ channel := 0, start := 1000, station := 5, flow := some 9, data := [0xab] }]) = true ∧
    after (exec (.burstRecord (burst 4 1000 none none 0 [])) turn) (fun t =>
      t.counter 0 .noShow == 1 && (t.station 5).missCount == 0) = true := by decide +kernel

theorem witness_PollRecordsAreJudged :
    (poll .aligning).Quiet ∧ (poll .aligning).Reaches 5 0 ∧ (poll .online).Reaches 5 0 ∧ ¬ (poll .lost).Reaches 5 0 ∧
    (silent 5 ⟨900, -40, 9⟩).burstRecord = some ⟨0, 1000, .clean, some 5, some ⟨900, -40, 9⟩, []⟩ ∧
    findingOf ((poll .aligning).expectQueue 0) 1000 =
      .entry { start := 1000, length := 8, expiry := 1024, grant := .poll 5 } ∧
    misplaces ⟨0, 1000, .clean, some 5, some ⟨900, -40, 9⟩, []⟩
      { start := 1000, length := 8, expiry := 1024, grant := .poll 5 } = false := by decide +kernel

/-- Section 7.8: 900 and −40 give an adjustment of −900 and +24; −10 and 2 are within tolerance, and an ALIGNING station
not admitted becomes PARKED. -/
theorem test_poll :
    after (exec (.burstRecord (silent 5 ⟨900, -40, 9⟩)) (poll .aligning)) (fun t =>
      t.adjustQueue == [{ station := 5, channel := 0, timingStep := -900, powerStep := 24, aligned := false }] &&
        (t.station 5).timingTotal == -900 && (t.station 5).powerTotal == 24 && t.pollQueue 0 == [5]) = true ∧
    after (exec (.burstRecord (silent 5 ⟨-10, 2, 9⟩)) (poll .aligning)) (fun t =>
      (t.station 5).state == .parked && t.counter 0 .alignSuccess == 1 &&
        t.adjustQueue == [{ station := 5, channel := 0, timingStep := 0, powerStep := 0, aligned := true }]) = true := by
  decide +kernel

/-- A clean record of a join by hardware ID 77 at beat 1,000. -/
def joins (m : Option Measurement) : RawFrame := burst 0 1000 none m 1 (be 1 2 ++ be 6 77)

/-- The same with a behind flag ahead of it and another join unit behind it. -/
def behindJoin : RawFrame :=
  burst 0 1000 none (some ⟨900, -40, 9⟩) 3 (be 1 3 ++ be 1 2 ++ be 6 77 ++ be 1 2 ++ be 6 78)

/-- Channel 0 stands at beat 1,000 and expects a join there. -/
def joinable (s : State) : State := expecting s .join 1000

/-- R171: a CLEAN record without a MEASUREMENT is DAMAGED; with one, it is a join. -/
theorem witness_JoinRecordsAdmitOrRealign :
    (joinable running).Quiet ∧
    (joins (some ⟨900, -40, 9⟩)).burstRecord =
      some ⟨0, 1000, .clean, none, some ⟨900, -40, 9⟩, [.join 77]⟩ ∧
    (joins none).burstRecord = some (bare .damaged 1000) ∧
    findingOf ((joinable running).expectQueue 0) 1000 =
      .entry { start := 1000, length := 8, expiry := 1024, grant := .join } ∧
    (joinable running).lookupIdentity 77 = none ∧ (joinable running).freeList = 1 :: [2] ∧
    { joinable running with freeList := [] }.Quiet ∧
    { joinable (served .lost (bound .held)) with identity := [(77, 5)] }.lookupIdentity 77 = some 5 ∧
    { joinable (served .lost (bound .held)) with identity := [(77, 5)] }.Quiet ∧
    behindJoin.burstRecord =
      some ⟨0, 1000, .clean, none, some ⟨900, -40, 9⟩, [.behind] ++ .join 77 :: [.join 78]⟩ ∧
    1 ≤ ((joinable running).params 0).maxPowerStep ∧
    { joinable (enlisted 50) with identity := [(77, 5)] }.lookupIdentity 77 = some 5 ∧
    { joinable (enlisted 50) with identity := [(77, 5)] }.Quiet ∧
    { joinable (enlisted 50) with adjustQueue := [⟨5, 0, 4, 0, false⟩] }.adjustQueue.filter
      (fun a : AdjustEntry => decide (a.station ≠ 5)) = [] := by decide +kernel

/-- R105, R25: the newcomer takes number 1; a known ID keeps its number and realigns. -/
theorem test_join :
    after (exec (.burstRecord (joins (some ⟨900, -40, 9⟩))) (joinable running)) (fun t =>
      t.freeList == [2] && t.identity == [(77, 1)] && (t.station 1).state == .aligning &&
        (t.station 1).timingTotal == -900 && t.counter 0 .joinTaken == 1 &&
        t.notice .newcomer == some ⟨.newcomer 1 77 0, 1⟩) = true ∧
    after (exec (.burstRecord (joins (some ⟨0, 0, 9⟩)))
        { joinable (served .lost (bound .held)) with identity := [(77, 5)] }) (fun t =>
      t.freeList == [1, 2] && (t.station 5).state == .parked && (t.station 5).flowList == [9]) = true := by
  decide +kernel

/-- R25, R27, R147: a known station ONLINE leaves its list and realigns; the behind flag and the second join unit are
counted. -/
theorem test_rejoin :
    after (exec (.burstRecord behindJoin) { joinable (enlisted 50) with identity := [(77, 5)] }) (fun t =>
      (t.station 5).state == .aligning && (t.station 5).timingTotal == -900 && t.active 0 3 == [] &&
        (t.flow 9).listLevel == none && (t.flow 9).backlog == 50 && t.counter 0 .behindIgnored == 1 &&
        t.counter 0 .joinUnitDiscarded == 1) = true := by decide +kernel

/-- Channel 0 stands at beat 1,000 before openings with some marks, the only entry of plan 0's tally. -/
def opened (marks : List Mark) : State :=
  (expecting running (.request 2 marks 0) 1000).putContention 0
    { Contention.reset with openTallies := [⟨0, 4, 1, 0, 0, 0⟩] }

/-- The last opening of plan 0 unreported, its tally behind plan 9's, with a LATEST TALLY. -/
def tallied (l : Option LatestTally) : State :=
  (opened [.unreported, .empty]).putContention 0
    { Contention.reset with openTallies := [⟨9, 4, 1, 0, 0, 0⟩, ⟨0, 4, 1, 0, 0, 0⟩], latest := l }

theorem witness_OpeningRecordsMarkAndFinalize :
    (opened [.unreported, .unreported]).Quiet ∧ (opened [.unreported, .empty]).Quiet ∧
    (burst 2 1000 none none 0 []).burstRecord = some (bare .collided 1000) ∧
    findingOf ((opened [.unreported, .empty]).expectQueue 0) 1000 =
      .opening { start := 1000, length := 8, expiry := 1024, grant := .request 2 [.unreported, .empty] 0 } 0 ∧
    findingOf ((opened [.unreported, .unreported]).expectQueue 0) 1000 =
      .opening { start := 1000, length := 8, expiry := 1024, grant := .request 2 [.unreported, .unreported] 0 } 0 ∧
    Mark.unreported ∈ [Mark.collided, .unreported] ∧ Mark.unreported ∉ [Mark.collided, .empty] ∧
    ∀ l ∈ [none, some ⟨65535, 4, 0, 4, 0, true⟩, some ⟨1, 4, 0, 4, 0, false⟩],
      (tallied l).Quiet ∧
      ((tallied l).contentionOf 0).openTallies = [⟨9, 4, 1, 0, 0, 0⟩] ++ ⟨0, 4, 1, 0, 0, 0⟩ :: [] := by decide +kernel

/-- Plan 0's tally beside a LATEST TALLY of plan 65,535, unused and used, and of plan 1: each row of R100 is met. -/
theorem witness_TallyCounts :
    State.TallyCounts (some ⟨65535, 4, 0, 4, 0, false⟩) ⟨0, 4, 0, 1, 0, 1⟩ .tallySuperseded ∧
    ¬ State.TallyCounts (some ⟨65535, 4, 0, 4, 0, true⟩) ⟨0, 4, 0, 1, 0, 1⟩ .tallySuperseded ∧
    State.TallyCounts (some ⟨1, 4, 0, 4, 0, false⟩) ⟨0, 4, 0, 1, 0, 1⟩ .tallyStale := by
  simp [State.TallyCounts]

/-- R145, R100. -/
theorem test_opening :
    after (exec (.burstRecord (burst 2 1000 none none 0 [])) (opened [.unreported, .empty])) (fun t =>
      t.expectQueue 0 == [] && (t.contentionOf 0).latest == some ⟨0, 4, 1, 0, 1, false⟩ &&
        t.counter 0 .openingsCollided == 1 && t.counter 0 .talliesFinalized == 1) = true := by decide +kernel

/-- R100: plan 0 is later than plan 65,535, whose unused tally it supersedes, and stale beside plan 1's. -/
theorem test_latest_tally :
    after (exec (.burstRecord (burst 2 1000 none none 0 [])) (tallied (some ⟨65535, 4, 0, 4, 0, false⟩))) (fun t =>
      (t.contentionOf 0).latest == some ⟨0, 4, 1, 0, 1, false⟩ && t.counter 0 .tallySuperseded == 1 &&
        t.counter 0 .talliesFinalized == 1 && (t.contentionOf 0).openTallies == [⟨9, 4, 1, 0, 0, 0⟩]) = true ∧
    after (exec (.burstRecord (burst 2 1000 none none 0 [])) (tallied (some ⟨1, 4, 0, 4, 0, false⟩))) (fun t =>
      (t.contentionOf 0).latest == some ⟨1, 4, 0, 4, 0, false⟩ && t.counter 0 .tallyStale == 1 &&
        t.counter 0 .talliesFinalized == 0) = true := by decide +kernel

/-- A clean record of station 5 at beat 1,000: a request of 600 bytes for flow 9 that names station 6, and a behind flag. -/
def asking : RawFrame :=
  burst 0 1000 (some 5) (some ⟨0, 0, 9⟩) 2 (be 1 1 ++ be 2 9 ++ be 3 600 ++ be 1 1 ++ be 2 6 ++ be 1 3)

theorem witness_RequestHandoffsAreCheckedAndTaken :
    ((served .online (bound .active)).flow 9).state ≠ .idle ∧
    ((served .online (bound .active)).flow 9).station = some 5 ∧
    ((served .online (bound .active)).station 5).state = .online ∧ (6#16).toNat ≠ (5 : StationNo).val ∧
    ((served .online (bound .active)).flow 8).state = .idle ∧
    turn.Quiet ∧ (poll .online).Quiet ∧ (opened [.unreported, .unreported]).Quiet ∧ (joinable running).Quiet ∧
    asking.burstRecord =
      some ⟨0, 1000, .clean, some 5, some ⟨0, 0, 9⟩, [.request 9 600 (some 6), .behind]⟩ ∧
    findingOf (turn.expectQueue 0) 1000 = .entry { start := 1000, length := 8, expiry := 1024, grant := .data 5 9 } ∧
    misplaces ⟨0, 1000, .clean, some 5, some ⟨0, 0, 9⟩, [.request 9 600 (some 6), .behind]⟩
      { start := 1000, length := 8, expiry := 1024, grant := .data 5 9 } = false ∧
    behindJoin.burstRecord =
      some ⟨0, 1000, .clean, none, some ⟨900, -40, 9⟩, [.behind] ++ .join 77 :: [.join 78]⟩ ∧
    misplaces ⟨0, 1000, .clean, none, some ⟨900, -40, 9⟩, [.behind, .join 77, .join 78]⟩
      { start := 1000, length := 8, expiry := 1024, grant := .join } = false ∧
    findingOf ((opened [.unreported, .unreported]).expectQueue 0) 1000 =
      .opening { start := 1000, length := 8, expiry := 1024, grant := .request 2 [.unreported, .unreported] 0 } 0 := by
  decide +kernel

/-- R147, R92: at a turn the request is judged by the record's STATION, 5; at an opening by its own, 6. A behind flag raises
EXTRAS OWED of a PERIODIC entry's flow that stands in the calendar, and no other. -/
theorem test_units :
    after (exec (.burstRecord asking) turn) (fun t =>
      (t.flow 9).backlog == 600 && t.counter 0 .behindIgnored == 1) = true ∧
    after (exec (.burstRecord asking)
        (expecting (served .online (bound .active)) (.request 2 [.unreported, .unreported] 0) 1000)) (fun t =>
      (t.flow 9).backlog == 0 && t.counter 0 .requestMismatch == 1) = true ∧
    after (exec (.burstRecord asking) (expecting owing (.periodic 5 9) 1000)) (fun t =>
      (t.flow 9).extrasOwed == 3 && t.counter 0 .behindIgnored == 0) = true := by decide +kernel

/-- R51, R50: 600 and 500 bytes from station 5; a request that names station 6; one for a flow that is IDLE. -/
theorem test_request :
    (((served .online (bound .active)).requestHandoff 0 1000 9 600 (some 5)).requestHandoff 0 1000 9 500 none).active
        0 0 = [9] ∧
    ((((served .online (bound .active)).requestHandoff 0 1000 9 600 (some 5)).requestHandoff 0 1000 9 500
        none).flow 9).backlog = 1100 ∧
    ((served .online (bound .active)).requestHandoff 0 1000 9 600 (some 6)).counter 0 .requestMismatch = 1 ∧
    ((served .online (bound .active)).requestHandoff 0 1000 8 600 none).counter 0 .requestIgnored = 1 := by
  decide +kernel

/-! ## Witnesses: the System Link -/

/-- A READ of a class under way, for which the link is being used. -/
def busy : State :=
  { base with
    execution :=
      some (.reading { tag := 7, table := .policyA, next := 0, remaining := 2, results := [], ring := [] })
    systemLink := ⟨some [1], []⟩ }

theorem witness_ControlFramesAreQueuedOrRefused :
    { busy with controlQueue := List.replicate 15 (ctl 18 []) }.Quiet ∧
    { busy with controlQueue := List.replicate 16 (ctl 18 []) }.Quiet ∧
    { busy with
      inboundHold := true, heldArrival := true
      responseQueue := List.replicate 30 ⟨7, 18, .done, []⟩ }.Quiet := by decide +kernel

/-- R154: the 16th frame is queued, the 17th answered BUSY with its TAG and OPERATION. -/
theorem test_control_frame :
    after (exec (.controlFrame (ctl 18 [])) { busy with controlQueue := List.replicate 15 (ctl 18 []) }) (fun t =>
      t.controlQueue.length == 16 && t.responseQueue == []) = true ∧
    after (exec (.controlFrame (ctl 18 [])) { busy with controlQueue := List.replicate 16 (ctl 18 []) }) (fun t =>
      t.controlQueue.length == 16 && t.responseQueue == [⟨7, 18, .busy, []⟩] &&
        t.deviceCounter .framesBusy == 1) = true := by decide +kernel

/-- `base` with a notice pending and a unit to forward. -/
def speaking : State :=
  { base.raise (.channelStopped 0 .orderly) with
    forwardBuffer := [{ channel := 0, start := 1000, station := 5, flow := some 9, data := [0xab] }] }

theorem witness_SystemLinkSendsByPriority :
    busy.systemLink.sending.isSome = true ∧ speaking.systemLink.sending = none ∧
    speaking.responseQueue = [] ∧ vget speaking.noticeEnable NoticeKind.channelStopped.index = true ∧
    speaking.notice .channelStopped = some ⟨.channelStopped 0 .orderly, 1⟩ ∧
    (∀ j ∈ NoticeKind.all, j.index < NoticeKind.channelStopped.index → speaking.notice j = none) ∧
    (∀ j ∈ NoticeKind.all, { speaking with notices := base.notices }.notice j = none) := by decide +kernel

/-- R153, R167: the notice first, of KIND 11, COUNT 1, channel 0, ORDERLY; then the unit, after the frame end. -/
theorem test_departures :
    after (exec .noticeDeparture speaking) (fun t =>
      t.systemLink.sending.map (fun q => (q.drop 3).take 5) == some [0x0b#8, 0x00#8, 0x01#8, 0x00#8, 0x00#8] &&
        t.notice .channelStopped == none && t.deviceCounter .noticesSent == 1) = true ∧
    after (exec .forwardDeparture { speaking with notices := base.notices }) (fun t =>
      t.forwardBuffer == [] && t.deviceCounter .unitsForwarded == 1) = true ∧
    after (exec .systemLinkFrameEnd speaking) (fun t => t.notice .channelStopped == none) = true := by decide +kernel

/-! ## Witnesses: management -/

theorem witness_UnknownOpRefusesTheHeadFrame :
    (sends base 99 []).executionMayBegin = true ∧ (ctl 99 []).close = .frameEnd ∧
    (ctl 99 []).bytes.head? = some 7#8 ∧ (ctl 99 []).checkHolds = true ∧
    (ctl 99 []).declared = (ctl 99 []).body.length ∧ 3 ≤ (ctl 99 []).body.length ∧
    18 < (ctl 99 []).operation.toNat ∧ (ctl 18 [0]).operation.toNat = 18 ∧
    readOperands 18 ((ctl 18 [0]).body.drop 3) = none := by decide +kernel

theorem test_unknown_op :
    after (exec .unknownOp (sends base 19 [])) (fun t => answered t == some (.unknownOp, [])) = true ∧
    after (exec .unknownOp (sends base 18 [0])) (fun t => answered t == some (.malformed, [])) = true := by
  decide +kernel

/-- EPOCH 0 and FIRST START 1,000. -/
theorem witness_ChannelStartChecksAndStarts :
    Table.Canonical Station.reset base.stations ∧ Table.Canonical Flow.reset base.flows ∧
    (sends base 1 [0, 0, 0, 0, 0, 0, 0, 3, 232]).Executes (ctl 1 [0, 0, 0, 0, 0, 0, 0, 3, 232]) []
      (.channelStart 0 0 1000) := by decide +kernel

/-- R10: reference count 640 is beat 10; the first emit time is 968, in the future. R10, check 4: a first start of 42 has
its emit time at beat 10, which is not. -/
theorem test_channel_start :
    after (exec .channelStart (sends base 1 [0, 0, 0, 0, 0, 0, 0, 3, 232])) (fun t =>
      (t.context 0).state == .running && (t.context 0).currentBeat == 10 && (t.context 0).nextStart == 1000 &&
        (t.context 0).profileNumber == 1 && t.buildQueue == [{ channel := 0, emitTime := 968 }] &&
        answered t == some (.done, [])) = true ∧
    after (exec .channelStart (sends base 1 [0, 0, 0, 0, 0, 0, 0, 0, 42])) (fun t =>
      (t.context 0).state == .stopped && answered t == some (.tooLate, [])) = true := by decide +kernel

theorem witness_OrderlyStopDrainsTheChannel :
    (sends running 2 [0, 0]).Executes (ctl 2 [0, 0]) [] (.channelStop 0 0) ∧
    (sends running 2 [0, 2]).Executes (ctl 2 [0, 2]) [] (.channelStop 0 2) := by decide +kernel

/-- R12. -/
theorem test_orderly_stop :
    after (exec .channelStopOrderly (sends running 2 [0, 0])) (fun t =>
      (t.context 0).state == .draining && (t.context 0).drainMark == .beforeFinalSwap &&
        answered t == some (.done, [])) = true := by decide +kernel

/-- Channel 0, a plan awaiting departure and a turn expected. -/
def stopping : State := expecting (waiting (served .online (bound .active)) 900) (.data 5 9) 900

theorem witness_AbruptStopEndsTheChannelsWork :
    (sends stopping 2 [0, 1]).Executes (ctl 2 [0, 1]) [] (.channelStop 0 1) ∧
    (∀ b ∈ stopping.engine, b.channel ≠ 0) := by decide +kernel

/-- R14: the charge of 100 comes back, and nothing is left of the channel's work. -/
theorem test_abrupt_stop :
    after (exec .channelStopAbrupt (sends stopping 2 [0, 1])) (fun t =>
      (t.context 0).state == .stopped && (t.context 0).currentBeat == 900 && (t.flow 9).backlog == 100 &&
        t.expectQueue 0 == [] && t.counter 0 .plansWithdrawn == 1 && t.counter 0 .noShow == 0 &&
        t.notice .channelStopped == some ⟨.channelStopped 0 .abrupt, 1⟩) = true := by decide +kernel

theorem witness_ProfileCommitArmsThePendingProfile :
    (sends running 3 [0]).Executes (ctl 3 [0]) [] (.profileCommit 0) := by decide +kernel

/-- R15: RUNNING arms the profile; STOPPED is refused. -/
theorem test_profile_commit :
    after (exec .profileCommit (sends running 3 [0])) (fun t =>
      (t.context 0).armedProfile == some Page.default.profile && answered t == some (.done, [])) = true ∧
    after (exec .profileCommit (sends running 3 [1])) (fun t => answered t == some (.state, [])) = true := by
  decide +kernel

/-- Station 5 PARKED with three ACTIVE flows in its FLOW LIST: 10 and 9 with backlog, 11 PERIODIC. -/
def parking : State :=
  (((running.putStation 5 (member .parked [10, 9, 11])).putFlow 10 { bound .active with backlog := 7 }).putFlow 9
    { bound .active with backlog := 50 }).putFlow 11 (periodic none)

theorem witness_StationAdmitActsByState :
    (sends (served .parked { bound .active with backlog := 50 }) 4 [0, 5]).Executes (ctl 4 [0, 5]) []
      (.stationAdmit 5) ∧
    (sends parking 4 [0, 5]).Executes (ctl 4 [0, 5]) [] (.stationAdmit 5) ∧ (parking.station 5).state = .parked ∧
    (parking.station 5).flowList.all (fun g => (parking.flow g).station == some 5) = true := by decide +kernel

/-- R31, R28: the flows of a station of several enter in FLOW LIST order. -/
theorem test_station_admit :
    after (exec .stationAdmit (sends (served .parked { bound .active with backlog := 50 }) 4 [0, 5])) (fun t =>
      (t.station 5).state == .online && (t.station 5).admitted && t.active 0 0 == [9] &&
        t.notice .stationOnline == none) = true ∧
    after (exec .stationAdmit (sends (served .aligning (bound .held)) 4 [0, 5])) (fun t =>
      (t.station 5).state == .aligning && (t.station 5).admitted) = true ∧
    after (exec .stationAdmit (sends parking 4 [0, 5])) (fun t =>
      t.active 0 0 == [10, 9] && (t.calendar 0).waiting == [11]) = true := by decide +kernel

theorem witness_StationMoveRealignsElsewhere :
    (sends (enlisted 50) 5 [0, 5, 1]).Executes (ctl 5 [0, 5, 1]) [] (.stationMove 5 1) := by decide +kernel

/-- R32: out of channel 0's list and into channel 1's poll queue, BACKLOG kept; to its own channel it is BAD-VALUE. -/
theorem test_station_move :
    after (exec .stationMove (sends (enlisted 50) 5 [0, 5, 1])) (fun t =>
      (t.station 5).channel == 1 && (t.station 5).state == .aligning && t.pollQueue 1 == [5] &&
        t.active 0 3 == [] && (t.flow 9).backlog == 50) = true ∧
    after (exec .stationMove (sends (enlisted 50) 5 [0, 5, 0])) (fun t => answered t == some (.badValue, [])) =
      true := by decide +kernel

/-- Level 2 holds a second flow of station 5 and one of another station. -/
def shared : State :=
  (((enlisted 50).putStation 5 (member .online [9, 10])).putFlow 10
    { bound .active with backlog := 7, listLevel := some 2 }).putActive 0 2 [10, 8]

/-- R78, R27, R70: the flows of a moved station leave whole. The level being visited is empty and ends; the round begun below
it counts the one flow that is left. -/
theorem test_level_ends_after_the_event :
    after (exec .stationMove (sends (builds shared .visits whole) 5 [0, 5, 1])) (fun t =>
      t.active 0 2 == [8] &&
        t.engine.map (fun b => (b.level, b.roundRemaining)) == some (2, 1)) = true := by decide +kernel

theorem witness_StationReleaseFreesTheNumber :
    (sends (enlisted 50) 6 [0, 5]).Executes (ctl 6 [0, 5]) [] (.stationRelease 5) := by decide +kernel

/-- R34: the number goes to the tail of the free list. -/
theorem test_station_release :
    after (exec .stationRelease (sends (enlisted 50) 6 [0, 5])) (fun t =>
      t.station 5 == Station.reset && t.freeList == [1, 2, 5] && (t.flow 9).state == .idle &&
        t.active 0 3 == []) = true := by decide +kernel

theorem witness_FlowBindAppendsToTheFlowList :
    (sends (served .parked (bound .held)) 7 [0, 8, 0, 5]).Executes (ctl 7 [0, 8, 0, 5]) [] (.flowBind 8 5) := by
  decide +kernel

/-- R41. -/
theorem test_flow_bind :
    after (exec .flowBind (sends (served .parked (bound .held)) 7 [0, 8, 0, 5])) (fun t =>
      (t.flow 8).state == .held && (t.station 5).flowList == [9, 8]) = true ∧
    after (exec .flowBind (sends (served .parked (bound .held)) 7 [0, 9, 0, 5])) (fun t =>
      answered t == some (.state, [])) = true := by decide +kernel

/-- The last clauses stand at a calendar of 1,023 and of 1,024 flows. -/
theorem witness_FlowActivateActsByKindAndStation :
    (sends (served .online { bound .held with backlog := 10 }) 8 [0, 9]).Executes (ctl 8 [0, 9]) []
      (.flowActivate 9) ∧
    ((served .online (bound .held)).putCalendar 0 ⟨List.replicate 1023 8, []⟩).inCalendar 0 9 = false ∧
    ((served .online (bound .held)).putCalendar 0 ⟨List.replicate 1024 8, []⟩).inCalendar 0 9 = false ∧
    ((served .online (bound .held)).putCalendar 0 ⟨List.replicate 1024 8, []⟩).calendarFull 0 = true ∧
    ((served .online (bound .held)).putCalendar 0 ⟨List.replicate 1023 8, []⟩).calendarFull 0 = false := by
  decide +kernel

/-- R42. -/
theorem test_flow_activate :
    after (exec .flowActivate (sends (served .online { bound .held with backlog := 10 }) 8 [0, 9])) (fun t =>
      (t.flow 9).state == .active && t.active 0 0 == [9]) = true ∧
    after (exec .flowActivate (sends (served .online { periodic none with state := .held }) 8 [0, 9])) (fun t =>
      (t.flow 9).state == .active && (t.calendar 0).waiting == [9]) = true := by decide +kernel

theorem witness_FlowHoldAndUnbindTakeTheFlowOut :
    (sends (enlisted 50) 9 [0, 9]).Executes (ctl 9 [0, 9]) [] (.flowHold 9) ∧
    (sends (served .online (bound .held)) 10 [0, 9]).Executes (ctl 10 [0, 9]) [] (.flowUnbind 9) := by decide +kernel

/-- R43, R44. -/
theorem test_flow_hold_and_unbind :
    after (exec .flowHold (sends (enlisted 50) 9 [0, 9])) (fun t =>
      (t.flow 9).state == .held && t.active 0 3 == [] && (t.flow 9).backlog == 50) = true ∧
    after (exec .flowUnbind (sends (served .online (bound .held)) 10 [0, 9])) (fun t =>
      t.flow 9 == Flow.reset && (t.station 5).flowList == []) = true := by decide +kernel

/-- Channel 0 in SOURCE MODE DIRECTED, its build half holding some elements. -/
def directed (q : List Element) : State :=
  (running.putContext 0
    { runs with
      activePage := { Page.default with params := { Page.default.params with sourceMode := .directed } } }).putBuildHalf
    0 { PlanRecord.empty with elements := q }

theorem witness_PlanWriteAppendsValidElements :
    (sends (directed []) 11 [0, 1, 5, 0, 0, 1, 0, 0, 0, 0, 0]).Executes (ctl 11 [0, 1, 5, 0, 0, 1, 0, 0, 0, 0, 0]) []
      (.planWrite 0 [⟨5, 0, 256, 0, 0⟩]) := by decide +kernel

/-- R133: an IDLE element of 256 beats; one of 257 lies outside. -/
theorem test_plan_write :
    after (exec .planWrite (sends (directed []) 11 [0, 1, 5, 0, 0, 1, 0, 0, 0, 0, 0])) (fun t =>
      (t.buildHalf 0).elements == [{ offset := 0, length := 256, body := .idle }] &&
        answered t == some (.done, [1])) = true ∧
    after (exec .planWrite (sends (directed []) 11 [0, 1, 5, 0, 0, 1, 1, 0, 0, 0, 0])) (fun t =>
      (t.buildHalf 0).elements == [] && answered t == some (.badValue, [])) = true := by decide +kernel

/-- Elements with a gap at position 1, elements behind a HOLD, and elements that run past 256. -/
theorem witness_PlanReadyAndDiscard :
    (sends (directed [⟨0, 100, .idle⟩, ⟨101, 155, .idle⟩]) 12 [0]).Executes (ctl 12 [0]) [] (.planReady 0) ∧
    (101 : Nat) ≠ (([⟨0, 100, .idle⟩, ⟨101, 155, .idle⟩] : List Element).take 1 |>.map Element.length).sum ∧
    (∃ h ∈ ([⟨0, 100, .idle⟩, ⟨0, 0, .hold 5 9⟩, ⟨100, 156, .idle⟩] : List Element).take 2, h.isHold = true) ∧
    256 < (([⟨0, 200, .idle⟩, ⟨200, 100, .idle⟩] : List Element).map Element.length).sum ∧
    (sends (directed [⟨0, 256, .idle⟩]) 12 [0]).Executes (ctl 12 [0]) [] (.planReady 0) ∧
    (sends (directed [⟨0, 256, .idle⟩]) 13 [0]).Executes (ctl 13 [0]) [] (.planDiscard 0) := by decide +kernel

/-- R134, R135. That position 2 is named, and not the HOLD at 1, is the model's choice (assumption 23). -/
theorem test_plan_ready_and_discard :
    after (exec .planReady (sends (directed [⟨0, 256, .idle⟩]) 12 [0])) (fun t =>
      (t.buildHalf 0).ready && answered t == some (.done, [])) = true ∧
    after (exec .planReady (sends (directed [⟨0, 255, .idle⟩]) 12 [0])) (fun t =>
      !(t.buildHalf 0).ready && answered t == some (.layout, [1])) = true ∧
    after (exec .planReady (sends (directed [⟨0, 100, .idle⟩, ⟨0, 0, .hold 5 9⟩, ⟨100, 156, .idle⟩]) 12 [0])) (fun t =>
      answered t == some (.layout, [2])) = true ∧
    after (exec .planDiscard (sends (directed [⟨0, 256, .idle⟩]) 13 [0])) (fun t =>
      (t.buildHalf 0).elements == []) = true := by decide +kernel

/-- Records of POLICY-A, table 2. -/
theorem witness_ReadReturnsRecordImages :
    (sends base 14 [2, 0, 0, 1]).Executes (ctl 14 [2, 0, 0, 1]) [] (.read .policyA 0 1) ∧
    (sends base 14 [2, 0, 0, 2]).Executes (ctl 14 [2, 0, 0, 2]) [] (.read .policyA 0 2) ∧
    (sends base 14 [6, 0, 0, 0, 0, 0, 77, 1]).Executes (ctl 14 [6, 0, 0, 0, 0, 0, 77, 1]) [] (.readIdentity 77 1) ∧
    busy.Quiet ∧
    busy.execution =
      some (.reading { tag := 7, table := .policyA, next := 0, remaining := 2, results := [], ring := [] }) :=
  by decide +kernel

/-- TABLE 9 names none of the nine tables of R158. -/
theorem witness_NamesNoTable :
    (sends base 14 [9]).NamesNoTable (ctl 14 [9]) [] 14 ∧ (sends base 15 [9]).NamesNoTable (ctl 15 [9]) [] 15 ∧
    (sends base 16 [255]).NamesNoTable (ctl 16 [255]) [] 16 := by
  have h : ∀ op ∈ [14, 15, 16], ∀ b ∈ [9, 255],
      (sends base op [b]).executionMayBegin = true ∧ (ctl op [b]).bytes.head? = some 7#8 ∧
      (ctl op [b]).checkHolds = true ∧ (ctl op [b]).declared = (ctl op [b]).body.length ∧
      (ctl op [b]).body.length ≤ 1024 ∧ (ctl op [b]).operation.toNat = op ∧
      (ctl op [b]).body[3]? = some (BitVec.ofNat 8 b) ∧ 9 ≤ (BitVec.ofNat 8 b).toNat := by decide +kernel
  have k : ∀ op ∈ [14, 15, 16], ∀ b ∈ [9, 255], (sends base op [b]).NamesNoTable (ctl op [b]) [] op := by
    intro op ho b hb
    obtain ⟨h1, h2, h3, h4, h5, h6, h7⟩ := h op ho b hb
    exact ⟨h1, rfl, rfl, h2, h3, h4, h5, h6, _, h7⟩
  exact ⟨k 14 (by simp) 9 (by simp), k 15 (by simp) 9 (by simp), k 16 (by simp) 255 (by simp)⟩

/-- R158: BAD-TABLE goes ahead of every other check. -/
theorem test_bad_table :
    after (exec .read (sends base 14 [9])) (fun t => answered t == some (.badTable, [])) = true ∧
    after (exec .write (sends base 15 [9])) (fun t => answered t == some (.badTable, [])) = true ∧
    after (exec .fill (sends base 16 [255])) (fun t => answered t == some (.badTable, [])) = true := by
  decide +kernel

/-- R159, R47: PRIORITY 0, WEIGHT 1, MAX TURN 1,023, MIN TURN 1, HOLDS DISABLED. R23: hardware ID 77 is not found. -/
theorem test_read :
    after (exec .read (sends base 14 [2, 0, 0, 1])) (fun t =>
      answered t == some (.done, [0, 1, 3, 255, 1, 1])) = true ∧
    after (exec .read (sends base 14 [6, 0, 0, 0, 0, 0, 77, 1])) (fun t => answered t == some (.done, [0, 0, 0])) =
      true ∧
    after (exec .readRecord busy) (fun t =>
      after (exec .readRecord t) (fun u =>
        answered u == some (.done, [0, 1, 3, 255, 1, 1, 0, 1, 3, 255, 1, 1]) && u.execution == none)) = true := by
  decide +kernel

/-- A FILL of one FREE station that names no field. -/
def fillingStations : State :=
  { busy with
    execution :=
      some (.filling { tag := 7, table := .station, next := 3, remaining := 1, writes := [], written := 0, skipped := 0 }) }

/-- A value for each of the 29 fields of a page, those of the default page but for BEAT LENGTH 96 and LEAD 40. -/
def pageValue (j : Fin 29) : Nat :=
  (timing ++ turns ++ polls ++ contention ++ alignment ++ profile).getD j.val 0
where
  timing := [96, 256, 40, 16, 8]
  turns := [0, 4, 255]
  polls := [2, 32, 0, 8, 4, 1048576, 8]
  contention := [4, 32, 3, 10]
  alignment := [128, 4, 24]
  profile := [64, 4, 200, 16, 0, 64, 16]

/-- The operands of a WRITE of all of them to channel 0. -/
def wholePage : List Nat :=
  [5, 0, 0, 31, 255, 255, 255] ++
    (pageImage
      { Page.default with
        params := { Page.default.params with beatLength := 96, lead := 40 } }).map (fun b => b.toNat)

/-- POLICY SELECT is field 5 of STATION; WEIGHT is field 1 of a policy table; RATE and DEPTH are 5 and 6 of FLOW. -/
theorem witness_WriteChecksAndSetsMaskedFields :
    (sends (served .parked (bound .held)) 15 [0, 0, 5, 0, 0, 0, 32, 1]).Executes
      (ctl 15 [0, 0, 5, 0, 0, 0, 32, 1]) [] (.write .station 5 [(5, 1)]) ∧
    (sends base 15 [1, 0, 9, 0, 0, 0, 32, 0, 3, 232]).Executes (ctl 15 [1, 0, 9, 0, 0, 0, 32, 0, 3, 232]) []
      (.write .flow 9 [(5, 1000)]) ∧
    (sends base 15 [8, 0, 0, 0, 0, 0, 1, 1]).Executes (ctl 15 [8, 0, 0, 0, 0, 0, 1, 1]) [] (.write .device 0 [(0, 1)]) ∧
    (sends base 15 [2, 0, 0, 0, 0, 0, 0]).Executes (ctl 15 [2, 0, 0, 0, 0, 0, 0]) [] (.write .policyA 0 []) ∧
    (sends base 15 [1, 0, 9, 0, 0, 0, 96, 0, 3, 232, 0, 0, 200]).Executes
      (ctl 15 [1, 0, 9, 0, 0, 0, 96, 0, 3, 232, 0, 0, 200]) [] (.write .flow 9 [(5, 1000), (6, 200)]) ∧
    (sends base 15 [3, 0, 2, 0, 0, 0, 31, 6, 9, 0, 200, 4, 0]).Executes
      (ctl 15 [3, 0, 2, 0, 0, 0, 31, 6, 9, 0, 200, 4, 0]) []
      (.write .policyB 2 [(0, 6), (1, 9), (2, 200), (3, 4), (4, 0)]) ∧
    (sends base 15 [1, 0, 9, 0, 3, 192, 24, 1, 2, 6, 0, 100, 4, 0, 20]).Executes
      (ctl 15 [1, 0, 9, 0, 3, 192, 24, 1, 2, 6, 0, 100, 4, 0, 20]) []
      (.write .flow 9 [(3, 1), (4, 2), (14, 6), (15, 100), (16, 4), (17, 20)]) ∧
    (sends base 15 wholePage).Executes (ctl 15 wholePage) []
      (.write .channelPending 0 ((List.finRange 29).map (fun j => (j.val, pageValue j)))) := by decide +kernel

/-- R160, R35, R45: a station's POLICY SELECT; a flow's RATE gives it a full bucket. -/
theorem test_write :
    after (exec .write (sends (served .parked (bound .held)) 15 [0, 0, 5, 0, 0, 0, 32, 1])) (fun t =>
      (t.station 5).policySelect == .b && answered t == some (.done, [])) = true ∧
    after (exec .write (sends base 15 [1, 0, 9, 0, 0, 0, 32, 0, 3, 232])) (fun t =>
      (t.flow 9).rate == 1000 && (t.flow 9).credit == some 65536) = true ∧
    after (exec .write (sends base 15 [2, 0, 0, 0, 0, 0, 2, 0])) (fun t =>
      answered t == some (.badValue, []) && (t.policyClass .a 0).weight == 1) = true ∧
    after (exec .write (sends base 15 [1, 0, 9, 0, 0, 0, 96, 0, 3, 232, 0, 0, 200])) (fun t =>
      (t.flow 9).credit == some 200) = true := by decide +kernel

/-- R160, R161, R35: a WRITE that names no field passes every check, on a FREE station too; a FILL skips the record. -/
theorem test_empty_mask :
    after (exec .write (sends base 15 [0, 0, 3, 0, 0, 0, 0])) (fun t => answered t == some (.done, [])) = true ∧
    after (exec .fillRecord fillingStations) (fun t =>
      answered t == some (.done, [0, 0, 0, 1]) && t.station 3 == Station.reset) = true := by decide +kernel

/-- A FILL of WEIGHT 9 into a class, the second of three. -/
def filling : State :=
  { busy with
    execution :=
      some (.filling
        { tag := 7, table := .policyA, next := 1, remaining := 2, writes := [(1, 9)], written := 1, skipped := 0 }) }

theorem witness_FillWritesRecordByRecord :
    (sends base 16 [2, 0, 0, 3, 0, 0, 0, 2, 9]).Executes (ctl 16 [2, 0, 0, 3, 0, 0, 0, 2, 9]) []
      (.fill .policyA 0 3 [(1, 9)]) ∧
    filling.Quiet ∧ fillingStations.Quiet ∧ (fillingStations.station (Fin.ofNat 8192 3)).state = .free := by
  decide +kernel

/-- R161. -/
theorem test_fill :
    after (exec .fill (sends base 16 [2, 0, 0, 3, 0, 0, 0, 2, 9])) (fun t =>
      t.execution ==
          some (.filling
            { tag := 7, table := .policyA, next := 0, remaining := 3, writes := [(1, 9)], written := 0
              skipped := 0 }) && t.responseQueue == []) = true ∧
    after (exec .fillRecord filling) (fun t =>
      after (exec .fillRecord t) (fun u =>
        (u.policyClass .a 1).weight == 9 && (u.policyClass .a 2).weight == 9 && (u.policyClass .a 3).weight == 1 &&
          answered u == some (.done, [0, 3, 0, 0]) && u.execution == none)) = true := by decide +kernel

theorem witness_CountersReturnsAndClears :
    (sends base 17 [8, 1]).Executes (ctl 17 [8, 1]) [] (.counters 8 1) ∧
    (sends base 17 [0, 0]).Executes (ctl 17 [0, 0]) [] (.counters 0 0) := by decide +kernel

/-- R164, R163: FRAMES TAKEN, the eighth of the device's eleven, has counted the COUNTERS itself. -/
theorem test_counters :
    after (exec .counters (sends base 17 [8, 1])) (fun t =>
      (answered t).map (fun x => (x.1, x.2.length, (x.2.drop 28).take 4)) ==
          some (.done, 44, [0x00#8, 0x00#8, 0x00#8, 0x01#8]) && t.deviceCounter .framesTaken == 0) = true := by
  decide +kernel

theorem witness_ClearKeepsTheConfiguration :
    (sends running 18 []).Executes (ctl 18 []) [] .clear := by decide +kernel

/-- R169, R168: CLEAR keeps LAST REFERENCE; a line reset does not. -/
theorem test_clear_and_reset :
    after (exec .clear (sends (enlisted 50) 18 [])) (fun t =>
      (t.context 0).state == .stopped && t.flows == [] && t.lastReference == 640 && answered t == some (.done, [])) =
      true ∧
    after (exec (.lineReset true) (sends (enlisted 50) 18 [])) (fun t =>
      t.lastReference == 0 && t.responseQueue == [] && t.planLinkHold && t.controlQueue == []) = true := by
  decide +kernel

/-! ## Witnesses: headline results -/

theorem witness_CapacityIsTheLargestPayloadThatFits :
    1 ≤ profile17.symbolsPerBeat ∧ 1 ≤ profile17.bitsPerSymbol ∧ 1 ≤ profile17.infoBytes ∧ 1 ≤ 71 := by decide +kernel

/-- A lawful state that is not the reset state, about to take a step. -/
def lively : State :=
  { served .online (bound .active) with
    pending := [.planLinkHold], controlQueue := [ctl 18 []], responseQueue := [⟨7, 18, .done, []⟩] }

/-- Channel 0's first request waits, and is about to be taken. -/
def buildable : State := { queued with pending := [.buildBegin] }

theorem buildable_lawful : buildable.BuildsLawful := by
  have none_under_build (c : ChanNo) : buildable.buildCondition c ≠ .underBuild := by revert c; decide +kernel
  have idle : buildable.engine = none := rfl
  have one_waits : buildable.buildQueue = [{ channel := 0, emitTime := 968 }] := rfl
  unfold State.BuildsLawful State.Builds
  rw [one_waits, idle]
  have waits : ([{ channel := 0, emitTime := 968 }] : List BuildRequest).map (fun r => r.channel) = [0] := rfl
  rw [waits]
  constructor
  · decide
  constructor
  · decide +kernel
  constructor
  · decide +kernel
  simp only [none_under_build, false_iff]
  constructor
  · rintro c ⟨b, hb, -⟩
    simp at hb
  · exact ⟨fun b hb => by simp at hb, by decide +kernel⟩

theorem witness_EveryStepKeepsChannelsLawful :
    lively.ChannelsLawful ∧ after (step lively) (fun t => t.planLinkHold) = true ∧
    buildable.BuildsLawful ∧ after (step buildable) (fun t => t.engine.isSome) = true := by
  have steps : after (step lively) (fun t => t.planLinkHold) = true ∧
      after (step buildable) (fun t => t.engine.isSome) = true := by decide +kernel
  have h : lively.ChannelsLawful := by
    unfold State.ChannelsLawful ChannelContext.Lawful
    decide +kernel
  exact ⟨h, steps.1, buildable_lawful, steps.2⟩

theorem witness_EveryStepKeepsRoomForResponses :
    lively.QueuesHaveRoom ∧ after (step lively) (fun t => t.planLinkHold) = true := by
  unfold State.QueuesHaveRoom
  decide +kernel

/-- Every number but 0, in order. -/
def numbers : List StationNo := (List.finRange 8191).map Fin.succ

/-- Number 0 is taken by hardware ID 77, ALIGNING, with flow 9 in its FLOW LIST. -/
def numbered : State :=
  { State.reset with
    pending := [.planLinkHold], freeList := numbers, identity := [(77, 0)] }.putStation 0
    { State.newcomerRecord 77 0 with flowList := [9] }

/-- Flow 9 is bound to station 0. -/
def recorded : State := numbered.putFlow 9 { Flow.reset with state := .held, station := some 0 }

theorem recorded_station (n : StationNo) :
    recorded.station n = if n = 0 then { State.newcomerRecord 77 0 with flowList := [9] } else Station.reset := by
  rw [recorded, State.putFlow_station, numbered, State.station_putStation]
  split
  · rfl
  · rfl

theorem recorded_flow (f : FlowNo) :
    recorded.flow f = if f = 9 then { Flow.reset with state := .held, station := some 0 } else Flow.reset := by
  rw [recorded, State.flow_putFlow]
  split
  · rfl
  · rfl

theorem recorded_freeList : recorded.freeList = numbers := by
  rw [recorded, State.putFlow_freeList, numbered, State.putStation_freeList]

/-- The FREE numbers are those of `numbers`, and 0 alone has a hardware ID. -/
theorem recorded_numbers : recorded.NumbersLawful := by
  have free (n : StationNo) : (recorded.station n).state = .free ↔ n ≠ 0 := by
    rw [recorded_station]
    split <;> simp_all [State.newcomerRecord, Station.reset]
  have hold (n : StationNo) : (recorded.station n).hardwareId = if n = 0 then some 77 else none := by
    rw [recorded_station]
    split <;> rfl
  constructor
  · rw [recorded_freeList]
    exact (List.nodup_finRange 8191).map (Fin.succ_injective 8191)
  constructor
  · intro n
    rw [free, recorded_freeList, numbers, List.mem_map]
    constructor
    · rintro ⟨k, -, rfl⟩
      exact Fin.succ_ne_zero k
    · intro h
      exact ⟨n.pred h, List.mem_finRange _, Fin.succ_pred n h⟩
  constructor
  · intro n h
    rw [recorded_station, if_neg ((free n).1 h)]
  constructor
  · intro n h
    have e : n = 0 := by_contra (fun k => h ((free n).2 k))
    simp [hold, e]
  have one : recorded.identity = [(77, 0)] := rfl
  constructor
  · rw [one]
    decide
  · intro h n
    rw [one, hold, List.mem_singleton, Prod.mk.injEq]
    by_cases e : n = 0 <;> simp [e, eq_comm]

/-- Flow 9 alone is bound, to station 0. -/
theorem recorded_flowLists : recorded.FlowListsLawful := by
  have lists (n : StationNo) : (recorded.station n).flowList = if n = 0 then [9] else [] := by
    rw [recorded_station]
    split <;> rfl
  have at' (f : FlowNo) : (recorded.flow f).station = if f = 9 then some 0 else none := by
    rw [recorded_flow]
    split <;> rfl
  have idle (f : FlowNo) : (recorded.flow f).state = .idle ↔ f ≠ 9 := by
    rw [recorded_flow]
    split <;> simp_all [Flow.reset]
  refine ⟨fun n => ?_, fun n f => ?_, fun f => ?_⟩
  · rw [lists]
    split <;> decide
  · rw [lists, at']
    by_cases e : n = 0 <;> by_cases g : f = 9 <;> simp [e, g, eq_comm]
  · rw [idle, at']
    simp

/-- Nothing is queued for a poll, enlisted, or in a calendar. -/
theorem recorded_lawful : recorded.RecordsLawful := by
  have empty : (∀ c, recorded.pollQueue c = []) ∧ (∀ c l, recorded.active c l = []) ∧
      ∀ c, recorded.calendar c = ⟨[], []⟩ := by decide +kernel
  obtain ⟨polls, lists, calendars⟩ := empty
  have out (n : StationNo) : (recorded.station n).inPollQueue = false := by
    rw [recorded_station]
    split <;> rfl
  have off (f : FlowNo) : (recorded.flow f).listLevel = none ∧ (recorded.flow f).state ≠ .active ∧
      (recorded.flow f).nextNominal = none := by
    rw [recorded_flow]
    split <;> simp [Flow.reset]
  refine ⟨recorded_numbers, recorded_flowLists, ?_, ?_, ?_⟩
  · simp [State.PollQueuesLawful, polls, out]
  · simp [State.ListsLawful, lists, off]
  · simp [State.CalendarsLawful, calendars, off]

theorem lively_collections : lively.CollectionsBounded := collectionsBounded_of rfl (by decide +kernel)

theorem recorded_flows : recorded.FlowsBounded := by
  unfold State.FlowsBounded
  have none_waits : ∀ c, (recorded.calendar c).waiting.length + (recorded.calendar c).timed.length ≤ 1024 := by
    decide +kernel
  refine And.intro (fun f => ?_) none_waits
  rw [recorded_flow]
  split <;> simp [Flow.reset]

theorem witness_EveryStepKeepsBounds :
    lively.CountersBounded ∧ lively.CollectionsBounded ∧ recorded.TablesInForm ∧ recorded.RecordsLawful ∧
    recorded.FlowsBounded ∧ after (step lively) (fun t => t.planLinkHold) = true ∧
    after (step recorded) (fun t => t.planLinkHold) = true := by
  have form : recorded.TablesInForm := by
    unfold State.TablesInForm
    decide +kernel
  exact ⟨countersBounded_of rfl rfl rfl, lively_collections, form, recorded_lawful, recorded_flows, by decide +kernel⟩

end Sys2Proof.Tests
end

section
/-! SUPPORT. The operations of management on stations: what a whole execution leaves, and what a departure from ONLINE, a
change of every flow of a station and the queues of a station leave (R27, R110, R121, R156). -/

namespace Sys2Proof.Machine

/-! ## Operands as indices (R157) -/

@[simp] theorem asIndex_val {k : Nat} (n : Fin k) : asIndex k n.val = some n := by simp [asIndex]

theorem asIndex_eq_none {k i : Nat} (h : k ≤ i) : asIndex k i = none := by simp [asIndex, Nat.not_lt.2 h]

namespace State

/-! ## Whole executions (R155, R156) -/

/-- The row of the head frame's operation executes it. -/
theorem executeRow_executes {s : State} {f : RawFrame} {q : List RawFrame} {o : Op} (h : s.Executes f q o) :
    s.executeRow (Parsed.row (.op o)) = s.executeFrame f q := by
  obtain ⟨may, queue, carries⟩ := h
  rw [← carries]
  exact executeRow_head may queue

/-- An operation keeps what the execution around it writes. -/
def ManagementKept (s t : State) : Prop :=
  t.controlQueue = s.controlQueue ∧ t.responseQueue = s.responseQueue ∧ t.inboundHold = s.inboundHold ∧
    t.deviceCounters = s.deviceCounters

/-- An operation answered DONE leaves its own state with the response at the tail of the queue. -/
theorem executeFrame_done {s u : State} {f : RawFrame} {q : List RawFrame} {o : Op} (h : s.Executes f q o)
    (ho : (s.beginFrame q).operate f.tag o = .ends (u.answer .done)) (kept : (s.beginFrame q).ManagementKept u) :
    s.executeFrame f q = u.pushResponse (responseTo f .done []) ∧
      s.Answers (u.pushResponse (responseTo f .done [])) f q .done [] := by
  obtain ⟨control, responses, hold, counters⟩ := kept
  have same : s.executeFrame f q = u.pushResponse (responseTo f .done []) := executeFrame_ends h.2.2 ho
  exact ⟨same, same ▸ (executeFrame_answers h ho responses control hold counters).1⟩

/-- An operation refused leaves nothing but what every execution does. -/
theorem executeFrame_refused {s : State} {f : RawFrame} {q : List RawFrame} {o : Op} {code : Code}
    (h : s.Executes f q o) (ho : (s.beginFrame q).operate f.tag o = .ends ((s.beginFrame q).answer code)) :
    s.Answers (s.executeFrame f q) f q code [] ∧ s.executeFrame f q = s.managed (s.executeFrame f q) := by
  obtain ⟨answers, frame⟩ := executeFrame_answers h ho rfl rfl rfl rfl
  refine ⟨answers, ?_⟩
  rw [managed, answers.1]
  exact frame

/-! ## One flow leaves its list and its calendar (R27, R58, R87) -/

theorem delist_flow (s : State) (c : ChanNo) (f g : FlowNo) :
    (s.delist c f).flow g =
      if g = f then
        { s.flow f with
          listLevel := none, deficit := if (s.flow f).listLevel.isSome then 0 else (s.flow f).deficit }
      else s.flow g := by
  obtain ⟨out, e⟩ | ⟨l, x, enlisted, e⟩ := delist_cases s c f
  · rw [e]
    split
    · next same =>
      subst same
      cases record : s.flow g
      simp_all
    · rfl
  · simp [e, flow_putFlow, enlisted]

theorem delist_active (s : State) (c : ChanNo) (f : FlowNo) (d : ChanNo) (l : Level) :
    (s.delist c f).active d l =
      if d = c ∧ (s.flow f).listLevel = some l then (s.active c l).erase f else s.active d l := by
  obtain ⟨out, e⟩ | ⟨m, x, enlisted, e⟩ := delist_cases s c f
  · simp [e, out]
  · rw [e, enlisted, putEngine_active, putFlow_active]
    split
    · next here =>
      obtain ⟨rfl, level⟩ := here
      cases level
      simp
    · next elsewhere => exact active_putActive_ne s (fun x => elsewhere ⟨x.1, by rw [x.2]⟩) _

theorem delist_calendars (s : State) (c : ChanNo) (f : FlowNo) : (s.delist c f).calendars = s.calendars := by
  obtain ⟨-, e⟩ | ⟨l, x, -, e⟩ := delist_cases s c f <;> rw [e]
  rfl

theorem delist_inCalendar (s : State) (c d : ChanNo) (f g : FlowNo) :
    (s.delist c f).inCalendar d g = s.inCalendar d g := by
  simp only [inCalendar, calendar, delist_calendars]

theorem leaveCalendar_active (s : State) (c : ChanNo) (f : FlowNo) (d : ChanNo) (l : Level) :
    (s.leaveCalendar c f).active d l = s.active d l := by
  unfold leaveCalendar
  split <;> rfl

/-- A flow that leaves leaves both parts of the calendar; one that is not there leaves nothing. -/
theorem leaveCalendar_calendar (s : State) (c : ChanNo) (f : FlowNo) :
    (s.leaveCalendar c f).calendar c =
      { waiting := (s.calendar c).waiting.erase f, timed := (s.calendar c).timed.erase f } := by
  unfold leaveCalendar
  split
  · simp
  · next out =>
    simp only [inCalendar, Bool.or_eq_true, List.contains_iff_mem, not_or] at out
    rw [List.erase_of_not_mem out.1, List.erase_of_not_mem out.2]

theorem leaveCalendar_calendar_ne (s : State) {c d : ChanNo} (h : d ≠ c) (f : FlowNo) :
    (s.leaveCalendar c f).calendar d = s.calendar d := by
  unfold leaveCalendar
  split
  · simp [calendar_putCalendar_ne _ h]
  · rfl

theorem leaveCalendar_flow (s : State) (c : ChanNo) (f g : FlowNo) :
    (s.leaveCalendar c f).flow g =
      if g = f then
        { s.flow f with
          nextNominal := if s.inCalendar c f then none else (s.flow f).nextNominal
          extrasOwed := if s.inCalendar c f then 0 else (s.flow f).extrasOwed }
      else s.flow g := by
  unfold leaveCalendar
  split
  · next here => simp [flow_putFlow]
  · next out =>
    split
    · next same => rw [same]
    · rfl

theorem inCalendar_iff (s : State) (c : ChanNo) (f : FlowNo) :
    s.inCalendar c f = true ↔ f ∈ (s.calendar c).waiting ∨ f ∈ (s.calendar c).timed := by
  simp [inCalendar]

/-- The flow that leaves is as State.outOfLists says; every other flow stays. -/
theorem offlineFlow_flow (s : State) (c : ChanNo) (f g : FlowNo) :
    (s.offlineFlow c f).flow g = if g = f then s.outOfLists c f else s.flow g := by
  unfold offlineFlow
  rw [leaveCalendar_flow]
  split
  · simp only [delist_flow, delist_inCalendar, inCalendar_iff, if_true, outOfLists]
  · next other => rw [delist_flow, if_neg other]

theorem offlineFlow_active (s : State) (c : ChanNo) (f : FlowNo) (d : ChanNo) (l : Level) :
    (s.offlineFlow c f).active d l =
      if d = c ∧ (s.flow f).listLevel = some l then (s.active c l).erase f else s.active d l := by
  rw [offlineFlow, leaveCalendar_active, delist_active]

theorem offlineFlow_calendar (s : State) (c : ChanNo) (f : FlowNo) :
    (s.offlineFlow c f).calendar c =
      { waiting := (s.calendar c).waiting.erase f, timed := (s.calendar c).timed.erase f } := by
  rw [offlineFlow, leaveCalendar_calendar, calendar, delist_calendars, calendar]

theorem offlineFlow_calendar_ne (s : State) {c d : ChanNo} (h : d ≠ c) (f : FlowNo) :
    (s.offlineFlow c f).calendar d = s.calendar d := by
  rw [offlineFlow, leaveCalendar_calendar_ne _ h, calendar, delist_calendars, calendar]

/-- One flow's leaving settles what the leaving of any flow after it does to its record: a flow that leaves twice leaves
once. -/
theorem outOfLists_offlineFlow (s : State) (c : ChanNo) (f g : FlowNo) :
    (s.offlineFlow c f).outOfLists c g = s.outOfLists c g := by
  by_cases same : g = f
  · subst same
    have again : (s.offlineFlow c g).inCalendar c g = true → s.inCalendar c g = true := by
      simp only [inCalendar_iff, offlineFlow_calendar]
      exact Or.imp List.mem_of_mem_erase List.mem_of_mem_erase
    simp only [outOfLists, offlineFlow_flow, ← inCalendar_iff, if_true, Option.isSome_none, Bool.false_eq_true,
      if_false]
    by_cases here : s.inCalendar c g = true
    · simp [here]
    · simp [here, mt again here]
  · have stays (q : List FlowNo) : g ∈ q.erase f ↔ g ∈ q := List.mem_erase_of_ne same
    simp only [outOfLists, offlineFlow_flow, if_neg same, offlineFlow_calendar, stays]

/-! ## The flows of a list leave one after another (R27) -/

/-- Every flow of the list is as State.outOfLists says; every other stays. -/
theorem offlineFlows_flow (c : ChanNo) (g : FlowNo) : ∀ (q : List FlowNo) (s : State),
    (q.foldl (fun t f => t.offlineFlow c f) s).flow g = if g ∈ q then s.outOfLists c g else s.flow g
  | [], _ => by simp
  | f :: q, s => by
    rw [List.foldl_cons, offlineFlows_flow c g q, outOfLists_offlineFlow, offlineFlow_flow]
    by_cases same : g = f <;> simp [same]

theorem offlineFlows_active_ne {c d : ChanNo} (h : d ≠ c) (l : Level) : ∀ (q : List FlowNo) (s : State),
    (q.foldl (fun t f => t.offlineFlow c f) s).active d l = s.active d l
  | [], _ => rfl
  | f :: q, s => by
    rw [List.foldl_cons, offlineFlows_active_ne h l q, offlineFlow_active, if_neg (fun x => h x.1)]

theorem offlineFlows_calendar_ne {c d : ChanNo} (h : d ≠ c) : ∀ (q : List FlowNo) (s : State),
    (q.foldl (fun t f => t.offlineFlow c f) s).calendar d = s.calendar d
  | [], _ => rfl
  | f :: q, s => by rw [List.foldl_cons, offlineFlows_calendar_ne h q, offlineFlow_calendar_ne s h]

/-- A level keeps, in their order, the flows that are not leaving from it. -/
theorem offlineFlows_active (c : ChanNo) (l : Level) : ∀ (q : List FlowNo) (s : State), (s.active c l).Nodup →
    (q.foldl (fun t f => t.offlineFlow c f) s).active c l =
      (s.active c l).filter (fun g => decide (¬ (g ∈ q ∧ (s.flow g).listLevel = some l)))
  | [], s, _ => by simp
  | f :: q, s, nodup => by
    have one := offlineFlow_active s c f c l
    simp only [true_and] at one
    rw [List.foldl_cons, offlineFlows_active c l q _ (by rw [one]; split; exacts [nodup.erase f, nodup]), one]
    split
    · next leaves =>
      rw [nodup.erase_eq_filter, List.filter_filter]
      refine List.filter_congr fun g _ => ?_
      by_cases same : g = f <;> simp [offlineFlow_flow, same, leaves]
    · next stays =>
      refine List.filter_congr fun g _ => ?_
      by_cases same : g = f <;> simp [offlineFlow_flow, same, stays, outOfLists]

/-- The calendar keeps, in their order, the flows that are not leaving. -/
theorem offlineFlows_calendar (c : ChanNo) : ∀ (q : List FlowNo) (s : State), (s.calendar c).waiting.Nodup →
    (s.calendar c).timed.Nodup →
    (q.foldl (fun t f => t.offlineFlow c f) s).calendar c =
      { waiting := (s.calendar c).waiting.filter (fun g => decide (g ∉ q))
        timed := (s.calendar c).timed.filter (fun g => decide (g ∉ q)) }
  | [], s, _, _ => by simp
  | f :: q, s, waiting, timed => by
    have rest (p : List FlowNo) (nodup : p.Nodup) :
        (p.erase f).filter (fun g => decide (g ∉ q)) = p.filter (fun g => decide (g ∉ f :: q)) := by
      rw [nodup.erase_eq_filter, List.filter_filter]
      exact List.filter_congr fun g _ => by by_cases same : g = f <;> simp [same]
    rw [List.foldl_cons, offlineFlows_calendar c q] <;> rw [offlineFlow_calendar]
    · simp only [rest _ waiting, rest _ timed]
    · exact waiting.erase f
    · exact timed.erase f

theorem offlineFlows_listsWithout (s : State) (c : ChanNo) (q : List FlowNo) :
    s.ListsWithout (q.foldl (fun t f => t.offlineFlow c f) s) c q :=
  ⟨fun _ l h => offlineFlows_active_ne h l q s, fun l nodup => offlineFlows_active c l q s nodup,
    fun _ h => offlineFlows_calendar_ne h q s, offlineFlows_calendar c q s⟩

/-! ## A station leaves ONLINE (R27) -/

/-- What is left of the lists when a station has left ONLINE. -/
theorem leavesOnline_takenOffline (s : State) (n : StationNo) : s.LeavesOnline (s.takenOffline n) n := by
  show s.LeavesOnline (s.leaveOnline n) n
  unfold leaveOnline
  split
  · next online => exact ⟨fun _ => offlineFlows_listsWithout s _ _, absurd online⟩
  · next off => exact ⟨fun online => absurd online off, fun _ => ⟨rfl, rfl⟩⟩

/-- What is left of the flows when a station has left ONLINE. -/
theorem takenOffline_flow (s : State) (n : StationNo) (g : FlowNo) :
    (s.takenOffline n).flow g = if g ∈ (s.station n).flowList then s.flowOff n g else s.flow g := by
  show (s.leaveOnline n).flow g = _
  unfold leaveOnline flowOff
  split
  · exact offlineFlows_flow _ g _ s
  · simp

/-- Whether a station left ONLINE is read from the lists and the calendars. -/
theorem leavesOnline_congr {s t u : State} {n : StationNo} (h : s.LeavesOnline t n)
    (lists : u.activeLists = t.activeLists) (calendars : u.calendars = t.calendars) : s.LeavesOnline u n := by
  have active (d : ChanNo) (l : Level) : u.active d l = t.active d l := by rw [active, lists, active]
  have calendar (d : ChanNo) : u.calendar d = t.calendar d := by rw [calendar, calendars, calendar]
  simpa only [LeavesOnline, ListsWithout, active, calendar, lists, calendars] using h

/-! ## A change of every flow of a list -/

theorem mapFlows_cons (s : State) (f : FlowNo) (q : List FlowNo) (g : Flow → Flow) :
    s.mapFlows (f :: q) g = (s.putFlow f (g (s.flow f))).mapFlows q g := rfl

/-- A change writes the flow records alone. -/
theorem mapFlows_frame (g : Flow → Flow) : ∀ (q : List FlowNo) (s : State),
    s.mapFlows q g = { s with flows := (s.mapFlows q g).flows }
  | [], _ => rfl
  | f :: q, s => by
    rw [mapFlows_cons, mapFlows_frame g q (s.putFlow f (g (s.flow f)))]
    rfl

/-- A change that is the same twice changes each flow of the list once. -/
theorem mapFlows_flow {g : Flow → Flow} (twice : ∀ x, g (g x) = g x) (f : FlowNo) :
    ∀ (q : List FlowNo) (s : State), (s.mapFlows q g).flow f = if f ∈ q then g (s.flow f) else s.flow f
  | [], _ => by simp [mapFlows]
  | h :: q, s => by
    rw [mapFlows_cons, mapFlows_flow twice f q, flow_putFlow]
    by_cases same : f = h <;> simp [same, twice]

theorem lostFlow_twice (x : Flow) : lostFlow (lostFlow x) = lostFlow x := rfl

theorem unboundFlow_twice (x : Flow) : unboundFlow (unboundFlow x) = unboundFlow x := by
  cases credit : x.credit <;> simp [unboundFlow, credit]

/-- A state that differs in flows, active lists, calendars and the engine only, those four named. -/
theorem ListFrame.parts {s t : State} (h : s.ListFrame t) :
    ∃ fs as cs e, t = { s with flows := fs, activeLists := as, calendars := cs, engine := e } := ⟨_, _, _, _, h⟩

/-- What a station's departure from ONLINE and a change of all its flows leave together (R32, R33, R34). -/
theorem takenOffline_mapFlows (s : State) (n : StationNo) {g : Flow → Flow} (twice : ∀ x, g (g x) = g x) :
    s.ListFrame ((s.takenOffline n).mapFlows (s.station n).flowList g) ∧
    s.LeavesOnline ((s.takenOffline n).mapFlows (s.station n).flowList g) n ∧
    s.BuildSees ((s.takenOffline n).mapFlows (s.station n).flowList g) ∧
    ∀ f, ((s.takenOffline n).mapFlows (s.station n).flowList g).flow f =
      if f ∈ (s.station n).flowList then g (s.flowOff n f) else s.flow f := by
  have changed := mapFlows_frame g (s.station n).flowList (s.takenOffline n)
  refine ⟨?_, ?_, ?_, fun f => ?_⟩
  · obtain ⟨fs, as, cs, e, left⟩ := (listFrame_takenOffline s n).parts
    rw [ListFrame, changed, left]
  · rw [changed]
    exact leavesOnline_congr (leavesOnline_takenOffline s n) rfl rfl
  · rw [changed]
    exact buildSees_congr (buildSees_takenOffline s n) rfl rfl
  · rw [mapFlows_flow twice, takenOffline_flow]
    split <;> rfl

/-! ## The queues of a station -/

/-- A station asked onto the poll queue stands in it afterwards, unless it did not and the queue is full (R110). -/
theorem pollEnqueue_station (s : State) (n m : StationNo) :
    (s.pollEnqueue n).station m =
      if m = n then
        { s.station n with
          inPollQueue :=
            (s.station n).inPollQueue || decide ((s.pollQueue (s.station n).channel).length < 256) }
      else s.station m := by
  obtain ⟨stands, e⟩ | ⟨out, room, e⟩ | ⟨out, full, e⟩ := pollEnqueue_cases s n <;> rw [e]
  · by_cases same : m = n
    · subst same
      cases record : s.station m
      simp_all
    · simp [same]
  · have room : (s.pollQueue (s.station n).channel).length < 256 := room
    simp [station_putStation, room]
  · have full : ¬ (s.pollQueue (s.station n).channel).length < 256 := Nat.not_lt.2 full
    by_cases same : m = n
    · subst same
      cases record : s.station m
      simp_all
    · simp [same]

/-- It is put at the tail of its channel's queue where it stands in none and has room (R110). -/
theorem pollEnqueue_pollQueues (s : State) (n : StationNo) :
    (s.pollEnqueue n).pollQueues =
      if (s.station n).inPollQueue = false ∧ (s.pollQueue (s.station n).channel).length < 256 then
        (s.putPollQueue (s.station n).channel (s.pollQueue (s.station n).channel ++ [n])).pollQueues
      else s.pollQueues := by
  obtain ⟨stands, e⟩ | ⟨out, room, e⟩ | ⟨out, full, e⟩ := pollEnqueue_cases s n <;> rw [e]
  · simp [stands]
  · have room : (s.pollQueue (s.station n).channel).length < 256 := room
    simp [out, room]
  · have full : ¬ (s.pollQueue (s.station n).channel).length < 256 := Nat.not_lt.2 full
    simp [full]

theorem pollEnqueue_pollQueue (s : State) (n : StationNo) (d : ChanNo) :
    (s.pollEnqueue n).pollQueue d =
      if d = (s.station n).channel ∧ (s.station n).inPollQueue = false ∧
          (s.pollQueue (s.station n).channel).length < 256 then
        s.pollQueue (s.station n).channel ++ [n]
      else s.pollQueue d := by
  rw [pollQueue, pollEnqueue_pollQueues]
  split
  · next joins => simp only [putPollQueue, vget_vput, joins, and_true]; rfl
  · next stays => rw [if_neg (fun x => stays x.2)]; rfl

/-- POLL QUEUE FULL counts one that stands in none and finds no room (R110). -/
theorem pollEnqueue_channelCounters (s : State) (n : StationNo) :
    (s.pollEnqueue n).channelCounters =
      if (s.station n).inPollQueue = false ∧ 256 ≤ (s.pollQueue (s.station n).channel).length then
        (s.count (s.station n).channel .pollQueueFull 1).channelCounters
      else s.channelCounters := by
  obtain ⟨stands, e⟩ | ⟨out, room, e⟩ | ⟨out, full, e⟩ := pollEnqueue_cases s n <;> rw [e]
  · simp [stands]
  · have room : ¬ 256 ≤ (s.pollQueue (s.station n).channel).length := Nat.not_le.2 room
    simp [room]
  · have full : 256 ≤ (s.pollQueue (s.station n).channel).length := full
    simp [out, full]

theorem pollEnqueue_counter (s : State) (n : StationNo) (d : ChanNo) (k : ChannelCounter) :
    (s.pollEnqueue n).counter d k =
      if (d = (s.station n).channel ∧ k = .pollQueueFull) ∧ (s.station n).inPollQueue = false ∧
          256 ≤ (s.pollQueue (s.station n).channel).length then
        saturate (s.counter d k) 1
      else s.counter d k := by
  rw [counter, pollEnqueue_channelCounters]
  split
  · next full =>
    refine (counter_count s _ d .pollQueueFull k 1).trans ?_
    by_cases here : d = (s.station n).channel ∧ k = .pollQueueFull
    · rw [if_pos here, if_pos ⟨here, full⟩, here.1, here.2]
    · rw [if_neg here, if_neg (fun x => here x.1)]
  · next room => rw [if_neg (fun x => room x.2)]; rfl

/-- Asking a station onto the poll queue writes the stations, the poll queues and the counters alone. -/
theorem pollEnqueue_frame (s : State) (n : StationNo) :
    s.pollEnqueue n =
      { s with
        stations := (s.pollEnqueue n).stations, pollQueues := (s.pollEnqueue n).pollQueues
        channelCounters := (s.pollEnqueue n).channelCounters } := by
  obtain ⟨-, e⟩ | ⟨-, -, e⟩ | ⟨-, -, e⟩ := pollEnqueue_cases s n <;> rw [e] <;> rfl

/-- Removing a station from the poll queue writes its record and its channel's queue (R110). -/
theorem pollRemove_station (s : State) (n m : StationNo) :
    (s.pollRemove n).station m = if m = n then { s.station n with inPollQueue := false } else s.station m := by
  simp [pollRemove, station_putStation]

end State

end Sys2Proof.Machine
end

section
/-! SUPPORT. STATION-ADMIT, STATION-MOVE and STATION-RELEASE (R31, R32, R34). -/

namespace Sys2Proof.Machine

namespace State

/-! ## STATION-MOVE (R32) -/

/-- A move up to its last step, in which the station, now in no poll queue, is asked onto that of the new channel. -/
theorem moveStation_asks (s : State) (n : StationNo) (c : ChanNo) :
    ∃ u, s.moveStation n c = u.pollEnqueue n ∧
      (∀ m, u.station m =
        if m = n then
          { s.station n with
            channel := c, state := .aligning, lastGood := none, missCount := 0, inPollQueue := false }
        else s.station m) ∧
      u.pollQueues =
        (s.putPollQueue (s.station n).channel ((s.pollQueue (s.station n).channel).erase n)).pollQueues ∧
      s.LeavesOnline u n ∧ s.BuildSees u ∧
      (∀ g, u.flow g =
        if g ∈ (s.station n).flowList then { s.flowOff n g with fillAnchor := none } else s.flow g) ∧
      u =
        { s with
          stations := u.stations, flows := u.flows, activeLists := u.activeLists, calendars := u.calendars
          pollQueues := u.pollQueues, engine := u.engine } := by
  obtain ⟨frame, leaves, sees, flows⟩ :=
    takenOffline_mapFlows s n (g := fun f => { f with fillAnchor := none }) (fun _ => rfl)
  refine ⟨_, rfl, ?_⟩
  generalize (s.takenOffline n).mapFlows (s.station n).flowList (fun f => { f with fillAnchor := none }) = u at *
  have stations (m : StationNo) : u.station m = s.station m := by rw [frame]; rfl
  have queues : u.pollQueues = s.pollQueues := by rw [frame]
  refine ⟨fun m => ?_, ?_, leavesOnline_congr leaves rfl rfl, buildSees_congr sees rfl rfl, flows, ?_⟩
  · simp only [station_putStation, pollRemove_station, stations, if_true]
    split <;> rfl
  · simp only [pollRemove, putStation_pollQueues, putPollQueue, pollQueue, stations, queues]
  · rw [frame]
    rfl

/-- What a move to another channel leaves. -/
theorem moveStation_leaves (s : State) {n : StationNo} {c : ChanNo} (other : (s.station n).channel ≠ c) :
    (s.moveStation n c).station n =
      { s.station n with
        channel := c, state := .aligning, lastGood := none, missCount := 0
        inPollQueue := decide ((s.pollQueue c).length < 256) } ∧
    (∀ m, m ≠ n → (s.moveStation n c).station m = s.station m) ∧
    (s.moveStation n c).pollQueue c =
      (if (s.pollQueue c).length < 256 then s.pollQueue c ++ [n] else s.pollQueue c) ∧
    (s.moveStation n c).pollQueue (s.station n).channel = (s.pollQueue (s.station n).channel).erase n ∧
    (∀ d, d ≠ c → d ≠ (s.station n).channel → (s.moveStation n c).pollQueue d = s.pollQueue d) ∧
    s.LeavesOnline (s.moveStation n c) n ∧ s.BuildSees (s.moveStation n c) ∧
    (∀ g, (s.moveStation n c).flow g =
      if g ∈ (s.station n).flowList then { s.flowOff n g with fillAnchor := none } else s.flow g) ∧
    (s.moveStation n c).channelCounters =
      (if (s.pollQueue c).length < 256 then s.channelCounters else (s.count c .pollQueueFull 1).channelCounters) ∧
    s.moveStation n c =
      { s with
        stations := (s.moveStation n c).stations, flows := (s.moveStation n c).flows
        activeLists := (s.moveStation n c).activeLists, calendars := (s.moveStation n c).calendars
        pollQueues := (s.moveStation n c).pollQueues, engine := (s.moveStation n c).engine
        channelCounters := (s.moveStation n c).channelCounters } := by
  obtain ⟨u, asks, stations, queues, leaves, sees, flows, frame⟩ := moveStation_asks s n c
  have asked := pollEnqueue_frame u n
  have here := stations n
  rw [if_pos rfl] at here
  have elsewhere (d : ChanNo) (h : d ≠ (s.station n).channel) : u.pollQueue d = s.pollQueue d := by
    rw [pollQueue, queues]
    exact pollQueue_putPollQueue_ne s h _
  have old : u.pollQueue (s.station n).channel = (s.pollQueue (s.station n).channel).erase n := by
    rw [pollQueue, queues]
    exact pollQueue_putPollQueue_same s _ _
  have waiting : u.pollQueue c = s.pollQueue c := elsewhere c other.symm
  have after (d : ChanNo) : (u.pollEnqueue n).pollQueue d =
      if d = c ∧ (s.pollQueue c).length < 256 then s.pollQueue c ++ [n] else u.pollQueue d := by
    simp [pollEnqueue_pollQueue, here, waiting]
  have counters : u.channelCounters = s.channelCounters := by rw [frame]
  rw [asks]
  refine ⟨?_, fun m hm => ?_, ?_, ?_, fun d hc hd => ?_, ?_, ?_, fun g => ?_, ?_, ?_⟩
  · rw [pollEnqueue_station, if_pos rfl, here, waiting]
    rfl
  · rw [pollEnqueue_station, if_neg hm, stations, if_neg hm]
  · rw [after, waiting]
    simp
  · rw [after, if_neg (fun x => other x.1), old]
  · rw [after, if_neg (fun x => hc x.1), elsewhere d hd]
  · exact leavesOnline_congr leaves (by rw [asked]) (by rw [asked])
  · exact buildSees_congr sees (by rw [asked]) (by rw [asked])
  · rw [← flows, asked]
    rfl
  · rw [pollEnqueue_channelCounters, here, waiting]
    by_cases room : (s.pollQueue c).length < 256
    · simp [room, counters]
    · simp [room, count, counters, Nat.not_lt.1 room]
  · rw [asked, frame]

/-! ## STATION-RELEASE (R34) -/

/-- What a release leaves. -/
theorem releaseStation_leaves (s : State) (n : StationNo) :
    (s.releaseStation n).station n = Station.reset ∧
    (∀ m, m ≠ n → (s.releaseStation n).station m = s.station m) ∧
    (s.releaseStation n).freeList = s.freeList ++ [n] ∧
    (s.releaseStation n).identity =
      s.identity.filter (fun e => decide (some e.1 ≠ (s.station n).hardwareId)) ∧
    (s.releaseStation n).adjustQueue = s.adjustQueue.filter (fun a => decide (a.station ≠ n)) ∧
    (s.releaseStation n).pollQueues =
      (s.putPollQueue (s.station n).channel ((s.pollQueue (s.station n).channel).erase n)).pollQueues ∧
    s.LeavesOnline (s.releaseStation n) n ∧ s.BuildSees (s.releaseStation n) ∧
    (∀ g, (s.releaseStation n).flow g =
      if g ∈ (s.station n).flowList then unboundFlow (s.flowOff n g) else s.flow g) ∧
    s.releaseStation n =
      { s with
        stations := (s.releaseStation n).stations, freeList := (s.releaseStation n).freeList
        identity := (s.releaseStation n).identity, adjustQueue := (s.releaseStation n).adjustQueue
        pollQueues := (s.releaseStation n).pollQueues, flows := (s.releaseStation n).flows
        activeLists := (s.releaseStation n).activeLists, calendars := (s.releaseStation n).calendars
        engine := (s.releaseStation n).engine } := by
  obtain ⟨frame, leaves, sees, flows⟩ := takenOffline_mapFlows s n unboundFlow_twice
  unfold releaseStation
  dsimp only
  generalize (s.takenOffline n).mapFlows (s.station n).flowList unboundFlow = u at *
  have stations (m : StationNo) : u.station m = s.station m := by rw [frame]; rfl
  have queues : u.pollQueues = s.pollQueues := by rw [frame]
  obtain ⟨v, unqueued⟩ : ∃ v, v = (u.pollRemove n).adjustRemove n := ⟨_, rfl⟩
  have others (m : StationNo) (hm : m ≠ n) : v.station m = s.station m := by
    simp [unqueued, adjustRemove, pollRemove_station, hm, stations]
  have polled : v.pollQueues =
      (s.putPollQueue (s.station n).channel ((s.pollQueue (s.station n).channel).erase n)).pollQueues := by
    simp only [unqueued, adjustRemove, pollRemove, putAdjustQueue_pollQueues, putStation_pollQueues, putPollQueue,
      pollQueue, stations, queues]
  have adjusted : v.adjustQueue = s.adjustQueue.filter (fun a => decide (a.station ≠ n)) := by
    rw [unqueued, frame]
    simp [adjustRemove, pollRemove, bne, Bool.beq_eq_decide_eq]
  have parted : v =
      { s with
        stations := v.stations, adjustQueue := v.adjustQueue, pollQueues := v.pollQueues, flows := u.flows
        activeLists := u.activeLists, calendars := u.calendars, engine := u.engine } := by
    rw [unqueued, frame]
    rfl
  rw [← unqueued, parted]
  refine ⟨by simp, fun m hm => ?_, rfl, ?_, adjusted, polled, leavesOnline_congr leaves rfl rfl,
    buildSees_congr sees rfl rfl, flows, rfl⟩
  · rw [← others m hm, putFreeList_station, station_putStation_ne _ hm]
    rfl
  · simp [bne, Bool.beq_eq_decide_eq]

/-- A flow of a released station: out of its lists and unbound (R27, R44). -/
theorem unboundFlow_flowOff (s : State) (n : StationNo) (g : FlowNo) :
    unboundFlow (s.flowOff n g) =
      { s.flow g with
        state := .idle, station := none, backlog := 0, deficit := 0, residue := 0, extrasOwed := 0
        fresh := false, credit := (s.flow g).credit.map (fun _ => 0), fillAnchor := none
        nextNominal := none
        listLevel := if (s.station n).state = .online then none else (s.flow g).listLevel } := by
  unfold flowOff
  split <;> rfl

/-! ## The checks of the operations, in their order -/

theorem stationMoveOp_eq (s : State) (n : StationNo) (c : ChanNo) :
    s.stationMoveOp n.val c.val =
      if (s.station n).state = .free ∨ (s.station n).state = .lost then s.answer .state
      else if (s.station n).channel = c then s.answer .badValue
      else (s.moveStation n c).answer .done := by
  have takes : (!s.stationTakes n) = true ↔ (s.station n).state = .free ∨ (s.station n).state = .lost := by
    cases state : (s.station n).state <;> simp [stationTakes, state]
  simp only [stationMoveOp, asIndex_val, takes]

theorem stationReleaseOp_eq (s : State) (n : StationNo) :
    s.stationReleaseOp n.val =
      if (s.station n).state = .free then s.answer .state else (s.releaseStation n).answer .done := by
  simp only [stationReleaseOp, asIndex_val]

end State

/-! ## The statements on moves and releases -/

/-- Settles O44: the checks by stationMoveOp_eq, the move itself by State.moveStation_leaves. -/
theorem stationMoveRealignsElsewhere : Obligations.StationMoveRealignsElsewhere := by
  intro s f q i j head
  have run : exec .stationMove s = .next (s.executeFrame f q) :=
    congrArg Host.Outcome.next (State.executeRow_executes head)
  have refuse {code : Code} (refused : (s.beginFrame q).stationMoveOp i j = (s.beginFrame q).answer code) :
      s.Answers (s.executeFrame f q) f q code [] ∧ s.executeFrame f q = s.managed (s.executeFrame f q) :=
    State.executeFrame_refused head (congrArg Taken.ends refused)
  rcases Nat.lt_or_ge i 8192 with index | outside
  case inr =>
    obtain ⟨answers, managed⟩ := refuse (code := .badIndex) (by simp [State.stationMoveOp, asIndex_eq_none outside])
    exact ⟨_, _, run, answers, fun _ => rfl, fun h => by omega, fun _ => managed, fun n _ hn => by omega⟩
  obtain ⟨n, rfl⟩ : ∃ n : StationNo, n.val = i := ⟨⟨i, index⟩, rfl⟩
  rcases Nat.lt_or_ge j 8 with value | outside
  case inr =>
    obtain ⟨answers, managed⟩ :=
      refuse (code := .badValue) (by simp [State.stationMoveOp, asIndex_eq_none outside])
    exact ⟨_, _, run, answers, fun h => by omega, fun _ _ => rfl, fun _ => managed, fun _ c _ hc => by omega⟩
  obtain ⟨c, rfl⟩ : ∃ c : ChanNo, c.val = j := ⟨⟨j, value⟩, rfl⟩
  have checks := State.stationMoveOp_eq (s.beginFrame q) n c
  by_cases away : (s.station n).state = .free ∨ (s.station n).state = .lost
  · obtain ⟨answers, managed⟩ := refuse (checks.trans (if_pos away))
    refine ⟨_, _, run, answers, fun h => by omega, fun _ h => by omega, fun _ => managed, fun m d hm hd => ?_⟩
    obtain ⟨rfl, rfl⟩ := And.intro (Fin.ext hm) (Fin.ext hd)
    exact ⟨(if_pos away).symm, fun h => nomatch h⟩
  by_cases here : (s.station n).channel = c
  · obtain ⟨answers, managed⟩ := refuse (checks.trans ((if_neg away).trans (if_pos here)))
    refine ⟨_, _, run, answers, fun h => by omega, fun _ h => by omega, fun _ => managed, fun m d hm hd => ?_⟩
    obtain ⟨rfl, rfl⟩ := And.intro (Fin.ext hm) (Fin.ext hd)
    exact ⟨((if_neg away).trans (if_pos here)).symm, fun h => nomatch h⟩
  have acts : (s.beginFrame q).stationMoveOp n.val c.val = ((s.beginFrame q).moveStation n c).answer .done :=
    checks.trans ((if_neg away).trans (if_neg here))
  obtain ⟨station, others, new, old, rest, leaves, sees, flows, counters, frame⟩ :=
    State.moveStation_leaves (s.beginFrame q) here
  generalize (s.beginFrame q).moveStation n c = u at *
  obtain ⟨done, answers⟩ :=
    State.executeFrame_done head (congrArg Taken.ends acts) (by rw [frame]; exact ⟨rfl, rfl, rfl, rfl⟩)
  refine ⟨_, _, run.trans (congrArg _ done), answers, fun h => by omega, fun _ h => by omega, fun h => absurd rfl h,
    fun m d hm hd => ?_⟩
  obtain ⟨rfl, rfl⟩ := And.intro (Fin.ext hm) (Fin.ext hd)
  refine ⟨((if_neg away).trans (if_neg here)).symm, fun _ => ⟨station, others, new, old, rest,
    State.leavesOnline_congr leaves rfl rfl, State.buildSees_congr sees rfl rfl, fun g hg => ?_, fun g hg => ?_,
    counters, ?_⟩⟩
  · exact (flows g).trans (if_pos hg)
  · exact (flows g).trans (if_neg hg)
  · rw [frame]
    rfl

/-- Settles O45: the check by stationReleaseOp_eq, the release itself by State.releaseStation_leaves. -/
theorem stationReleaseFreesTheNumber : Obligations.StationReleaseFreesTheNumber := by
  intro s f q i head
  have run : exec .stationRelease s = .next (s.executeFrame f q) :=
    congrArg Host.Outcome.next (State.executeRow_executes head)
  have refuse {code : Code} (refused : (s.beginFrame q).stationReleaseOp i = (s.beginFrame q).answer code) :
      s.Answers (s.executeFrame f q) f q code [] ∧ s.executeFrame f q = s.managed (s.executeFrame f q) :=
    State.executeFrame_refused head (congrArg Taken.ends refused)
  rcases Nat.lt_or_ge i 8192 with index | outside
  case inr =>
    obtain ⟨answers, managed⟩ :=
      refuse (code := .badIndex) (by simp [State.stationReleaseOp, asIndex_eq_none outside])
    exact ⟨_, _, run, answers, fun _ => rfl, fun _ => managed, fun n hn => by omega⟩
  obtain ⟨n, rfl⟩ : ∃ n : StationNo, n.val = i := ⟨⟨i, index⟩, rfl⟩
  have checks := State.stationReleaseOp_eq (s.beginFrame q) n
  by_cases free : (s.station n).state = .free
  · obtain ⟨answers, managed⟩ := refuse (checks.trans (if_pos free))
    refine ⟨_, _, run, answers, fun h => by omega, fun _ => managed, fun m hm => ?_⟩
    obtain rfl := Fin.ext hm
    exact ⟨(if_pos free).symm, fun h => nomatch h⟩
  have acts : (s.beginFrame q).stationReleaseOp n.val = ((s.beginFrame q).releaseStation n).answer .done :=
    checks.trans (if_neg free)
  obtain ⟨station, others, list, map, adjusts, polls, leaves, sees, flows, frame⟩ :=
    State.releaseStation_leaves (s.beginFrame q) n
  generalize (s.beginFrame q).releaseStation n = u at *
  obtain ⟨done, answers⟩ :=
    State.executeFrame_done head (congrArg Taken.ends acts) (by rw [frame]; exact ⟨rfl, rfl, rfl, rfl⟩)
  refine ⟨_, _, run.trans (congrArg _ done), answers, fun h => by omega, fun h => absurd rfl h, fun m hm => ?_⟩
  obtain rfl := Fin.ext hm
  refine ⟨(if_neg free).symm, fun _ => ⟨station, others, list, map, adjusts, polls,
    State.leavesOnline_congr leaves rfl rfl, State.buildSees_congr sees rfl rfl, fun g hg => ?_, fun g hg => ?_, ?_⟩⟩
  · exact ((flows g).trans (if_pos hg)).trans (State.unboundFlow_flowOff s _ g)
  · exact (flows g).trans (if_neg hg)
  · rw [frame]
    rfl

end Sys2Proof.Machine
end

section
/-! SUPPORT. STATION-ADMIT: the flows of a station that enters ONLINE (R28, R31, R86). -/

namespace Sys2Proof.Machine

namespace State

/-! ## What the entry of flows leaves alone -/

/-- The entry of a flow writes flows, active lists, calendars, counters and notices alone. -/
theorem onlineFlow_frame (s : State) (n : StationNo) (c : ChanNo) (g : FlowNo) :
    s.onlineFlow n c g =
      { s with
        flows := (s.onlineFlow n c g).flows, activeLists := (s.onlineFlow n c g).activeLists
        calendars := (s.onlineFlow n c g).calendars, channelCounters := (s.onlineFlow n c g).channelCounters
        notices := (s.onlineFlow n c g).notices } := by
  unfold onlineFlow
  split
  · obtain ⟨-, e⟩ | ⟨m, -, -, -, e⟩ := enlist_cases s g <;> rw [e]
    rfl
  · split
    · rfl
    · unfold joinCalendar
      split <;> rfl
  · rfl

/-- The entry of a flow raises no notice but PERIODIC MISS. -/
theorem onlineFlow_notice (s : State) (n : StationNo) (c : ChanNo) (g : FlowNo) {k : NoticeKind}
    (h : k ≠ .periodicMiss) : (s.onlineFlow n c g).notice k = s.notice k := by
  unfold onlineFlow
  split
  · obtain ⟨-, e⟩ | ⟨m, -, -, -, e⟩ := enlist_cases s g <;> rw [e]
    rfl
  · split
    · exact notice_raise_ne _ _ h
    · unfold joinCalendar
      split <;> rfl
  · rfl

/-- The entry of a flow counts nothing but CALENDAR FULL. -/
theorem onlineFlow_counter (s : State) (n : StationNo) (c d : ChanNo) (g : FlowNo) {k : ChannelCounter}
    (h : k ≠ .calendarFull) : (s.onlineFlow n c g).counter d k = s.counter d k := by
  unfold onlineFlow
  split
  · obtain ⟨-, e⟩ | ⟨m, -, -, -, e⟩ := enlist_cases s g <;> rw [e]
    rfl
  · split
    · simp [counter_count, h]
    · unfold joinCalendar
      split <;> rfl
  · rfl

/-- The flows of a list that enter one after another write what each writes. -/
theorem onlineFlows_frame (n : StationNo) (c : ChanNo) : ∀ (q : List FlowNo) (s : State),
    ∃ fs as cs ks ns, q.foldl (fun t g => t.onlineFlow n c g) s =
      { s with flows := fs, activeLists := as, calendars := cs, channelCounters := ks, notices := ns }
  | [], _ => ⟨_, _, _, _, _, rfl⟩
  | g :: q, s => by
    obtain ⟨fs, as, cs, ks, ns, e⟩ := onlineFlows_frame n c q (s.onlineFlow n c g)
    refine ⟨fs, as, cs, ks, ns, e.trans ?_⟩
    rw [onlineFlow_frame]

theorem onlineFlows_notice (n : StationNo) (c : ChanNo) {k : NoticeKind} (h : k ≠ .periodicMiss) :
    ∀ (q : List FlowNo) (s : State), (q.foldl (fun t g => t.onlineFlow n c g) s).notice k = s.notice k
  | [], _ => rfl
  | g :: q, s => (onlineFlows_notice n c h q _).trans (onlineFlow_notice s n c g h)

theorem onlineFlows_counter (n : StationNo) (c d : ChanNo) {k : ChannelCounter} (h : k ≠ .calendarFull) :
    ∀ (q : List FlowNo) (s : State), (q.foldl (fun t g => t.onlineFlow n c g) s).counter d k = s.counter d k
  | [], _ => rfl
  | g :: q, s => (onlineFlows_counter n c d h q _).trans (onlineFlow_counter s n c d g h)

/-- A flow that is not ACTIVE enters with no effect (R28). -/
theorem onlineFlow_inactive {s : State} {g : FlowNo} (h : (s.flow g).state ≠ .active) (n : StationNo) (c : ChanNo) :
    s.onlineFlow n c g = s := by
  unfold onlineFlow
  split
  · exact absurd ‹_› h
  · exact absurd ‹_› h
  · rfl

theorem onlineFlows_inactive (n : StationNo) (c : ChanNo) (s : State) : ∀ q : List FlowNo,
    (∀ g ∈ q, (s.flow g).state ≠ .active) → q.foldl (fun t g => t.onlineFlow n c g) s = s
  | [], _ => rfl
  | g :: q, h => by
    rw [List.foldl_cons, onlineFlow_inactive (h g List.mem_cons_self)]
    exact onlineFlows_inactive n c s q (fun f hf => h f (List.mem_cons_of_mem g hf))

/-- An ACTIVE PERIODIC flow enters the calendar, or finds it full (R86). -/
theorem onlineFlow_periodic {s : State} {g : FlowNo} (active : (s.flow g).state = .active)
    (periodic : (s.flow g).kind = .periodic) (n : StationNo) (c : ChanNo) :
    s.onlineFlow n c g =
      if 1024 ≤ (s.calendar c).waiting.length + (s.calendar c).timed.length then
        (s.count c .calendarFull 1).raise (.periodicMiss .calendarFull c g n none)
      else s.joinCalendar c g := by
  by_cases full : 1024 ≤ (s.calendar c).waiting.length + (s.calendar c).timed.length <;>
    simp [onlineFlow, active, periodic, calendarFull, Config.maxCalendar, full]

/-- A flow that stands in neither part joins WAITING at its place (R84, R86). -/
theorem joinCalendar_absent {s : State} {c : ChanNo} {g : FlowNo} (out : s.inCalendar c g = false) :
    s.joinCalendar c g =
      s.putCalendar c
        { s.calendar c with waiting := insertBy (fun a b => decide (a < b)) g (s.calendar c).waiting } := by
  simp [joinCalendar, out]

/-- An ACTIVE PERIODIC flow joins WAITING where the calendar has room for it (R86). -/
theorem onlineFlow_joinsCalendar {s : State} {c : ChanNo} {g : FlowNo} (active : (s.flow g).state = .active)
    (periodic : (s.flow g).kind = .periodic) (out : s.inCalendar c g = false)
    (room : (s.calendar c).waiting.length + (s.calendar c).timed.length < 1024) (n : StationNo) :
    ((s.onlineFlow n c g).calendar c).timed = (s.calendar c).timed ∧
    ((s.onlineFlow n c g).calendar c).waiting.Perm (g :: (s.calendar c).waiting) ∧
    s.onlineFlow n c g = { s with calendars := (s.onlineFlow n c g).calendars } := by
  rw [onlineFlow_periodic active periodic, if_neg (Nat.not_le.2 room), joinCalendar_absent out,
    calendar_putCalendar_same]
  exact ⟨rfl, insertBy_perm _ _ _, rfl⟩

/-! ## The entry of flows and the execution around it -/

/-- The entry of a flow neither reads nor writes what the execution around it writes. -/
theorem onlineFlow_managed (s t : State) (n : StationNo) (c : ChanNo) (g : FlowNo) :
    (s.managed t).onlineFlow n c g = (s.onlineFlow n c g).managed t := by
  have flow : (s.managed t).flow g = s.flow g := rfl
  have meets : (s.managed t).meetsEnlistment g = s.meetsEnlistment g := rfl
  have full : (s.managed t).calendarFull c = s.calendarFull c := rfl
  have stands : (s.managed t).inCalendar c g = s.inCalendar c g := rfl
  unfold onlineFlow
  rw [flow, full]
  split
  · unfold enlist
    rw [meets, flow]
    split
    · split <;> rfl
    · rfl
  · split
    · rfl
    · unfold joinCalendar
      rw [stands]
      split <;> rfl
  · rfl

theorem onlineFlows_managed (t : State) (n : StationNo) (c : ChanNo) : ∀ (q : List FlowNo) (s : State),
    q.foldl (fun u g => u.onlineFlow n c g) (s.managed t) = (q.foldl (fun u g => u.onlineFlow n c g) s).managed t
  | [], _ => rfl
  | g :: q, s => by rw [List.foldl_cons, onlineFlow_managed, onlineFlows_managed t n c q]; rfl

/-! ## STATION-ADMIT (R31) -/

@[simp] theorem beginFrame_station (s : State) (q : List RawFrame) (n : StationNo) :
    (s.beginFrame q).station n = s.station n := rfl

theorem stationAdmitOp_eq (s : State) (n : StationNo) :
    s.stationAdmitOp n.val =
      if (s.station n).state = .free ∨ (s.station n).state = .lost then s.answer .state
      else if (s.station n).state = .aligning then
        (s.putStation n { s.station n with admitted := true }).answer .done
      else if (s.station n).state = .parked then
        ((s.putStation n { s.station n with admitted := true }).enterOnline n).answer .done
      else s.answer .done := by
  cases state : (s.station n).state <;> simp [stationAdmitOp, state]

/-- A station's entry into ONLINE writes the stations and what the entry of its flows writes. -/
theorem enterOnline_frame (s : State) (n : StationNo) :
    ∃ sts fs as cs ks ns, s.enterOnline n =
      { s with
        stations := sts, flows := fs, activeLists := as, calendars := cs, channelCounters := ks, notices := ns } := by
  obtain ⟨fs, as, cs, ks, ns, entered⟩ := onlineFlows_frame n (s.station n).channel (s.station n).flowList
    (s.putStation n { s.station n with state := .online })
  exact ⟨_, fs, as, cs, ks, ns, entered⟩

/-- The admission of a PARKED station, in the state it leaves: its record, and the entry of its flows (R28, R31). -/
theorem admitted_enterOnline (s : State) (n : StationNo) (t : State)
    (left : t = ((s.putStation n { s.station n with admitted := true }).enterOnline n).managed t) :
    t.station n = { s.station n with admitted := true, state := .online } ∧
    (∀ m, m ≠ n → t.station m = s.station m) ∧
    t.notice .stationOnline = s.notice .stationOnline ∧
    t = (s.station n).flowList.foldl (fun u g => u.onlineFlow n (s.station n).channel g)
      { s.managed t with stations := t.stations } := by
  have entered : (s.putStation n { s.station n with admitted := true }).enterOnline n =
      (s.station n).flowList.foldl (fun u g => u.onlineFlow n (s.station n).channel g)
        ((s.putStation n { s.station n with admitted := true }).putStation n
          { s.station n with admitted := true, state := .online }) := by
    simp [enterOnline]
  rw [entered] at left
  obtain ⟨fs, as, cs, ks, ns, frame⟩ := onlineFlows_frame n (s.station n).channel (s.station n).flowList
    ((s.putStation n { s.station n with admitted := true }).putStation n
      { s.station n with admitted := true, state := .online })
  have stations : t.stations = ((s.putStation n { s.station n with admitted := true }).putStation n
      { s.station n with admitted := true, state := .online }).stations := by
    rw [left, frame]
    rfl
  have station (m : StationNo) : t.station m =
      if m = n then { s.station n with admitted := true, state := .online } else s.station m := by
    rw [State.station, stations]
    exact (station_putStation _ n m _).trans (by split; exacts [rfl, station_putStation_ne _ ‹_› _])
  refine ⟨(station n).trans (if_pos rfl), fun m hm => (station m).trans (if_neg hm), ?_, ?_⟩
  · rw [left]
    exact onlineFlows_notice n _ (by simp) _ _
  · rw [stations]
    exact left.trans (onlineFlows_managed t n _ _ _).symm

/-- A station's one flow, ACTIVE and ELASTIC with backlog, joins the tail of its level as the station enters ONLINE. -/
theorem onlineFlow_joinsList {s : State} {n : StationNo} {c : ChanNo} {g : FlowNo} (of : (s.flow g).station = some n)
    (online : (s.station n).state = .online) (on : (s.station n).channel = c) (active : (s.flow g).state = .active)
    (elastic : (s.flow g).kind = .elastic) (backlog : 0 < (s.flow g).backlog) (out : (s.flow g).listLevel = none) :
    s.onlineFlow n c g =
      { s with
        flows := (s.putFlow g { s.flow g with listLevel := some (s.classOf g).priority }).flows
        activeLists :=
          (s.putActive c (s.classOf g).priority (s.active c (s.classOf g).priority ++ [g])).activeLists } :=
  ((onlineFlow_enters of online on).2.1 active elastic).trans (if_pos ⟨backlog, out⟩)

/-- The class of a flow is read from its record and the POLICY SELECT of its station (R48). -/
theorem classOf_congr {s t : State} {n : StationNo} {g : FlowNo} (of : (s.flow g).station = some n)
    (flows : t.flows = s.flows) (a : t.policyA = s.policyA) (b : t.policyB = s.policyB)
    (select : (t.station n).policySelect = (s.station n).policySelect) : t.classOf g = s.classOf g := by
  have flow : t.flow g = s.flow g := by rw [flow, flows, flow]
  unfold classOf policyClass
  rw [flow, of, a, b]
  simp only [select]

end State

/-- Settles O43: a PARKED station's flows enter from the state in which it is ONLINE (State.admitted_enterOnline), each
as State.FlowEnters says. -/
theorem stationAdmitActsByState : Obligations.StationAdmitActsByState := by
  intro s f q i head
  have run : exec .stationAdmit s = .next (s.executeFrame f q) :=
    congrArg Host.Outcome.next (State.executeRow_executes head)
  have refuse {code : Code} (refused : (s.beginFrame q).stationAdmitOp i = (s.beginFrame q).answer code) :
      s.Answers (s.executeFrame f q) f q code [] ∧ s.executeFrame f q = s.managed (s.executeFrame f q) :=
    State.executeFrame_refused head (congrArg Taken.ends refused)
  rcases Nat.lt_or_ge i 8192 with index | outside
  case inr =>
    obtain ⟨answers, managed⟩ :=
      refuse (code := .badIndex) (by simp [State.stationAdmitOp, asIndex_eq_none outside])
    exact ⟨_, _, run, answers, fun _ => rfl, fun _ => managed, fun n hn => by omega⟩
  obtain ⟨n, rfl⟩ : ∃ n : StationNo, n.val = i := ⟨⟨i, index⟩, rfl⟩
  have checks := State.stationAdmitOp_eq (s.beginFrame q) n
  rcases state : (s.station n).state with _ | _ | _ | _ | _
  case free | lost =>
    obtain ⟨answers, managed⟩ := refuse (checks.trans (if_pos (by simp [state])))
    refine ⟨_, _, run, answers, fun h => by omega, fun _ => managed, fun m hm => ?_⟩
    obtain rfl := Fin.ext hm
    simp [state]
  case online =>
    have acts : (s.beginFrame q).stationAdmitOp n.val = (s.beginFrame q).answer .done := checks.trans (by simp [state])
    obtain ⟨done, answers⟩ := State.executeFrame_done head (congrArg Taken.ends acts) ⟨rfl, rfl, rfl, rfl⟩
    refine ⟨_, _, run.trans (congrArg _ done), answers, fun h => by omega, fun h => absurd rfl h, fun m hm => ?_⟩
    obtain rfl := Fin.ext hm
    simp only [state, reduceCtorEq, or_self, if_false, true_and, false_implies, and_true, true_implies]
    rfl
  case aligning =>
    have acts : (s.beginFrame q).stationAdmitOp n.val =
        ((s.beginFrame q).putStation n { s.station n with admitted := true }).answer .done :=
      checks.trans (by simp [state])
    obtain ⟨done, answers⟩ := State.executeFrame_done head (congrArg Taken.ends acts) ⟨rfl, rfl, rfl, rfl⟩
    refine ⟨_, _, run.trans (congrArg _ done), answers, fun h => by omega, fun h => absurd rfl h, fun m hm => ?_⟩
    obtain rfl := Fin.ext hm
    simp only [state, reduceCtorEq, or_self, if_false, true_and, false_implies, and_true, true_implies]
    rfl
  case parked =>
    have acts : (s.beginFrame q).stationAdmitOp n.val =
        (((s.beginFrame q).putStation n { s.station n with admitted := true }).enterOnline n).answer .done :=
      checks.trans (by simp [state])
    obtain ⟨done, answers⟩ := State.executeFrame_done head (congrArg Taken.ends acts) (by
      obtain ⟨sts, fs, as, cs, ks, ns, entered⟩ :=
        State.enterOnline_frame ((s.beginFrame q).putStation n { s.station n with admitted := true }) n
      rw [entered]
      exact ⟨rfl, rfl, rfl, rfl⟩)
    generalize entered : ((s.beginFrame q).putStation n { s.station n with admitted := true }).enterOnline n = u at *
    obtain ⟨station, others, notice, entry⟩ := State.admitted_enterOnline (s.beginFrame q) n
      (u.pushResponse (State.responseTo f .done [])) (by rw [← entered]; rfl)
    generalize u.pushResponse (State.responseTo f .done []) = t at *
    refine ⟨t, _, run.trans (congrArg _ done), answers, fun h => by omega, fun h => absurd rfl h, fun m hm => ?_⟩
    obtain rfl : n = m := Fin.ext hm.symm
    have entry : t = (s.station n).flowList.foldl (fun u g => u.onlineFlow n (s.station n).channel g)
        { s.managed t with stations := t.stations } := entry
    have online : (t.station n).state = .online := congrArg Station.state station
    have on : (t.station n).channel = (s.station n).channel := by rw [station]; rfl
    have select : (t.station n).policySelect = (s.station n).policySelect := by rw [station]; rfl
    simp only [state, reduceCtorEq, or_self, if_false, true_and, false_implies, true_implies]
    refine ⟨station, others, notice, fun of => ?_, fun inactive => ?_, fun g list of active elastic backlog out => ?_,
      fun g list active periodic outside => ?_⟩
    · have enters := State.flowsEnter_foldl n (s.station n).channel (s.station n).flowList
        { s.managed t with stations := t.stations } of online on
      exact (congrArg (State.FlowsEnter n _ _ _) entry).mpr enters
    · exact entry.trans (State.onlineFlows_inactive n _ { s.managed t with stations := t.stations } _ inactive)
    · have class' : ({ s.managed t with stations := t.stations } : State).classOf g = s.classOf g :=
        State.classOf_congr of rfl rfl rfl select
      rw [← class']
      rw [list] at entry
      exact entry.trans (State.onlineFlow_joinsList (s := { s.managed t with stations := t.stations }) of online on
        active elastic backlog out)
    · rw [list, List.foldl_cons, List.foldl_nil] at entry
      refine ⟨fun room => ?_, fun full => entry.trans ((State.onlineFlow_periodic
        (s := { s.managed t with stations := t.stations }) active periodic n _).trans (if_pos full))⟩
      obtain ⟨timed, waiting, frame⟩ := State.onlineFlow_joinsCalendar
        (s := { s.managed t with stations := t.stations }) active periodic outside room n
      rw [← entry] at timed waiting frame
      exact ⟨timed, waiting, frame⟩

end Sys2Proof.Machine
end

section
/-! SUPPORT. What the settling of a record keeps for the test of R13: channels, Plan Stores, Expect Queues and the notice
of a stop; and what that test leaves. -/

namespace Sys2Proof.Machine

namespace State

/-- What the test of R13 reads and writes beside the Expect Queue is in `t` as it is in `s`, and so are the Expect
Queues. -/
structure StopKept (s t : State) : Prop where
  channels : t.channels = s.channels
  planStores : t.planStores = s.planStores
  expectQueues : t.expectQueues = s.expectQueues
  noticeEnable : t.noticeEnable = s.noticeEnable
  notice : t.notice .channelStopped = s.notice .channelStopped

namespace StopKept

theorem refl (s : State) : s.StopKept s := ⟨rfl, rfl, rfl, rfl, rfl⟩

theorem trans {s t u : State} (h : s.StopKept t) (k : t.StopKept u) : s.StopKept u :=
  ⟨k.channels.trans h.channels, k.planStores.trans h.planStores, k.expectQueues.trans h.expectQueues,
    k.noticeEnable.trans h.noticeEnable, k.notice.trans h.notice⟩

theorem putStation (s : State) (n : StationNo) (x : Station) : s.StopKept (s.putStation n x) :=
  ⟨rfl, rfl, rfl, rfl, rfl⟩

theorem count (s : State) (c : ChanNo) (k : ChannelCounter) (j : Nat) : s.StopKept (s.count c k j) :=
  ⟨rfl, rfl, rfl, rfl, rfl⟩

theorem countDevice (s : State) (k : DeviceCounter) (j : Nat) : s.StopKept (s.countDevice k j) :=
  ⟨rfl, rfl, rfl, rfl, rfl⟩

theorem raise (s : State) (d : NoticeDetail) (other : .channelStopped ≠ d.kind) : s.StopKept (s.raise d) :=
  ⟨rfl, rfl, rfl, rfl, notice_raise_ne s d other⟩

/-! ## Stations (chapters 2 and 7) -/

theorem pollEnqueue (s : State) (n : StationNo) : s.StopKept (s.pollEnqueue n) := by
  rw [pollEnqueue_frame]
  exact ⟨rfl, rfl, rfl, rfl, rfl⟩

theorem offerAdjust (s : State) (a : AdjustEntry) : s.StopKept (s.offerAdjust a) := by
  obtain ⟨-, e⟩ | ⟨-, -, e⟩ | ⟨-, -, e⟩ := offerAdjust_cases s a <;> rw [e]
  · exact ⟨rfl, rfl, rfl, rfl, rfl⟩
  · exact ⟨rfl, rfl, rfl, rfl, rfl⟩
  · exact ((countDevice s .adjustsDropped 1).trans (raise _ (.adjustDrop _ _ _ _ _) nofun)).trans (pollEnqueue _ _)

theorem enterOnline (s : State) (n : StationNo) : s.StopKept (s.enterOnline n) := by
  obtain ⟨sts, fs, as, cs, ks, ns, e⟩ := enterOnline_frame s n
  have notice : (s.enterOnline n).notice .channelStopped = s.notice .channelStopped :=
    onlineFlows_notice n _ (by simp) _ _
  rw [e] at notice ⊢
  exact ⟨rfl, rfl, rfl, rfl, notice⟩

theorem successTransition (s : State) (n : StationNo) : s.StopKept (s.successTransition n) := by
  unfold State.successTransition
  split
  · split
    · exact (enterOnline s n).trans (raise _ (.stationOnline _ _) nofun)
    · exact ⟨rfl, rfl, rfl, rfl, rfl⟩
  · exact refl s

theorem success (s : State) (n : StationNo) (c : ChanNo) (b : Beat) : s.StopKept (s.success n c b) := by
  unfold State.success
  dsimp only
  split
  · exact (((putStation s n _).trans (count _ c .alignSuccess 1)).trans (successTransition _ n)).trans
      (offerAdjust _ _)
  · exact ((putStation s n _).trans (count _ c .alignSuccess 1)).trans (successTransition _ n)

theorem correct (s : State) (n : StationNo) (c : ChanNo) (m : Measurement) : s.StopKept (s.correct n c m) := by
  unfold State.correct
  dsimp only
  refine ((offerAdjust s (s.correction n c m)).trans ?_).trans (pollEnqueue _ n)
  split
  · exact (putStation _ n _).trans (count _ c .alignCorrected 1)
  · exact refl _

theorem lose (s : State) (n : StationNo) : s.StopKept (s.lose n) := by
  unfold State.lose
  dsimp only
  refine StopKept.trans ?_ (raise _ (.stationLost _ _ _) nofun)
  unfold adjustRemove pollRemove
  rw [mapFlows_frame, listFrame_takenOffline]
  exact ⟨rfl, rfl, rfl, rfl, rfl⟩

theorem missAdmitted (s : State) (n : StationNo) (c : ChanNo) : s.StopKept (s.missAdmitted n c) := by
  unfold State.missAdmitted
  dsimp only
  split
  · exact ((putStation s n _).trans (count _ c .misses 1)).trans ((lose _ n).trans (count _ c .stationsLost 1))
  · exact ((putStation s n _).trans (count _ c .misses 1)).trans (pollEnqueue _ n)

theorem miss (s : State) (n : StationNo) (c : ChanNo) : s.StopKept (s.miss n c) := by
  unfold State.miss
  split
  · exact missAdmitted s n c
  · exact refl s

theorem judge (s : State) (n : StationNo) (c : ChanNo) (b : Beat) (m : Measurement) : s.StopKept (s.judge n c b m) := by
  unfold State.judge
  split
  · exact success s n c b
  · split
    · exact (count s c .alignLimited 1).trans (missAdmitted _ n c)
    · exact correct s n c m

theorem pollMeasurement (s : State) (n : StationNo) (c : ChanNo) (b : Beat) (m : Measurement) :
    s.StopKept (s.pollMeasurement n c b m) := by
  unfold State.pollMeasurement
  split
  · exact (putStation s n _).trans (judge _ n c b m)
  · exact refl s

theorem settlePoll (s : State) (r : BurstRecord) (n : StationNo) : s.StopKept (s.settlePoll r n) := by
  unfold State.settlePoll
  split
  · split
    · exact pollMeasurement s n _ _ _
    · exact refl s
  · split
    · exact pollMeasurement s n _ _ _
    · exact refl s
  all_goals exact miss s n _

/-! ## Units (R147) -/

theorem enlist (s : State) (f : FlowNo) : s.StopKept (s.enlist f) := by
  obtain ⟨-, e⟩ | ⟨m, -, -, -, e⟩ := enlist_cases s f <;> rw [e] <;> exact ⟨rfl, rfl, rfl, rfl, rfl⟩

theorem requestHandoff (s : State) (c : ChanNo) (b : Beat) (f : FlowNo) (k : Nat) (x : Option NamedStation) :
    s.StopKept (s.requestHandoff c b f k x) := by
  obtain ⟨-, e⟩ | ⟨-, -, e⟩ | ⟨-, -, -, e⟩ | ⟨-, -, -, e⟩ := requestHandoff_cases s c b f k x <;> rw [e]
  · exact refl s
  · exact ⟨rfl, rfl, rfl, rfl, rfl⟩
  · exact ⟨rfl, rfl, rfl, rfl, rfl⟩
  · unfold acceptRequest
    dsimp only
    refine StopKept.trans ?_ (enlist _ f)
    split <;> exact ⟨rfl, rfl, rfl, rfl, rfl⟩

theorem forward (s : State) (u : ForwardUnit) : s.StopKept (s.forward u) := by
  obtain ⟨-, e⟩ | ⟨-, e⟩ := forward_cases s u <;> rw [e]
  · exact ⟨rfl, rfl, rfl, rfl, rfl⟩
  · exact (countDevice s .forwardDrop 1).trans (raise _ (.forwardDrop _ _ _ _) nofun)

theorem dispatchUnit (s : State) (r : BurstRecord) (g : Grant) (u : BurstUnit) : s.StopKept (s.dispatchUnit r g u) := by
  cases u with
  | data q =>
    show s.StopKept (s.takeDataUnit r g q)
    unfold takeDataUnit
    split
    · exact forward s _
    · exact ⟨rfl, rfl, rfl, rfl, rfl⟩
  | request f k x =>
    show s.StopKept (s.takeRequestUnit r g f k x)
    cases g with
    | join => exact ⟨rfl, rfl, rfl, rfl, rfl⟩
    | data | periodic | poll | request => exact requestHandoff s _ _ f k _
  | join h =>
    show s.StopKept (s.takeJoinUnit r g)
    cases g <;> exact ⟨rfl, rfl, rfl, rfl, rfl⟩
  | behind =>
    show s.StopKept (s.behindHandoff r.channel g)
    unfold behindHandoff
    split
    · split <;> exact ⟨rfl, rfl, rfl, rfl, rfl⟩
    all_goals exact ⟨rfl, rfl, rfl, rfl, rfl⟩

theorem dispatchUnits (s : State) (r : BurstRecord) (g : Grant) : s.StopKept (s.dispatchUnits r g) := by
  have each : ∀ (us : List BurstUnit) (t : State), t.StopKept (us.foldl (fun t u => t.dispatchUnit r g u) t) := by
    intro us
    induction us with
    | nil => exact refl
    | cons u us ih => exact fun t => (dispatchUnit t r g u).trans (ih _)
  exact each _ s

end StopKept

/-! ## The test of R13 -/

/-- The test writes the channels and the notices alone, and of these only the notice of a stop. -/
theorem testStop_frame (s : State) (c : ChanNo) :
    s.testStop c = { s with channels := (s.testStop c).channels, notices := (s.testStop c).notices } ∧
    ∀ k, k ≠ .channelStopped → (s.testStop c).notice k = s.notice k := by
  obtain ⟨-, e⟩ | ⟨-, e⟩ := testStop_cases s c <;> rw [e]
  · exact ⟨rfl, fun _ _ => rfl⟩
  · exact ⟨rfl, fun k other => notice_raise_ne _ _ other⟩

@[simp] theorem testStop_station (s : State) (c : ChanNo) (n : StationNo) :
    (s.testStop c).station n = s.station n := by rw [(testStop_frame s c).1]; rfl

@[simp] theorem testStop_counter (s : State) (c d : ChanNo) (k : ChannelCounter) :
    (s.testStop c).counter d k = s.counter d k := by rw [(testStop_frame s c).1]; rfl

@[simp] theorem testStop_adjustQueue (s : State) (c : ChanNo) : (s.testStop c).adjustQueue = s.adjustQueue := by
  rw [(testStop_frame s c).1]

@[simp] theorem testStop_expectQueues (s : State) (c : ChanNo) : (s.testStop c).expectQueues = s.expectQueues := by
  rw [(testStop_frame s c).1]

/-- The test of R13 after an event that keeps what it reads (R13). -/
theorem stopTested_testStop {s u : State} {c : ChanNo} (channels : u.channels = s.channels)
    (plans : u.planStores = s.planStores) (enable : u.noticeEnable = s.noticeEnable)
    (notice : u.notice .channelStopped = s.notice .channelStopped) : s.StopTested (u.testStop c) c := by
  have context : u.context c = s.context c := by rw [context, channels, context]
  have awaits : u.awaits c = s.awaits c := by simp only [awaits, planStore, plans]
  have queue : (u.testStop c).expectQueue c = u.expectQueue c := by simp only [expectQueue, testStop_expectQueues]
  have stops : u.stopsNow c = true ↔
      (s.context c).state = .draining ∧ (s.context c).drainMark = .afterFinalSwap ∧ s.awaits c = false ∧
        u.expectQueue c = [] := by
    simp [stopsNow, and_assoc, context, awaits]
  rw [StopTested, queue, ← stops]
  obtain ⟨no, e⟩ | ⟨yes, e⟩ := testStop_cases u c <;> rw [e]
  · exact ⟨fun yes => absurd yes (by simp [no]), fun _ => ⟨channels, notice⟩⟩
  · refine ⟨fun _ => ⟨?_, raised_raise _ notice enable⟩, fun no => absurd yes no⟩
    simp only [raise_channels, putContext, channels, context, stopContext]

end State

end Sys2Proof.Machine
end

section
/-! SUPPORT. A miss of a station that R29 admits, and a loss (R33, R118), in the terms of State.Missed. -/

namespace Sys2Proof.Machine

namespace State

/-- An alignment result reaches a record as the model tests it (R29). -/
theorem resultReaches_iff (s : State) (n : StationNo) (c : ChanNo) : s.resultReaches n c = true ↔ s.Reaches n c := by
  simp [resultReaches, stationTakes, Reaches, or_assoc]

/-! ## A loss (R33) -/

theorem mapFlows_putStation (n : StationNo) (x : Station) (g : Flow → Flow) : ∀ (q : List FlowNo) (s : State),
    (s.putStation n x).mapFlows q g = (s.mapFlows q g).putStation n x
  | [], _ => rfl
  | f :: q, s => mapFlows_putStation n x g q (s.putFlow f (g (s.flow f)))

/-- What a loss leaves. -/
theorem lose_leaves (s : State) (n : StationNo) :
    (∀ m, (s.lose n).station m =
      if m = n then { s.station n with state := .lost, missCount := 0, inPollQueue := false } else s.station m) ∧
    (s.lose n).pollQueues =
      (s.putPollQueue (s.station n).channel ((s.pollQueue (s.station n).channel).erase n)).pollQueues ∧
    (s.lose n).adjustQueue = s.adjustQueue.filter (fun a => decide (a.station ≠ n)) ∧
    s.LeavesOnline (s.lose n) n ∧ s.BuildSees (s.lose n) ∧
    (∀ f, (s.lose n).flow f = if f ∈ (s.station n).flowList then lostFlow (s.flowOff n f) else s.flow f) ∧
    (s.lose n).channelCounters = s.channelCounters ∧
    s.Raised (s.lose n) (.stationLost n ((s.station n).hardwareId.getD 0) (s.station n).channel) := by
  obtain ⟨frame, leaves, sees, flows⟩ := takenOffline_mapFlows s n lostFlow_twice
  have record : (s.takenOffline n).station n = s.station n := by rw [listFrame_takenOffline]; rfl
  unfold lose
  dsimp only
  rw [mapFlows_putStation, record]
  generalize (s.takenOffline n).mapFlows (s.station n).flowList lostFlow = u at *
  have stations (m : StationNo) : u.station m = s.station m := by rw [frame]; rfl
  have queues : u.pollQueues = s.pollQueues := by rw [frame]
  have adjusts : u.adjustQueue = s.adjustQueue := by rw [frame]
  refine ⟨fun m => ?_, ?_, ?_, leavesOnline_congr leaves rfl rfl, buildSees_congr sees rfl rfl, flows, ?_,
    raised_raise _ ?_ ?_⟩
  · simp only [raise_station, adjustRemove, putAdjustQueue_station, pollRemove_station, station_putStation, stations,
      if_true]
    split <;> rfl
  · simp only [raise_pollQueues, adjustRemove, putAdjustQueue_pollQueues, pollRemove, putStation_pollQueues,
      station_putStation_same, putPollQueue, pollQueue, queues]
  · simp [adjustRemove, pollRemove, adjusts, bne, Bool.beq_eq_decide_eq]
  · simp only [raise_channelCounters, adjustRemove, pollRemove, putAdjustQueue_channelCounters,
      putStation_channelCounters, putPollQueue_channelCounters]
    rw [frame]
  · rw [frame]
    rfl
  · rw [frame]
    rfl

/-! ## Departures read from two states that agree -/

theorem flowOff_agree {s v : State} {n : StationNo} (flows : v.flows = s.flows) (calendars : v.calendars = s.calendars)
    (state : (v.station n).state = (s.station n).state) (channel : (v.station n).channel = (s.station n).channel)
    (f : FlowNo) : v.flowOff n f = s.flowOff n f := by
  have flow : v.flow f = s.flow f := by rw [flow, flows, flow]
  have calendar (d : ChanNo) : v.calendar d = s.calendar d := by rw [calendar, calendars, calendar]
  unfold flowOff outOfLists
  rw [flow, state, channel, calendar]

theorem leavesOnline_agree {s v t : State} {n : StationNo} (h : v.LeavesOnline t n) (flows : v.flows = s.flows)
    (lists : v.activeLists = s.activeLists) (calendars : v.calendars = s.calendars)
    (state : (v.station n).state = (s.station n).state) (channel : (v.station n).channel = (s.station n).channel)
    (list : (v.station n).flowList = (s.station n).flowList) : s.LeavesOnline t n := by
  have active (d : ChanNo) (l : Level) : v.active d l = s.active d l := by rw [active, lists, active]
  have flow (f : FlowNo) : v.flow f = s.flow f := by rw [flow, flows, flow]
  have calendar (d : ChanNo) : v.calendar d = s.calendar d := by rw [calendar, calendars, calendar]
  simpa only [LeavesOnline, ListsWithout, active, flow, calendar, lists, calendars, state, channel, list] using h

theorem buildSees_agree {s v t : State} (h : v.BuildSees t) (engine : v.engine = s.engine)
    (lists : v.activeLists = s.activeLists) : s.BuildSees t := by
  have active (d : ChanNo) (l : Level) : v.active d l = s.active d l := by rw [active, lists, active]
  simpa only [BuildSees, active, engine] using h

theorem raised_agree {s v t : State} {d : NoticeDetail} (h : v.Raised t d) (notices : v.notices = s.notices)
    (enable : v.noticeEnable = s.noticeEnable) : s.Raised t d := by
  have notice (k : NoticeKind) : v.notice k = s.notice k := by rw [notice, notices, notice]
  simpa only [Raised, notice, enable] using h

/-! ## A miss (R118) -/

/-- The state in which a miss of station `n` from channel `c` is taken differs from `s` in what the record's settling has
written ahead of it: the Expect Queues, counters but those of a miss, and LAST MEASUREMENT of the station. -/
structure MissFrom (s u : State) (n : StationNo) (c : ChanNo) : Prop where
  frame : u = { s with
    expectQueues := u.expectQueues, stations := u.stations, channelCounters := u.channelCounters }
  others : ∀ m, m ≠ n → u.station m = s.station m
  record : u.station n = { s.station n with lastMeasurement := (u.station n).lastMeasurement }
  counters : ∀ k ∈ [ChannelCounter.misses, .stationsLost, .pollQueueFull], u.counter c k = s.counter c k

/-- The miss counted, in the station's record and in its channel's counters. -/
def missCounted (s : State) (n : StationNo) (c : ChanNo) : State :=
  (s.putStation n { s.station n with missCount := (s.station n).missCount + 1 }).count c .misses 1

/-- A miss that reaches MISS LIMIT is a loss; any other asks the station onto the poll queue (R118). -/
theorem missAdmitted_eq (s : State) (n : StationNo) (c : ChanNo) :
    s.missAdmitted n c =
      if (s.params c).missLimit ≤ (s.station n).missCount + 1 then
        ((s.missCounted n c).lose n).count c .stationsLost 1
      else (s.missCounted n c).pollEnqueue n := rfl

/-- A miss that R29 admits leaves what State.Missed says. -/
theorem missed_missAdmitted {s u : State} {n : StationNo} {c : ChanNo} (from' : s.MissFrom u n c)
    (reaches : s.Reaches n c) : s.Missed (u.missAdmitted n c) c n := by
  refine ⟨fun no => absurd reaches no, fun _ => ?_⟩
  obtain ⟨frame, others, record, counters⟩ := from'
  have on : (s.station n).channel = c := reaches.2
  have limit : (u.params c).missLimit = (s.params c).missLimit := by rw [frame]; rfl
  have misses : (u.station n).missCount = (s.station n).missCount := by rw [record]
  rw [missAdmitted_eq, limit, misses]
  have stations (m : StationNo) : (u.missCounted n c).station m =
      if m = n then
        { s.station n with
          missCount := (s.station n).missCount + 1, lastMeasurement := (u.station n).lastMeasurement }
      else s.station m := by
    show ((u.putStation n _).count c .misses 1).station m = _
    rw [count_station, station_putStation, misses, record]
    split
    · rfl
    · exact others m ‹_›
  have here := stations n
  rw [if_pos rfl] at here
  have counted (k : ChannelCounter) (hk : k ∈ [ChannelCounter.misses, .stationsLost, .pollQueueFull]) :
      (u.missCounted n c).counter c k = if k = .misses then saturate (s.counter c k) 1 else s.counter c k := by
    show ((u.putStation n _).count c .misses 1).counter c k = _
    rw [counter_count, putStation_counter, putStation_counter, counters k hk, counters .misses (by simp)]
    by_cases same : k = .misses <;> simp [same]
  have same : u.missCounted n c = { s with
      expectQueues := u.expectQueues, stations := (u.missCounted n c).stations
      channelCounters := (u.missCounted n c).channelCounters } := by
    rw [frame]
    rfl
  generalize u.missCounted n c = v at *
  have flows : v.flows = s.flows := by rw [same]
  have lists : v.activeLists = s.activeLists := by rw [same]
  have calendars : v.calendars = s.calendars := by rw [same]
  have engine : v.engine = s.engine := by rw [same]
  have queues : v.pollQueues = s.pollQueues := by rw [same]
  have queue : v.pollQueue c = s.pollQueue c := by rw [pollQueue, queues, pollQueue]
  have adjusts : v.adjustQueue = s.adjustQueue := by rw [same]
  have notices : v.notices = s.notices := by rw [same]
  have enable : v.noticeEnable = s.noticeEnable := by rw [same]
  split
  · next lost =>
    obtain ⟨after, polls, removed, leaves, sees, off, counters', raised⟩ := lose_leaves v n
    have count (k : ChannelCounter) : (v.lose n).counter c k = v.counter c k := by rw [counter, counters', counter]
    refine ⟨?_, fun m hm => ?_, fun below => absurd below (Nat.not_lt.2 lost), fun _ => ⟨?_, ?_, ?_, ?_, ?_, fun f hf => ?_,
      fun f hf => ?_, ?_, ?_, ?_⟩⟩
    · simp [counter_count, count, counted]
    · rw [count_station, after, if_neg hm, stations, if_neg hm]
    · rw [count_station, after, if_pos rfl, here]
    · rw [count_pollQueues, polls, here, on, queue, putPollQueue, queues]
      rfl
    · rw [count_adjustQueue, removed, adjusts]
    · exact leavesOnline_agree (leavesOnline_congr leaves rfl rfl) flows lists calendars (by rw [here]) (by rw [here])
        (by rw [here])
    · exact buildSees_agree (buildSees_congr sees rfl rfl) engine lists
    · rw [count_flow, off, here, if_pos hf, flowOff_agree flows calendars (by rw [here]) (by rw [here])]
      rfl
    · rw [count_flow, off, here, if_neg hf, flow, flows, flow]
    · simp [counter_count, count, counted]
    · simp [counter_count, count, counted]
    · rw [here, on] at raised
      exact raised_agree raised notices enable
  · next kept =>
    have asked := pollEnqueue_frame v n
    have count (k : ChannelCounter) : (v.pollEnqueue n).counter c k =
        if k = .pollQueueFull ∧ (s.station n).inPollQueue = false ∧ 256 ≤ (s.pollQueue c).length then
          saturate (v.counter c k) 1
        else v.counter c k := by
      rw [pollEnqueue_counter, here, on, queue]
      simp only [true_and]
    refine ⟨?_, fun m hm => ?_, fun _ => ⟨?_, ?_, ?_, ?_, ?_, ?_, ?_, ?_, ?_, ?_⟩, fun lost => absurd lost kept⟩
    · simp [count, counted]
    · rw [pollEnqueue_station, if_neg hm, stations, if_neg hm]
    · simp only [pollEnqueue_station, if_true, here, on, queue]
    · rw [pollEnqueue_pollQueues, here, on, queue, putPollQueue, queues]
      rfl
    · simp [count, counted]
    · rw [asked, ← flows]
    · rw [asked, ← lists]
    · rw [asked, ← calendars]
    · rw [asked, ← engine]
    · rw [asked, ← adjusts]
    · simp [count, counted]
    · rw [asked, notice, notice, ← notices]

end State

end Sys2Proof.Machine
end

section
/-! SUPPORT. The three outcomes of a poll or join measurement (R117) and the adjustment offered with it (R120). -/

namespace Sys2Proof.Machine

namespace State

/-! ## An offered adjustment (R120) -/

theorem offerAdjust_adjustQueue (s : State) (a : AdjustEntry) : (s.offerAdjust a).adjustQueue = s.OfferedQueue a := by
  unfold OfferedQueue
  obtain ⟨waits, e⟩ | ⟨out, room, e⟩ | ⟨out, full, e⟩ := offerAdjust_cases s a <;> rw [e]
  · rw [if_pos waits]
    rfl
  · have room : s.adjustQueue.length < 64 := room
    rw [out, if_neg Bool.false_ne_true, if_pos room]
    rfl
  · have full : ¬ s.adjustQueue.length < 64 := Nat.not_lt.2 full
    rw [out, if_neg Bool.false_ne_true, if_neg full, pollEnqueue_frame]
    rfl

/-- The offer writes nothing of a station but IN POLL QUEUE. -/
theorem offerAdjust_station (s : State) (a : AdjustEntry) (m : StationNo) :
    ∃ asked, (s.offerAdjust a).station m = { s.station m with inPollQueue := asked } := by
  obtain ⟨-, e⟩ | ⟨-, -, e⟩ | ⟨-, -, e⟩ := offerAdjust_cases s a <;> rw [e]
  · exact ⟨_, rfl⟩
  · exact ⟨_, rfl⟩
  · rw [pollEnqueue_station]
    split
    · next same => exact ⟨_, by rw [same]; rfl⟩
    · exact ⟨_, rfl⟩

/-- The offer counts nothing of a channel but POLL QUEUE FULL. -/
theorem offerAdjust_counter (s : State) (a : AdjustEntry) (d : ChanNo) {k : ChannelCounter} (h : k ≠ .pollQueueFull) :
    (s.offerAdjust a).counter d k = s.counter d k := by
  obtain ⟨-, e⟩ | ⟨-, -, e⟩ | ⟨-, -, e⟩ := offerAdjust_cases s a <;> rw [e]
  · rfl
  · rfl
  · simp [pollEnqueue_counter, h]

/-! ## A success (R117, R28) -/

theorem enterOnline_station (s : State) (n m : StationNo) :
    (s.enterOnline n).station m = if m = n then { s.station n with state := .online } else s.station m := by
  obtain ⟨fs, as, cs, ks, ns, entered⟩ := onlineFlows_frame n (s.station n).channel (s.station n).flowList
    (s.putStation n { s.station n with state := .online })
  rw [enterOnline, entered]
  exact station_putStation s n m { s.station n with state := .online }

/-- The state an alignment success leaves a station in (R28). -/
theorem successTransition_station (s : State) (n : StationNo) :
    (s.successTransition n).station n =
      { s.station n with
        state :=
          if (s.station n).state = .aligning then if (s.station n).admitted then .online else .parked
          else (s.station n).state } := by
  unfold successTransition
  by_cases aligning : (s.station n).state = .aligning
  · by_cases admitted : (s.station n).admitted = true <;> simp [aligning, admitted, enterOnline_station]
  · simp [aligning]

theorem successTransition_adjustQueue (s : State) (n : StationNo) :
    (s.successTransition n).adjustQueue = s.adjustQueue := by
  unfold successTransition
  split
  · split
    · obtain ⟨sts, fs, as, cs, ks, ns, e⟩ := enterOnline_frame s n
      rw [e]
      rfl
    · rfl
  · rfl

theorem successTransition_counter (s : State) (n : StationNo) (d : ChanNo) {k : ChannelCounter} (h : k ≠ .calendarFull) :
    (s.successTransition n).counter d k = s.counter d k := by
  unfold successTransition
  split
  · split
    · exact onlineFlows_counter n _ d h _ _
    · rfl
  · rfl

/-- What a success leaves (R117). -/
theorem success_leaves (s : State) (n : StationNo) (c : ChanNo) (b : Beat) :
    (∃ asked, (s.success n c b).station n =
      { s.station n with
        missCount := 0, lastGood := some b, inPollQueue := asked
        state :=
          if (s.station n).state = .aligning then if (s.station n).admitted then .online else .parked
          else (s.station n).state }) ∧
    (s.success n c b).counter c .alignSuccess = saturate (s.counter c .alignSuccess) 1 ∧
    (s.success n c b).adjustQueue =
      if (s.station n).state = .aligning then
        s.OfferedQueue { station := n, channel := c, timingStep := 0, powerStep := 0, aligned := true }
      else s.adjustQueue := by
  obtain ⟨u, good⟩ : ∃ u, u =
      (s.putStation n { s.station n with missCount := 0, lastGood := some b }).count c .alignSuccess 1 := ⟨_, rfl⟩
  have record : u.station n = { s.station n with missCount := 0, lastGood := some b } := by simp [good]
  have counted : u.counter c .alignSuccess = saturate (s.counter c .alignSuccess) 1 := by simp [good, counter_count]
  have moved := successTransition_station u n
  have passed := successTransition_counter u n c (k := .alignSuccess) (by simp)
  have kept : (u.successTransition n).adjustQueue = s.adjustQueue := by
    rw [successTransition_adjustQueue, good]
    rfl
  rw [record] at moved
  have e : s.success n c b =
      if (s.station n).state = .aligning then
        (u.successTransition n).offerAdjust
          { station := n, channel := c, timingStep := 0, powerStep := 0, aligned := true }
      else u.successTransition n := by rw [good]; rfl
  by_cases aligning : (s.station n).state = .aligning
  · obtain ⟨asked, station⟩ := offerAdjust_station (u.successTransition n)
      { station := n, channel := c, timingStep := 0, powerStep := 0, aligned := true } n
    rw [e.trans (if_pos aligning)]
    refine ⟨⟨asked, station.trans (by rw [moved])⟩, ?_, ?_⟩
    · rw [offerAdjust_counter _ _ _ (by simp), passed, counted]
    · rw [if_pos aligning, offerAdjust_adjustQueue, OfferedQueue, kept]
      rfl
  · rw [e.trans (if_neg aligning)]
    exact ⟨⟨_, moved⟩, passed.trans counted, kept.trans (if_neg aligning).symm⟩

/-! ## A correctable measurement (R117, R120) -/

/-- An adjustment is taken where one of its station waits, or the queue of 64 has room (R120). -/
theorem adjustTaken_iff (s : State) (a : AdjustEntry) :
    s.adjustTaken a = true ↔ (∃ x ∈ s.adjustQueue, x.station = a.station) ∨ s.adjustQueue.length < 64 := by
  simp only [adjustTaken, Bool.or_eq_true, List.any_eq_true, beq_iff_eq, decide_eq_true_eq]
  rfl

/-- An adjustment taken writes the adjust queue and the device's counters alone (R120). -/
theorem offerAdjust_taken {s : State} {a : AdjustEntry} (taken : s.adjustTaken a = true) :
    s.offerAdjust a =
      { s with adjustQueue := s.OfferedQueue a, deviceCounters := (s.offerAdjust a).deviceCounters } := by
  have queue := offerAdjust_adjustQueue s a
  obtain ⟨-, e⟩ | ⟨-, -, e⟩ | ⟨out, full, -⟩ := offerAdjust_cases s a
  · rw [← queue, e]
    rfl
  · rw [← queue, e]
    rfl
  · simp [adjustTaken, out, Nat.not_lt.2 full] at taken

/-- An adjustment dropped is counted and noticed, and its station is asked onto the poll queue (R120). -/
theorem offerAdjust_dropped {s : State} {a : AdjustEntry} (dropped : s.adjustTaken a = false) :
    s.offerAdjust a =
      ((s.countDevice .adjustsDropped 1).raise
        (.adjustDrop a.station a.channel a.timingStep a.powerStep a.aligned)).pollEnqueue a.station := by
  simp only [adjustTaken, Bool.or_eq_false_iff, decide_eq_false_iff_not] at dropped
  simp [offerAdjust, dropped]

/-- What a correctable measurement leaves (R117). -/
theorem correct_leaves (s : State) {n : StationNo} {c : ChanNo} (on : (s.station n).channel = c) (m : Measurement) :
    (s.correct n c m).adjustQueue = s.OfferedQueue (s.correction n c m) ∧
    (s.correct n c m).station n =
      { s.station n with
        timingTotal :=
          if s.adjustTaken (s.correction n c m) then proposedTiming (s.params c) (s.station n).timingTotal m
          else (s.station n).timingTotal
        powerTotal :=
          if s.adjustTaken (s.correction n c m) then proposedPower (s.params c) (s.station n).powerTotal m
          else (s.station n).powerTotal
        inPollQueue := (s.station n).inPollQueue || decide ((s.pollQueue c).length < 256) } ∧
    (s.correct n c m).counter c .alignCorrected =
      (if s.adjustTaken (s.correction n c m) then saturate (s.counter c .alignCorrected) 1
      else s.counter c .alignCorrected) ∧
    (s.adjustTaken (s.correction n c m) = false →
      s.Raised (s.correct n c m)
        (.adjustDrop n c (s.correction n c m).timingStep (s.correction n c m).powerStep false)) := by
  cases taken : s.adjustTaken (s.correction n c m) with
  | true =>
    obtain ⟨u, corrected⟩ : ∃ u, u =
        ((s.offerAdjust (s.correction n c m)).putStation n
          { (s.offerAdjust (s.correction n c m)).station n with
            timingTotal := proposedTiming (s.params c) (s.station n).timingTotal m
            powerTotal := proposedPower (s.params c) (s.station n).powerTotal m }).count c .alignCorrected 1 := ⟨_, rfl⟩
    have e : s.correct n c m = u.pollEnqueue n := by simp only [correct, taken, if_true, corrected]
    have offered := offerAdjust_taken taken
    have station : u.station n =
        { s.station n with
          timingTotal := proposedTiming (s.params c) (s.station n).timingTotal m
          powerTotal := proposedPower (s.params c) (s.station n).powerTotal m } := by
      rw [corrected, offered]
      exact station_putStation_same _ n _
    have queue : u.pollQueue c = s.pollQueue c := by rw [corrected, offered]; rfl
    have counted : u.counter c .alignCorrected = saturate (s.counter c .alignCorrected) 1 := by
      rw [corrected, counter_count, if_pos ⟨rfl, rfl⟩, offered]
      rfl
    refine ⟨?_, ?_, ?_, fun no => nomatch no⟩
    · rw [e, pollEnqueue_frame, ← offerAdjust_adjustQueue, corrected]
      rfl
    · rw [e, pollEnqueue_station, if_pos rfl, station, on, queue]
      rfl
    · rw [e, pollEnqueue_counter, counted]
      simp
  | false =>
    obtain ⟨u, noticed⟩ : ∃ u, u = (s.countDevice .adjustsDropped 1).raise
        (.adjustDrop n c (s.correction n c m).timingStep (s.correction n c m).powerStep false) := ⟨_, rfl⟩
    have offered : s.offerAdjust (s.correction n c m) = u.pollEnqueue n := by
      rw [offerAdjust_dropped taken, noticed]
      rfl
    have e : s.correct n c m = (u.pollEnqueue n).pollEnqueue n := by simp [correct, taken, offered]
    have station : u.station n = s.station n := by rw [noticed]; rfl
    have queue : u.pollQueue c = s.pollQueue c := by rw [noticed]; rfl
    refine ⟨?_, ?_, ?_, fun _ => ?_⟩
    · rw [e, pollEnqueue_frame, ← offerAdjust_adjustQueue, offered]
    · rw [e, pollEnqueue_station, if_pos rfl, pollEnqueue_station, if_pos rfl, station]
      simp only [on, pollEnqueue_pollQueue, station, queue, Bool.false_eq_true, if_false]
      by_cases room : (s.pollQueue c).length < 256 <;> simp [room]
    · rw [e, pollEnqueue_counter, pollEnqueue_counter, noticed]
      simp
    · rw [e, pollEnqueue_frame, pollEnqueue_frame, noticed]
      exact raised_raise _ rfl rfl

end State

end Sys2Proof.Machine
end

section
/-! SUPPORT. A record matched to the POLL entry of a station (R144): what is judged, and that the test of R13 behind it
leaves the judgement as it is. -/

namespace Sys2Proof.Machine

namespace State

/-- A sound record that is matched to an entry of one burst and names no other station is settled, and the stopping
conditions of its channel are tested. -/
theorem exec_burstRecord_matched {s : State} {f : RawFrame} {r : BurstRecord} {e : ExpectEntry} (quiet : s.Quiet)
    (sound : f.burstRecord = some r) (found : findingOf (s.expectQueue r.channel) r.start = .entry e)
    (placed : misplaces r e = false) :
    exec (.burstRecord f) s = .next ((s.matchedRecord r e).testStop r.channel) := by
  show Host.Outcome.next (s.settle.takeBurstFrame f) = _
  simp [settle_quiet quiet, takeBurstFrame, sound, takeRecord, found, placed]

/-- A record of no units is its settling alone. -/
theorem matchedRecord_bare {s : State} {r : BurstRecord} {e : ExpectEntry} {n : StationNo} (poll : e.grant = .poll n)
    (bare : r.outcome.decoded = false ∨ r.units = []) :
    s.matchedRecord r e = (s.removeEntry r.channel e).settlePoll r n := by
  have none : r.units = [] → ∀ t : State, t.dispatchUnits r (.poll n) = t := fun h t => by
    simp [dispatchUnits, unitsToDispatch, h]
  simp only [matchedRecord, poll, settleEntry]
  rcases bare with undecoded | empty
  · simp [undecoded]
  · simp [none empty]

/-- What a record matched to a POLL entry keeps for the test of R13. -/
theorem stopKept_matchedRecord {s : State} {r : BurstRecord} {e : ExpectEntry} {n : StationNo} (poll : e.grant = .poll n) :
    (s.removeEntry r.channel e).StopKept (s.matchedRecord r e) := by
  have settled : (s.removeEntry r.channel e).StopKept ((s.removeEntry r.channel e).settlePoll r n) :=
    StopKept.settlePoll _ r n
  simp only [matchedRecord, poll, settleEntry]
  split
  · exact settled.trans (StopKept.dispatchUnits _ r _)
  · exact settled

/-- A miss is read neither from the channels nor from the notice of a stop. -/
theorem missed_testStop {s t : State} {c d : ChanNo} {n : StationNo} (h : s.Missed t c n) :
    s.Missed (t.testStop d) c n := by
  obtain ⟨frame, notices⟩ := testStop_frame t d
  have lost := notices .stationLost (by simp)
  obtain ⟨channels, raised, e⟩ : ∃ channels raised, t.testStop d = { t with channels := channels, notices := raised } :=
    ⟨_, _, frame⟩
  rw [e] at lost ⊢
  obtain ⟨aside, taken⟩ := h
  refine ⟨fun no => ?_, fun reaches => ?_⟩
  · obtain ⟨stations, flows, lists, calendars, engine, polls, adjusts, notice, counters⟩ := aside no
    exact ⟨stations, flows, lists, calendars, engine, polls, adjusts, lost.trans notice, counters⟩
  · obtain ⟨counted, others, below, reached⟩ := taken reaches
    refine ⟨counted, others, fun h => ?_, fun h => ?_⟩
    · obtain ⟨record, polls, full, flows, lists, calendars, engine, adjusts, losses, notice⟩ := below h
      exact ⟨record, polls, full, flows, lists, calendars, engine, adjusts, losses, lost.trans notice⟩
    · obtain ⟨record, polls, adjusts, leaves, sees, gone, kept, full, losses, notice⟩ := reached h
      exact ⟨record, polls, adjusts, leaves, sees, gone, kept, full, losses, lost.trans notice⟩

theorem settlePoll_failed {s : State} {r : BurstRecord} (n : StationNo) (failed : r.outcome.decoded = false) :
    s.settlePoll r n = s.miss n r.channel := by
  unfold settlePoll
  cases outcome : r.outcome <;> simp_all [BurstOutcome.decoded]

theorem settlePoll_decoded {s : State} {r : BurstRecord} {m : Measurement} (n : StationNo)
    (decoded : r.outcome.decoded = true) (measured : r.measurement = some m) :
    s.settlePoll r n = s.pollMeasurement n r.channel r.start m := by
  unfold settlePoll
  cases outcome : r.outcome <;> simp_all [BurstOutcome.decoded]

/-- A miss that R29 admits is taken. -/
theorem miss_reaches {s : State} {n : StationNo} {c : ChanNo} (reaches : s.Reaches n c) :
    s.miss n c = s.missAdmitted n c :=
  if_pos ((resultReaches_iff s n c).2 reaches)

/-- A measurement that reaches the record is judged in the state that holds it as LAST MEASUREMENT (R115). -/
theorem pollMeasurement_reaches {s : State} {n : StationNo} {c : ChanNo} (reaches : s.Reaches n c) (b : Beat)
    (m : Measurement) : s.pollMeasurement n c b m = (s.putMeasurement n m).judge n c b m :=
  if_pos ((resultReaches_iff s n c).2 reaches)

theorem putMeasurement_station (s : State) (n : StationNo) (m : Measurement) :
    (s.putMeasurement n m).station n = { s.station n with lastMeasurement := some m } := station_putStation_same s n _

/-- A miss leaves LAST MEASUREMENT as the settling has set it. -/
theorem missAdmitted_lastMeasurement (s : State) (n : StationNo) (c : ChanNo) :
    ((s.missAdmitted n c).station n).lastMeasurement = (s.station n).lastMeasurement := by
  have counted : (s.missCounted n c).station n = { s.station n with missCount := (s.station n).missCount + 1 } :=
    station_putStation_same s n _
  rw [missAdmitted_eq]
  split
  · rw [count_station, (lose_leaves _ n).1, if_pos rfl, counted]
  · rw [pollEnqueue_station, if_pos rfl, counted]

/-- A miss counts no counter of a channel but its own three. -/
theorem missAdmitted_counter (s : State) (n : StationNo) (c d : ChanNo) {k : ChannelCounter}
    (other : k ∉ [ChannelCounter.misses, .stationsLost, .pollQueueFull]) :
    (s.missAdmitted n c).counter d k = s.counter d k := by
  simp only [List.mem_cons, List.not_mem_nil, or_false, not_or] at other
  obtain ⟨miss, loss, full⟩ := other
  have counted : (s.missCounted n c).counter d k = s.counter d k := by simp [missCounted, counter_count, miss]
  have lost : ((s.missCounted n c).lose n).counter d k = (s.missCounted n c).counter d k := by
    obtain ⟨-, -, -, -, -, -, counters, -⟩ := lose_leaves (s.missCounted n c) n
    rw [counter, counters, counter]
  rw [missAdmitted_eq]
  split
  · simp [counter_count, loss, lost, counted]
  · simp [pollEnqueue_counter, full, counted]

/-! ## A measurement that is judged, behind the removal of its entry -/

/-- What a success leaves of the state before the record. -/
theorem measured_success (s : State) (e : ExpectEntry) (n : StationNo) (c : ChanNo) (b : Beat) (m : Measurement) :
    (∃ asked, (((s.removeEntry c e).putMeasurement n m).success n c b).station n =
      { s.station n with
        lastMeasurement := some m, missCount := 0, lastGood := some b, inPollQueue := asked
        state :=
          if (s.station n).state = .aligning then if (s.station n).admitted then .online else .parked
          else (s.station n).state }) ∧
    (((s.removeEntry c e).putMeasurement n m).success n c b).counter c .alignSuccess =
      saturate (s.counter c .alignSuccess) 1 ∧
    (((s.removeEntry c e).putMeasurement n m).success n c b).adjustQueue =
      if (s.station n).state = .aligning then
        s.OfferedQueue { station := n, channel := c, timingStep := 0, powerStep := 0, aligned := true }
      else s.adjustQueue := by
  obtain ⟨⟨asked, station⟩, counted, adjusted⟩ := success_leaves ((s.removeEntry c e).putMeasurement n m) n c b
  rw [putMeasurement_station] at station adjusted
  exact ⟨⟨asked, station⟩, counted, adjusted⟩

/-- The adjustment of a correctable measurement: what the proposed totals add to the totals (R116, R117). -/
theorem correction_eq (s : State) (n : StationNo) (c : ChanNo) (m : Measurement) :
    s.correction n c m =
      { station := n, channel := c
        timingStep := proposedTiming (s.params c) (s.station n).timingTotal m - (s.station n).timingTotal
        powerStep := proposedPower (s.params c) (s.station n).powerTotal m - (s.station n).powerTotal
        aligned := false } := rfl

/-- The adjustment is read neither from LAST MEASUREMENT nor from the Expect Queue. -/
theorem correction_measured (s : State) (e : ExpectEntry) (n : StationNo) (c : ChanNo) (m : Measurement) :
    ((s.removeEntry c e).putMeasurement n m).correction n c m = s.correction n c m := by
  rw [correction_eq, putMeasurement_station]
  rfl

/-- What a correctable measurement leaves of the state before the record. -/
theorem measured_correct (s : State) (e : ExpectEntry) {n : StationNo} {c : ChanNo} (on : (s.station n).channel = c)
    (m : Measurement) :
    (((s.removeEntry c e).putMeasurement n m).correct n c m).adjustQueue = s.OfferedQueue (s.correction n c m) ∧
    (((s.removeEntry c e).putMeasurement n m).correct n c m).station n =
      { s.station n with
        lastMeasurement := some m
        timingTotal :=
          if s.adjustTaken (s.correction n c m) then proposedTiming (s.params c) (s.station n).timingTotal m
          else (s.station n).timingTotal
        powerTotal :=
          if s.adjustTaken (s.correction n c m) then proposedPower (s.params c) (s.station n).powerTotal m
          else (s.station n).powerTotal
        inPollQueue := (s.station n).inPollQueue || decide ((s.pollQueue c).length < 256) } ∧
    (((s.removeEntry c e).putMeasurement n m).correct n c m).counter c .alignCorrected =
      (if s.adjustTaken (s.correction n c m) then saturate (s.counter c .alignCorrected) 1
      else s.counter c .alignCorrected) ∧
    (s.adjustTaken (s.correction n c m) = false →
      s.Raised (((s.removeEntry c e).putMeasurement n m).correct n c m)
        (.adjustDrop n c (s.correction n c m).timingStep (s.correction n c m).powerStep false)) := by
  obtain ⟨adjusted, station, counted, dropped⟩ := correct_leaves ((s.removeEntry c e).putMeasurement n m) (n := n) (c := c)
    (by rw [putMeasurement_station]; exact on) m
  rw [correction_measured] at adjusted station counted dropped
  rw [putMeasurement_station] at station
  exact ⟨adjusted, station, counted, dropped⟩

/-- What an unfixable measurement leaves of the state before the record. -/
theorem measured_unfixable (s : State) (e : ExpectEntry) {n : StationNo} {c : ChanNo} (reaches : s.Reaches n c)
    (m : Measurement) :
    (((((s.removeEntry c e).putMeasurement n m).count c .alignLimited 1).missAdmitted n c).station n).lastMeasurement =
      some m ∧
    ((((s.removeEntry c e).putMeasurement n m).count c .alignLimited 1).missAdmitted n c).counter c .alignLimited =
      saturate (s.counter c .alignLimited) 1 ∧
    s.Missed ((((s.removeEntry c e).putMeasurement n m).count c .alignLimited 1).missAdmitted n c) c n := by
  have record : (((s.removeEntry c e).putMeasurement n m).count c .alignLimited 1).station n =
      { s.station n with lastMeasurement := some m } := putMeasurement_station _ n m
  refine ⟨?_, ?_, missed_missAdmitted ⟨rfl, fun k other => station_putStation_ne _ other _, ?_, fun k own => ?_⟩ reaches⟩
  · rw [missAdmitted_lastMeasurement, record]
  · rw [missAdmitted_counter _ _ _ _ (by simp), counter_count, if_pos ⟨rfl, rfl⟩]
    rfl
  · rw [record]
  · have other : k ≠ .alignLimited := by rintro rfl; simp at own
    rw [counter_count, if_neg (fun h => other h.2)]
    rfl

end State

theorem Params.within_iff (p : Params) (m : Measurement) :
    p.within m = true ↔ m.timing.natAbs ≤ p.timingTolerance ∧ m.power.natAbs ≤ p.powerTolerance := by
  simp [Params.within, Params.timingWithin, Params.powerWithin]

/-- The proposed timing total, its bounds written out (R116). -/
theorem proposedTiming_eq (p : Params) (total : Int) (m : Measurement) :
    proposedTiming p total m =
      if m.timing.natAbs ≤ p.timingTolerance then total else clampInt (total - m.timing) (-65535) 65535 := by
  simp only [proposedTiming, Params.timingWithin, decide_eq_true_eq, Config.maxTimingTotal]

/-- The proposed power total, its bounds written out (R116). -/
theorem proposedPower_eq (p : Params) (total : Int) (m : Measurement) :
    proposedPower p total m =
      if m.power.natAbs ≤ p.powerTolerance then total
      else clampInt (total + clampInt (-m.power) (-(p.maxPowerStep : Int)) p.maxPowerStep) (-96) 96 := by
  simp only [proposedPower, Params.powerWithin, decide_eq_true_eq, Config.maxPowerTotal]

/-- Settles O32: the removal of the entry keeps what the test of R13 reads (State.stopKept_matchedRecord), and each outcome
has its own law (State.missed_missAdmitted, State.measured_success, State.measured_unfixable, State.measured_correct). -/
theorem pollRecordsAreJudged : Obligations.PollRecordsAreJudged := by
  intro s f r e n quiet sound found poll placed reaches
  have away : (s.removeEntry r.channel e).Reaches n r.channel := reaches
  have kept := State.stopKept_matchedRecord (s := s) (r := r) poll
  refine ⟨_, State.exec_burstRecord_matched quiet sound found placed, ?_,
    State.stopTested_testStop kept.channels kept.planStores kept.noticeEnable kept.notice, fun failed => ?_, ?_⟩
  · rw [State.testStop_expectQueues]
    exact kept.expectQueues
  · have undecoded : r.outcome.decoded = false := by rcases failed with h | h | h <;> rw [h] <;> rfl
    rw [State.matchedRecord_bare poll (.inl undecoded), State.settlePoll_failed n undecoded, State.miss_reaches away]
    exact State.missed_testStop (State.missed_missAdmitted ⟨rfl, fun _ _ => rfl, rfl, fun _ _ => rfl⟩ reaches)
  intro m st timing power a fine clean measured bare record tolerances proposedT proposedP adjustment
  subst record
  have decoded : r.outcome.decoded = true := by rcases clean with h | h <;> rw [h] <;> rfl
  have judged : s.matchedRecord r e =
      ((s.removeEntry r.channel e).putMeasurement n m).judge n r.channel r.start m := by
    rw [← State.pollMeasurement_reaches away, ← State.settlePoll_decoded n decoded measured]
    exact State.matchedRecord_bare poll (.inr bare)
  have timed : proposedTiming (s.params r.channel) (s.station n).timingTotal m = timing :=
    (proposedTiming_eq _ _ m).trans proposedT.symm
  have powered : proposedPower (s.params r.channel) (s.station n).powerTotal m = power :=
    (proposedPower_eq _ _ m).trans proposedP.symm
  have steps : s.correction n r.channel m = a := by rw [State.correction_eq, timed, powered, adjustment]
  have within : (s.params r.channel).within m = true ↔ fine := by rw [Params.within_iff, tolerances]
  have still : ((((s.removeEntry r.channel e).putMeasurement n m).correction n r.channel m).timingStep = 0 ∧
      (((s.removeEntry r.channel e).putMeasurement n m).correction n r.channel m).powerStep = 0) ↔
      timing = (s.station n).timingTotal ∧ power = (s.station n).powerTotal := by
    rw [State.correction_measured, steps, adjustment, Int.sub_eq_zero, Int.sub_eq_zero]
  have notice := (State.testStop_frame (s.matchedRecord r e) r.channel).2 .adjustDrop (by simp)
  rw [State.testStop_station]
  simp only [State.testStop_counter, State.testStop_adjustQueue]
  by_cases ok : fine
  · have success := judged.trans (if_pos (within.2 ok))
    obtain ⟨⟨asked, station⟩, counted, adjusted⟩ := State.measured_success s e n r.channel r.start m
    rw [success, station]
    exact ⟨rfl, fun _ => ⟨rfl, rfl, rfl, rfl, rfl, counted, adjusted⟩, fun no => absurd ok no, fun no => absurd ok no⟩
  by_cases unmoved : timing = (s.station n).timingTotal ∧ power = (s.station n).powerTotal
  · have unfixable := judged.trans ((if_neg (mt within.1 ok)).trans (if_pos (still.2 unmoved)))
    obtain ⟨measurement, counted, missed⟩ := State.measured_unfixable s e reaches m
    rw [unfixable]
    exact ⟨measurement, fun yes => absurd yes ok, fun _ _ _ => ⟨counted, State.missed_testStop missed⟩,
      fun _ moved => absurd unmoved moved⟩
  · have correctable := judged.trans ((if_neg (mt within.1 ok)).trans (if_neg (mt still.1 unmoved)))
    obtain ⟨adjusted, station, counted, dropped⟩ := State.measured_correct s e reaches.2 m
    have taken := s.adjustTaken_iff a
    have waits : a.station = n := by rw [adjustment]
    rw [waits] at taken
    rw [steps, timed, powered] at station
    rw [steps] at adjusted counted dropped
    rw [correctable] at notice ⊢
    rw [station, counted]
    refine ⟨rfl, fun yes => absurd yes ok, fun _ t p => absurd ⟨t, p⟩ unmoved, fun _ _ => ⟨adjusted, rfl, rfl, rfl,
      fun room => by simp [room], fun h => by simp [taken.2 h], fun out full => ?_⟩⟩
    have no : s.adjustTaken a = false :=
      Bool.eq_false_iff.2 fun yes => (taken.1 yes).elim (fun ⟨y, hy, same⟩ => out y hy same) (Nat.not_lt.2 full)
    simp only [no, Bool.false_eq_true, if_false, true_and]
    exact notice.trans (dropped no)

end Sys2Proof.Machine
end

section
/-! SUPPORT. The operations of management on flows: the execution around each, and what each answers by its checks (R41 to
R44). -/

namespace Sys2Proof.Machine

namespace State

/-! ## An operation that is taken whole (R155, R156) -/

/-- An operation on `s` answers without results, leaves alone what the execution around it writes, and changes nothing unless
its code is one of `acting`. -/
structure Operates (s : State) (acting : List Code) (a : Answer) : Prop where
  bare : a.results = []
  kept : s.ManagementKept a.state
  refused : a.code ∉ acting → a.state = s

theorem operates_refused (s : State) (acting : List Code) (code : Code) : s.Operates acting (s.answer code) :=
  ⟨rfl, ⟨rfl, rfl, rfl, rfl⟩, fun _ => rfl⟩

theorem operates_acts {s u : State} {acting : List Code} {code : Code} (kept : s.ManagementKept u)
    (acts : code ∈ acting) : s.Operates acting (u.answer code) :=
  ⟨rfl, kept, fun no => absurd acts no⟩

/-- The execution of such an operation leaves its state, but for what every execution writes. -/
theorem Operates.executes {s : State} {f : RawFrame} {q : List RawFrame} {o : Op} {a : Answer} {acting : List Code}
    (operates : (s.beginFrame q).Operates acting a) (head : s.Executes f q o)
    (takes : (s.beginFrame q).operate f.tag o = .ends a) :
    ∃ t, s.executeRow (Parsed.row (.op o)) = t ∧ s.Answers t f q a.code [] ∧
      (a.code ∉ acting → t = s.managed t) ∧ t = a.state.managed t := by
  obtain ⟨bare, ⟨control, responses, hold, counters⟩, refused⟩ := operates
  obtain ⟨answers, frame⟩ := executeFrame_answers head takes responses control hold counters
  have queue : (s.executeFrame f q).controlQueue = a.state.controlQueue := answers.1.trans control.symm
  have left : s.executeFrame f q = a.state.managed (s.executeFrame f q) := by
    rw [managed, queue]
    exact frame
  exact ⟨_, executeRow_executes head, bare ▸ answers, fun no => left.trans (by rw [refused no]; rfl), left⟩

@[simp] theorem beginFrame_flow (s : State) (q : List RawFrame) (g : FlowNo) : (s.beginFrame q).flow g = s.flow g := rfl

@[simp] theorem answer_state (s : State) (code : Code) : (s.answer code).state = s := rfl

/-! ## FLOW-BIND (R41) -/

theorem flowBindOp_eq (s : State) (g : FlowNo) (n : StationNo) :
    s.flowBindOp g.val n.val =
      if (s.flow g).state ≠ .idle then s.answer .state
      else if (s.station n).state = .free then s.answer .state
      else if 16 ≤ (s.station n).flowList.length then s.answer .full
      else
        ((s.putFlow g { s.flow g with state := .held, station := some n, fillAnchor := none }).putStation n
          { s.station n with flowList := (s.station n).flowList ++ [g] }).answer .done := by
  unfold flowBindOp
  rw [asIndex_val, asIndex_val]
  rfl

theorem flowBindOp_operates (s : State) (i j : Nat) : s.Operates [.done] (s.flowBindOp i j) := by
  unfold flowBindOp
  split
  · exact operates_refused s _ _
  · exact operates_refused s _ _
  · split_ifs
    iterate 3 exact operates_refused s _ _
    exact operates_acts ⟨rfl, rfl, rfl, rfl⟩ (by simp)

/-! ## FLOW-ACTIVATE (R42) -/

/-- The flow `g` made ACTIVE, before it joins its list or its calendar. -/
def activated (s : State) (g : FlowNo) : State := s.putFlow g { s.flow g with state := .active }

@[simp] theorem activated_flow_same (s : State) (g : FlowNo) :
    (s.activated g).flow g = { s.flow g with state := .active } := flow_putFlow_same _ _ _

/-- A flow that is made ACTIVE under an ONLINE station enters as the flows of a station do that enters ONLINE, but that a
full calendar refuses it (R42, R86). -/
theorem activateFlow_eq (s : State) (g : FlowNo) (n : StationNo) :
    s.activateFlow g n =
      if (s.station n).state ≠ .online then (s.activated g).answer .done
      else if (s.flow g).kind = .periodic ∧ s.calendarFull (s.station n).channel = true then
        (s.count (s.station n).channel .calendarFull 1).answer .full
      else ((s.activated g).onlineFlow n (s.station n).channel g).answer .done := by
  have stands : (s.activated g).calendarFull (s.station n).channel = s.calendarFull (s.station n).channel := rfl
  unfold activateFlow onlineFlow
  rw [activated_flow_same, stands]
  cases kind : (s.flow g).kind
  · simp [activated]
  · by_cases no : s.calendarFull (s.station n).channel = true <;> simp [activated, no]

theorem calendarFull_iff (s : State) (c : ChanNo) :
    s.calendarFull c = true ↔ 1024 ≤ (s.calendar c).waiting.length + (s.calendar c).timed.length := decide_eq_true_iff

@[simp] theorem activated_classOf (s : State) (g : FlowNo) : (s.activated g).classOf g = s.classOf g := by
  unfold classOf
  rw [activated_flow_same]
  rfl

/-- An ELASTIC flow that becomes ACTIVE under an ONLINE station: with backlog it joins the tail of its level (R42, R57). -/
theorem activateFlow_elastic {s : State} {g : FlowNo} {n : StationNo} (of : (s.flow g).station = some n)
    (online : (s.station n).state = .online) (elastic : (s.flow g).kind = .elastic) :
    s.activateFlow g n =
      (if 0 < (s.flow g).backlog ∧ (s.flow g).listLevel = none then
        { s with
          flows :=
            ((s.activated g).putFlow g
              { s.flow g with state := .active, listLevel := some (s.classOf g).priority }).flows
          activeLists :=
            (s.putActive (s.station n).channel (s.classOf g).priority
              (s.active (s.station n).channel (s.classOf g).priority ++ [g])).activeLists }
      else s.activated g).answer .done := by
  have enters := (onlineFlow_enters (s := s.activated g) (n := n) (c := (s.station n).channel) (g := g)
    (by simpa using of) online rfl).2.1 (by simp) (by simpa using elastic)
  rw [activated_flow_same, activated_classOf] at enters
  rw [activateFlow_eq, if_neg (not_not.2 online), if_neg (by simp [elastic]), enters]
  rfl

/-- A PERIODIC flow that becomes ACTIVE under an ONLINE station joins WAITING, or finds the calendar full (R42, R86). -/
theorem activateFlow_periodic {s : State} {g : FlowNo} {n : StationNo} (online : (s.station n).state = .online)
    (periodic : (s.flow g).kind = .periodic) (out : s.inCalendar (s.station n).channel g = false) :
    s.activateFlow g n =
      if 1024 ≤ (s.calendar (s.station n).channel).waiting.length + (s.calendar (s.station n).channel).timed.length then
        (s.count (s.station n).channel .calendarFull 1).answer .full
      else
        ((s.activated g).putCalendar (s.station n).channel
          { s.calendar (s.station n).channel with
            waiting :=
              insertBy (fun a b => decide (a < b)) g (s.calendar (s.station n).channel).waiting }).answer .done := by
  have joins := joinCalendar_absent (s := s.activated g) (c := (s.station n).channel) (g := g) out
  have enters := onlineFlow_periodic (s := s.activated g) (g := g) (by simp) (by simpa using periodic) n
    (s.station n).channel
  rw [activateFlow_eq, if_neg (not_not.2 online)]
  by_cases full : 1024 ≤ (s.calendar (s.station n).channel).waiting.length +
      (s.calendar (s.station n).channel).timed.length
  · rw [if_pos full, if_pos ⟨periodic, (calendarFull_iff s _).2 full⟩]
  · rw [if_neg full, if_neg (fun x => full ((calendarFull_iff s _).1 x.2)), enters.trans (if_neg full), joins]
    rfl

theorem flowActivateOp_other {s : State} {g : FlowNo} (other : (s.flow g).state ≠ .held) :
    s.flowActivateOp g.val = s.answer .state := by
  simp [flowActivateOp, other]

theorem flowActivateOp_held {s : State} {g : FlowNo} {n : StationNo} (held : (s.flow g).state = .held)
    (of : (s.flow g).station = some n) : s.flowActivateOp g.val = s.activateFlow g n := by
  simp [flowActivateOp, held, of]

theorem flowActivateOp_operates (s : State) (i : Nat) : s.Operates [.done, .full] (s.flowActivateOp i) := by
  unfold flowActivateOp
  split
  · exact operates_refused s _ _
  split
  · exact operates_refused s _ _
  split
  · rw [activateFlow_eq]
    split_ifs
    · exact operates_acts ⟨rfl, rfl, rfl, rfl⟩ (by simp)
    · exact operates_acts ⟨rfl, rfl, rfl, rfl⟩ (by simp)
    · rw [onlineFlow_frame]
      exact operates_acts ⟨rfl, rfl, rfl, rfl⟩ (by simp)
  · exact operates_acts ⟨rfl, rfl, rfl, rfl⟩ (by simp)

/-! ## FLOW-HOLD (R43) -/

theorem offlineFlow_activeLists (s : State) (c : ChanNo) (g : FlowNo) :
    (s.offlineFlow c g).activeLists = (s.delist c g).activeLists := by
  unfold offlineFlow leaveCalendar
  split <;> rfl

theorem offlineFlow_calendars (s : State) (c : ChanNo) (g : FlowNo) :
    (s.offlineFlow c g).calendars =
      if s.inCalendar c g then
        (s.putCalendar c
          { waiting := (s.calendar c).waiting.erase g, timed := (s.calendar c).timed.erase g }).calendars
      else s.calendars := by
  unfold offlineFlow leaveCalendar
  rw [delist_inCalendar, ← delist_calendars s c g]
  split
  · simp only [putFlow_calendars, putCalendar, calendar, delist_calendars]
  · rfl

@[simp] theorem levelEnded_flow (s t : State) (g : FlowNo) : (s.levelEnded t).flow g = t.flow g := rfl

@[simp] theorem levelEnded_activeLists (s t : State) : (s.levelEnded t).activeLists = t.activeLists := rfl

@[simp] theorem levelEnded_calendars (s t : State) : (s.levelEnded t).calendars = t.calendars := rfl

/-- The flow `g` made HELD, before it leaves its list and its calendar. -/
def held (s : State) (g : FlowNo) : State := s.putFlow g { s.flow g with state := .held }

@[simp] theorem held_flow_same (s : State) (g : FlowNo) :
    (s.held g).flow g = { s.flow g with state := .held } := flow_putFlow_same _ _ _

theorem listFrame_withdrawFlow (s : State) (g : FlowNo) : s.ListFrame (s.withdrawFlow g) := by
  unfold withdrawFlow
  split
  · next n _ =>
    have left := listFrame_offlineFlow (s := s) (t := s) rfl (s.station n).channel g
    unfold ListFrame at left ⊢
    rw [levelEnded_frame, left]
  · rfl

theorem flowHoldOp_eq (s : State) (g : FlowNo) :
    s.flowHoldOp g.val =
      if (s.flow g).state = .active then ((s.held g).withdrawFlow g).answer .done else s.answer .state := by
  simp [flowHoldOp, held]

theorem flowHoldOp_operates (s : State) (i : Nat) : s.Operates [.done] (s.flowHoldOp i) := by
  unfold flowHoldOp
  split
  · exact operates_refused s _ _
  split
  · exact operates_refused s _ _
  · next g _ _ =>
    rw [show (s.putFlow g { s.flow g with state := .held }).withdrawFlow g = _ from listFrame_withdrawFlow _ g]
    exact operates_acts ⟨rfl, rfl, rfl, rfl⟩ (by simp)

/-- A flow of a station that is made HELD leaves its list and its calendar, and the build under way sees it (R43, R78). -/
theorem held_withdrawFlow {s : State} {g : FlowNo} {n : StationNo} {c : ChanNo} (of : (s.flow g).station = some n)
    (on : (s.station n).channel = c) :
    s.BuildSees ((s.held g).withdrawFlow g) ∧
    ((s.held g).withdrawFlow g).flow g =
      { s.flow g with
        state := .held, listLevel := none
        deficit := if (s.flow g).listLevel.isSome then 0 else (s.flow g).deficit
        nextNominal := if s.inCalendar c g then none else (s.flow g).nextNominal
        extrasOwed := if s.inCalendar c g then 0 else (s.flow g).extrasOwed } ∧
    (∀ h, h ≠ g → ((s.held g).withdrawFlow g).flow h = s.flow h) ∧
    ((s.flow g).listLevel = none → ((s.held g).withdrawFlow g).activeLists = s.activeLists) ∧
    (∀ l, (s.flow g).listLevel = some l →
      ((s.held g).withdrawFlow g).activeLists = (s.putActive c l ((s.active c l).erase g)).activeLists) ∧
    ((s.held g).withdrawFlow g).calendars =
      if s.inCalendar c g then
        (s.putCalendar c
          { waiting := (s.calendar c).waiting.erase g, timed := (s.calendar c).timed.erase g }).calendars
      else s.calendars := by
  have leaves : (s.held g).withdrawFlow g = (s.held g).levelEnded ((s.held g).offlineFlow c g) := by
    subst on
    simp only [withdrawFlow, held_flow_same, of]
    rfl
  have place : PlaceKept (s.held g).engine ((s.held g).offlineFlow c g).engine :=
    offlineFlow_engine (s.held g) c g ▸ placeKept_delist _ c g
  have flow (h : FlowNo) : ((s.held g).withdrawFlow g).flow h =
      if h = g then (s.held g).outOfLists c g else (s.held g).flow h := by
    rw [leaves, levelEnded_flow, offlineFlow_flow]
  have lists : ((s.held g).withdrawFlow g).activeLists = ((s.held g).delist c g).activeLists := by
    rw [leaves, levelEnded_activeLists, offlineFlow_activeLists]
  refine ⟨?_, ?_, fun h other => ?_, fun out => ?_, fun l enlisted => ?_, ?_⟩
  · rw [leaves]
    exact buildSees_agree (buildSees_levelEnded place) rfl rfl
  · rw [flow, if_pos rfl]
    simp only [outOfLists, held_flow_same, ← inCalendar_iff]
    rfl
  · rw [flow, if_neg other]
    exact flow_putFlow_ne s other _
  · have out : ((s.held g).flow g).listLevel = none := by rw [held_flow_same]; exact out
    rw [lists, delist, out]
    rfl
  · have enlisted : ((s.held g).flow g).listLevel = some l := by rw [held_flow_same]; exact enlisted
    rw [lists, delist, enlisted]
    rfl
  · rw [leaves, levelEnded_calendars, offlineFlow_calendars]
    rfl

/-! ## FLOW-UNBIND (R44) -/

theorem flowUnbindOp_operates (s : State) (i : Nat) : s.Operates [.done] (s.flowUnbindOp i) := by
  unfold flowUnbindOp
  split
  · exact operates_refused s _ _
  split
  · exact operates_refused s _ _
  · refine operates_acts ?_ (by simp)
    split <;> exact ⟨rfl, rfl, rfl, rfl⟩

theorem flowUnbindOp_code (s : State) (g : FlowNo) :
    (s.flowUnbindOp g.val).code = if (s.flow g).state = .held then .done else .state := by
  by_cases held : (s.flow g).state = .held <;> simp [flowUnbindOp, held, answer]

theorem flowUnbindOp_held {s : State} {g : FlowNo} {n : StationNo} (held : (s.flow g).state = .held)
    (of : (s.flow g).station = some n) :
    s.flowUnbindOp g.val =
      ((s.putStation n { s.station n with flowList := (s.station n).flowList.erase g }).putFlow g
        (unboundFlow (s.flow g))).answer .done := by
  simp [flowUnbindOp, held, of]

end State

end Sys2Proof.Machine
end

section
/-! SUPPORT. The statements on FLOW-BIND, FLOW-ACTIVATE, FLOW-HOLD and FLOW-UNBIND (R41 to R44). -/

namespace Sys2Proof.Machine

/-- Settles O46: the checks in their order, and the bind behind them, are the branches of State.flowBindOp_eq. -/
theorem flowBindAppendsToTheFlowList : Obligations.FlowBindAppendsToTheFlowList := by
  intro s f q i j head
  obtain ⟨t, run, answers, refused, left⟩ := (State.flowBindOp_operates (s.beginFrame q) i j).executes head rfl
  refine ⟨t, _, congrArg Host.Outcome.next run, answers, fun outside => ?_, fun index outside => ?_,
    fun no => refused (by simpa using no), ?_⟩
  · simp [State.flowBindOp, asIndex_eq_none outside, State.answer]
  · simp [State.flowBindOp, asIndex, index, Nat.not_lt.2 outside, State.answer]
  rintro g n rfl rfl
  have checks := State.flowBindOp_eq (s.beginFrame q) g n
  by_cases busy : (s.flow g).state ≠ .idle
  · rw [checks.trans (if_pos busy)]
    exact ⟨(if_pos busy).symm, fun done => nomatch done⟩
  by_cases free : (s.station n).state = .free
  · rw [checks.trans ((if_neg busy).trans (if_pos free))]
    exact ⟨((if_neg busy).trans (if_pos free)).symm, fun done => nomatch done⟩
  by_cases full : 16 ≤ (s.station n).flowList.length
  · rw [checks.trans ((if_neg busy).trans ((if_neg free).trans (if_pos full)))]
    exact ⟨((if_neg busy).trans ((if_neg free).trans (if_pos full))).symm, fun done => nomatch done⟩
  · rw [checks.trans ((if_neg busy).trans ((if_neg free).trans (if_neg full)))] at left ⊢
    refine ⟨((if_neg busy).trans ((if_neg free).trans (if_neg full))).symm, fun _ => ?_⟩
    simp only [State.managed, State.answer_state, State.putStation, State.putFlow] at left ⊢
    exact left

/-- Settles O47: under an ONLINE station an ELASTIC flow enters by State.activateFlow_elastic and a PERIODIC one by
State.activateFlow_periodic. -/
theorem flowActivateActsByKindAndStation : Obligations.FlowActivateActsByKindAndStation := by
  intro s f q i n head
  obtain ⟨t, run, answers, refused, left⟩ := (State.flowActivateOp_operates (s.beginFrame q) i).executes head rfl
  refine ⟨t, _, congrArg Host.Outcome.next run, answers, fun outside => ?_,
    fun done full => refused (by simp [done, full]), ?_⟩
  · simp [State.flowActivateOp, asIndex_eq_none outside, State.answer]
  rintro g rfl
  refine ⟨fun other => ?_, fun held of => ?_⟩
  · rw [State.flowActivateOp_other (s := s.beginFrame q) other]
    rfl
  rw [State.flowActivateOp_held (s := s.beginFrame q) held of] at left ⊢
  refine ⟨fun apart => ?_, fun online elastic backlog out => ?_,
    fun online periodic out => ⟨fun room => ?_, fun full => ?_⟩⟩
  · have acts : (s.beginFrame q).activateFlow g n = ((s.beginFrame q).activated g).answer .done := by
      by_cases online : (s.station n).state = .online
      · obtain ⟨elastic, empty⟩ := apart.resolve_left (not_not.2 online)
        rw [State.activateFlow_elastic (s := s.beginFrame q) of online elastic, if_neg (by simp [empty])]
      · rw [State.activateFlow_eq, if_pos (by simpa using online)]
    rw [acts] at left ⊢
    refine ⟨rfl, ?_⟩
    simp only [State.managed, State.answer_state, State.activated, State.putFlow] at left ⊢
    exact left
  · rw [State.activateFlow_elastic (s := s.beginFrame q) of online elastic, if_pos ⟨backlog, out⟩] at left ⊢
    have flows := congrArg State.flows left
    have flow (h : FlowNo) : t.flow h =
        (((s.beginFrame q).activated g).putFlow g
          { s.flow g with state := .active, listLevel := some (s.classOf g).priority }).flow h := by
      rw [State.flow, flows]
      rfl
    refine ⟨rfl, fun h other => ?_, (flow g).trans (State.flow_putFlow_same _ _ _), ?_⟩
    · rw [flow, State.flow_putFlow_ne _ other]
      exact State.flow_putFlow_ne s other _
    · rw [flows]
      exact left
  · rw [(State.activateFlow_periodic (s := s.beginFrame q) online periodic out).trans (if_neg (Nat.not_le.2 room))]
      at left ⊢
    have calendar (d : ChanNo) := congrArg (fun u : State => u.calendar d) left
    have here := (calendar (s.station n).channel).trans (State.calendar_putCalendar_same _ _ _)
    have calendars := congrArg State.calendars left
    refine ⟨rfl, by rw [here]; rfl, ?_, fun d other => ?_, ?_⟩
    · rw [here]
      exact insertBy_perm _ _ _
    · exact (calendar d).trans (State.calendar_putCalendar_ne _ other _)
    · rw [calendars]
      exact left
  · rw [(State.activateFlow_periodic (s := s.beginFrame q) online periodic out).trans (if_pos full)] at left ⊢
    exact ⟨rfl, left⟩

/-- Settles O48: a flow that is held leaves by State.held_withdrawFlow, an unbound one by State.flowUnbindOp_held. -/
theorem flowHoldAndUnbindTakeTheFlowOut : Obligations.FlowHoldAndUnbindTakeTheFlowOut := by
  intro s f q i n
  refine ⟨fun head => ?_, fun head => ?_⟩
  · obtain ⟨t, run, answers, refused, left⟩ := (State.flowHoldOp_operates (s.beginFrame q) i).executes head rfl
    refine ⟨t, _, congrArg Host.Outcome.next run, answers, fun outside => ?_, fun no => refused (by simpa using no), ?_⟩
    · simp [State.flowHoldOp, asIndex_eq_none outside, State.answer]
    rintro g rfl
    have checks := State.flowHoldOp_eq (s.beginFrame q) g
    by_cases active : (s.flow g).state = .active
    case neg =>
      rw [checks.trans (if_neg active)]
      exact ⟨(if_neg active).symm, fun done => nomatch done⟩
    rw [checks.trans (if_pos active)] at left ⊢
    refine ⟨(if_pos active).symm, fun _ of => ?_⟩
    obtain ⟨sees, here, others, absent, enlisted, calendars⟩ :=
      State.held_withdrawFlow (s := s.beginFrame q) (g := g) of rfl
    have frame := State.listFrame_withdrawFlow ((s.beginFrame q).held g) g
    generalize ((s.beginFrame q).held g).withdrawFlow g = u at *
    rw [State.answer_state] at left
    have flow (h : FlowNo) : t.flow h = u.flow h := by rw [left]; rfl
    have engine : t.engine = u.engine := by rw [left]; rfl
    have lists : t.activeLists = u.activeLists := by rw [left]; rfl
    have calendars' : t.calendars = u.calendars := by rw [left]; rfl
    refine ⟨State.buildSees_agree (State.buildSees_congr sees engine lists) rfl rfl, (flow g).trans here,
      fun h other => (flow h).trans (others h other), ?_, calendars'.trans calendars, ?_⟩
    · rw [lists]
      split
      · next out => exact absent out
      · next l stands => exact enlisted l stands
    · have flows : t.flows = u.flows := by rw [left]; rfl
      rw [flows, lists, calendars', engine]
      exact left.trans (by rw [frame]; rfl)
  · obtain ⟨t, run, answers, refused, left⟩ := (State.flowUnbindOp_operates (s.beginFrame q) i).executes head rfl
    refine ⟨t, _, congrArg Host.Outcome.next run, answers, fun outside => ?_, fun no => refused (by simpa using no), ?_⟩
    · simp [State.flowUnbindOp, asIndex_eq_none outside, State.answer]
    rintro g rfl
    refine ⟨State.flowUnbindOp_code _ g, fun done of => ?_⟩
    have held : (s.flow g).state = .held := by
      rw [State.flowUnbindOp_code] at done
      by_contra other
      rw [State.beginFrame_flow, if_neg other] at done
      cases done
    rw [State.flowUnbindOp_held (s := s.beginFrame q) held of] at left
    simp only [State.managed, State.answer_state, State.putStation, State.putFlow] at left ⊢
    exact left

end Sys2Proof.Machine
end

section
/-! SUPPORT. The halves of a Plan Store, and the beginning of a build: what an IDLE engine that takes its requests leaves (R16,
R62, R63, R102, R122). -/

namespace Sys2Proof.Machine

/-! ## The adaptation (R102) -/

theorem adaptedTarget_adaptation (p : Params) (target : Nat) (l : LatestTally) :
    adaptedTarget p target (adaptation l) =
      clampNat
        (if l.n < 4 * l.collided then ((target + max 1 ((target + 1) / 2) : Nat) : Int)
        else if l.n < 2 * l.empty then (target : Int) - (max 1 (target / 4) : Nat)
        else target)
        p.nmin p.nmax := by
  unfold adaptation
  split_ifs
  · simp [adaptedTarget, ceilDiv]
  · rfl
  · rfl

theorem adaptedBackoff_adaptation (p : Params) (start : Nat) (l : LatestTally) :
    adaptedBackoff p start (adaptation l) =
      clampNat
        (if l.n < 4 * l.collided then (start : Int) + 1
        else if l.n < 2 * l.empty then (start : Int) - 1
        else start)
        p.backoffFloor p.backoffCeiling := by
  unfold adaptation
  split_ifs <;> rfl

theorem adaptation_counter (l : LatestTally) :
    (adaptation l).counter =
      if l.n < 4 * l.collided then .adaptRaise else if l.n < 2 * l.empty then .adaptLower else .adaptHold := by
  unfold adaptation
  split_ifs <;> rfl

/-- A channel context once its ARMED PROFILE, if any, is applied (R16). -/
def ChannelContext.profiled (x : ChannelContext) : ChannelContext :=
  match x.armedProfile with
  | none => x
  | some p =>
    { x with
      activePage := { x.activePage with profile := p }
      armedProfile := none
      profileNumber := x.profileNumber + 1 }

/-- `y` is the context `x`, but for its profile, its ARMED PROFILE and its PROFILE NUMBER. -/
structure ChannelContext.ProfileAside (x y : ChannelContext) : Prop where
  state : y.state = x.state
  drainMark : y.drainMark = x.drainMark
  currentBeat : y.currentBeat = x.currentBeat
  beatPhase : y.beatPhase = x.beatPhase
  beatsToReach : y.beatsToReach = x.beatsToReach
  nextStart : y.nextStart = x.nextStart
  planSequence : y.planSequence = x.planSequence
  params : y.activePage.params = x.activePage.params

/-- Applying a profile writes the profile, the ARMED PROFILE and the PROFILE NUMBER (R16). -/
theorem ChannelContext.profiled_aside (x : ChannelContext) : x.ProfileAside x.profiled := by
  unfold profiled
  split <;> exact ⟨rfl, rfl, rfl, rfl, rfl, rfl, rfl, rfl⟩

theorem ChannelContext.ProfileAside.refl (x : ChannelContext) : x.ProfileAside x :=
  ⟨rfl, rfl, rfl, rfl, rfl, rfl, rfl, rfl⟩

theorem ChannelContext.ProfileAside.trans {x y z : ChannelContext} (h : x.ProfileAside y) (k : y.ProfileAside z) :
    x.ProfileAside z :=
  ⟨k.state.trans h.state, k.drainMark.trans h.drainMark, k.currentBeat.trans h.currentBeat,
    k.beatPhase.trans h.beatPhase, k.beatsToReach.trans h.beatsToReach, k.nextStart.trans h.nextStart,
    k.planSequence.trans h.planSequence, k.params.trans h.params⟩

namespace State

/-! ## The halves of a Plan Store (R122) -/

/-- The plan under build of a channel, just written. -/
@[simp] theorem buildHalf_putBuildHalf (s : State) (c : ChanNo) (x : PlanRecord) : (s.putBuildHalf c x).buildHalf c = x := by
  unfold buildHalf putBuildHalf PlanStore.buildPlan
  rw [planStore_putPlanStore_same]
  cases h : (s.planStore c).emitHalf <;> simp [PlanStore.putHalf, PlanStore.half, HalfName.other, h]

/-- Writing a build half leaves the emit half and all else of the Plan Store (R122). -/
theorem planStore_putBuildHalf (s : State) (c : ChanNo) (x : PlanRecord) (d : ChanNo) :
    (s.putBuildHalf c x).emitHalfPlan d = s.emitHalfPlan d ∧
      ((s.putBuildHalf c x).planStore d).emitHalf = (s.planStore d).emitHalf ∧
      ((s.putBuildHalf c x).planStore d).emitCondition = (s.planStore d).emitCondition ∧
      (d ≠ c → (s.putBuildHalf c x).planStore d = s.planStore d) := by
  by_cases here : d = c
  · subst here
    unfold emitHalfPlan putBuildHalf PlanStore.emitPlan
    rw [planStore_putPlanStore_same]
    refine ⟨?_, ?_, ?_, fun h => absurd rfl h⟩ <;>
      cases h : (s.planStore d).emitHalf <;> simp [PlanStore.putHalf, PlanStore.half, HalfName.other, h]
  · have other : (s.putBuildHalf c x).planStore d = s.planStore d := planStore_putPlanStore_ne s here _
    rw [emitHalfPlan, other]
    exact ⟨rfl, rfl, rfl, fun _ => rfl⟩

/-! ## Beginning a build (R16, R62, R63) -/

theorem applyProfile_eq (s : State) (c : ChanNo) : s.applyProfile c = s.putContext c (s.context c).profiled := by
  have same : s.putContext c (s.context c) = s := by simp [putContext, context]
  unfold applyProfile ChannelContext.profiled
  split <;> simp_all

/-- An armed profile applied and an unused tally used, what a build of channel `c` begins with (R16, R102). -/
def tuned (s : State) (c : ChanNo) : State := (s.applyProfile c).adapt c

theorem tuned_channels (s : State) (c : ChanNo) :
    (s.tuned c).channels = (s.putContext c (s.context c).profiled).channels := by
  unfold tuned adapt
  rw [applyProfile_eq]
  split
  · rfl
  · split <;> rfl

theorem tuned_context (s : State) (c d : ChanNo) :
    (s.tuned c).context d = if d = c then (s.context c).profiled else s.context d := by
  rw [context, tuned_channels]
  exact context_putContext s c d _

theorem tuned_aside (s : State) (c d : ChanNo) : (s.context d).ProfileAside ((s.tuned c).context d) := by
  rw [tuned_context]
  split
  · next h => exact h ▸ ChannelContext.profiled_aside _
  · exact ⟨rfl, rfl, rfl, rfl, rfl, rfl, rfl, rfl⟩

theorem tuned_params (s : State) (c d : ChanNo) : (s.tuned c).params d = s.params d := (tuned_aside s c d).params

/-- The tuning of a channel writes contexts, contention and counters only. -/
theorem tuned_frame (s : State) (c : ChanNo) :
    s.tuned c =
      { s with
        channels := (s.tuned c).channels, contention := (s.tuned c).contention
        channelCounters := (s.tuned c).channelCounters } := by
  unfold tuned adapt
  rw [applyProfile_eq]
  split
  · rfl
  · split <;> rfl

/-- An unused tally adapts TARGET and BACKOFF START, and counts (R102). -/
theorem tuned_unused {s : State} {c : ChanNo} {l : LatestTally} (stands : (s.contentionOf c).latest = some l)
    (unused : l.used = false) :
    (s.tuned c).contention =
        (s.putContention c
          { s.contentionOf c with
            target := adaptedTarget (s.params c) (s.contentionOf c).target (adaptation l)
            backoffStart := adaptedBackoff (s.params c) (s.contentionOf c).backoffStart (adaptation l)
            latest := some { l with used := true } }).contention ∧
      (s.tuned c).channelCounters = (s.count c (adaptation l).counter 1).channelCounters := by
  have params : (s.putContext c (s.context c).profiled).params c = s.params c := by
    rw [State.params, context_putContext_same]
    exact (ChannelContext.profiled_aside _).params
  have stands' : ((s.putContext c (s.context c).profiled).contentionOf c).latest = some l := stands
  simp only [tuned, adapt, applyProfile_eq, stands', unused, Bool.false_eq_true, if_false, params]
  exact ⟨rfl, rfl⟩

/-- With no unused tally nothing adapts (R102). -/
theorem tuned_used {s : State} {c : ChanNo} (used : ∀ l, (s.contentionOf c).latest = some l → l.used = true) :
    (s.tuned c).contention = s.contention ∧ (s.tuned c).channelCounters = s.channelCounters := by
  have idle : (s.putContext c (s.context c).profiled).adapt c = s.putContext c (s.context c).profiled := by
    unfold adapt
    split
    · rfl
    · next l stands => exact if_pos (used l stands)
  rw [tuned, applyProfile_eq, idle]
  exact ⟨rfl, rfl⟩

/-- No other channel adapts. -/
theorem tuned_others (s : State) {c d : ChanNo} (other : d ≠ c) :
    (s.tuned c).contentionOf d = s.contentionOf d ∧ ∀ j, (s.tuned c).counter d j = s.counter d j := by
  unfold tuned adapt
  rw [applyProfile_eq]
  split
  · exact ⟨rfl, fun _ => rfl⟩
  · split
    · exact ⟨rfl, fun _ => rfl⟩
    · refine ⟨contentionOf_putContention_ne _ other _, fun j => ?_⟩
      rw [counter_count, if_neg (fun h => other h.1)]
      rfl

/-- A build begun: the header of its half, the BUILD CONDITION, and the engine, which a DIRECTED build leaves as it is (R63). -/
theorem beginBuild_eq (s : State) (c : ChanNo) :
    s.beginBuild c =
      { s.tuned c with
        planStores :=
          (s.putBuildHalf c
            { start := (s.context c).nextStart, planSequence := none
              profileNumber := ((s.tuned c).context c).profileNumber, requestMark := vget s.requestMarks c
              backoffStart := ((s.tuned c).contentionOf c).backoffStart
              backoffEnd := (s.params c).backoffCeiling
              cut := false, fallback := false, idle := false
              elements := if (s.params c).sourceMode = .automatic then [] else (s.buildHalf c).elements
              ready := if (s.params c).sourceMode = .automatic then false else (s.buildHalf c).ready }).planStores
        buildConditions :=
          (s.putBuildCondition c
            (if (s.params c).sourceMode = .automatic then .underBuild else .none)).buildConditions
        engine := if (s.params c).sourceMode = .automatic then some (s.begunContext c) else s.engine } := by
  have half : (s.tuned c).buildHalf c = s.buildHalf c := by rw [tuned_frame]; rfl
  have start := (tuned_aside s c c).nextStart
  have begun : (s.tuned c).begunContext c = s.begunContext c := by
    simp only [begunContext, tuned_params, start, (tuned_aside s c c).planSequence]
  have header (q : List Element) (ready : Bool) :
      (s.tuned c).begunHeader c q ready =
        { start := (s.context c).nextStart, planSequence := none
          profileNumber := ((s.tuned c).context c).profileNumber, requestMark := vget s.requestMarks c
          backoffStart := ((s.tuned c).contentionOf c).backoffStart
          backoffEnd := (s.params c).backoffCeiling
          cut := false, fallback := false, idle := false, elements := q, ready := ready } := by
    simp only [begunHeader, tuned_params, start]
    rw [tuned_frame]
  have mode := tuned_params s c c
  unfold beginBuild
  rw [← tuned]
  cases source : (s.params c).sourceMode with
  | automatic =>
    simp only [mode, source, header, begun, if_true]
    rw [tuned_frame]
    rfl
  | directed =>
    simp only [mode, source, header, half, reduceCtorEq, if_false]
    rw [tuned_frame]
    rfl

/-- An IDLE engine takes the request at the head (R62). -/
theorem takeRequest_head {s : State} {r : BuildRequest} {q : List BuildRequest} (idle : s.engine = none)
    (waits : s.buildQueue = r :: q) : s.takeRequest = (s.putBuildQueue q).beginBuild r.channel := by
  simp only [takeRequest, idle, waits]

/-! ## The requests the engine takes (R62) -/

/-- What builds begun on the channels `on` leave alone: every other channel, every emit half, and where each channel stands. -/
structure BegunOn (s t : State) (on : ChanNo → Prop) : Prop where
  frame : t = { s with
    channels := t.channels, contention := t.contention, channelCounters := t.channelCounters
    planStores := t.planStores, buildQueue := t.buildQueue, buildConditions := t.buildConditions, engine := t.engine }
  others : ∀ d, ¬ on d → t.context d = s.context d ∧ t.planStore d = s.planStore d ∧
    t.buildCondition d = s.buildCondition d ∧ t.contentionOf d = s.contentionOf d ∧ ∀ j, t.counter d j = s.counter d j
  emits : ∀ d, t.emitHalfPlan d = s.emitHalfPlan d ∧ (t.planStore d).emitCondition = (s.planStore d).emitCondition
  aside : ∀ d, (s.context d).ProfileAside (t.context d)

namespace BegunOn

theorem refl (s : State) (on : ChanNo → Prop) : s.BegunOn s on :=
  ⟨rfl, fun _ _ => ⟨rfl, rfl, rfl, rfl, fun _ => rfl⟩, fun _ => ⟨rfl, rfl⟩, fun _ => .refl _⟩

theorem trans {s t u : State} {on : ChanNo → Prop} (h : s.BegunOn t on) (k : t.BegunOn u on) : s.BegunOn u on := by
  refine ⟨?_, fun d off => ?_, fun d => ?_, fun d => (h.aside d).trans (k.aside d)⟩
  · rw [k.frame, h.frame]
  · obtain ⟨context, store, condition, contention, counter⟩ := h.others d off
    obtain ⟨context', store', condition', contention', counter'⟩ := k.others d off
    exact ⟨context'.trans context, store'.trans store, condition'.trans condition, contention'.trans contention,
      fun j => (counter' j).trans (counter j)⟩
  · exact ⟨(k.emits d).1.trans (h.emits d).1, (k.emits d).2.trans (h.emits d).2⟩

theorem mono {s t : State} {on on' : ChanNo → Prop} (h : s.BegunOn t on) (more : ∀ d, on d → on' d) : s.BegunOn t on' :=
  ⟨h.frame, fun d off => h.others d (fun here => off (more d here)), h.emits, h.aside⟩

end BegunOn

/-- A build begun touches its own channel alone, and that only as R63 says. -/
theorem begunOn_beginBuild (s : State) (c : ChanNo) : s.BegunOn (s.beginBuild c) (fun d => d = c) := by
  have frame := tuned_frame s c
  have context := tuned_context s c
  have others := fun d => tuned_others s (c := c) (d := d)
  have aside := tuned_aside s c
  rw [beginBuild_eq]
  generalize s.tuned c = u at *
  refine ⟨?_, fun d off => ?_, fun d => ?_, aside⟩
  · rw [frame]
  · obtain ⟨contention, counter⟩ := others d off
    exact ⟨(context d).trans (if_neg off), (planStore_putBuildHalf s c _ d).2.2.2 off,
      buildCondition_putBuildCondition_ne s off _, contention, counter⟩
  · exact ⟨(planStore_putBuildHalf s c _ d).1, (planStore_putBuildHalf s c _ d).2.2.1⟩

/-- The channel has a build request waiting. -/
def Waits (s : State) (d : ChanNo) : Prop := ∃ r ∈ s.buildQueue, r.channel = d

/-- A request taken leaves the queue behind it, and touches its channel alone (R62). -/
theorem begunOn_takeRequest {s : State} {r : BuildRequest} {q : List BuildRequest} (idle : s.engine = none)
    (waits : s.buildQueue = r :: q) : s.takeRequest.buildQueue = q ∧ s.BegunOn s.takeRequest (fun d => d = r.channel) := by
  have begun := begunOn_beginBuild (s.putBuildQueue q) r.channel
  have queue : ((s.putBuildQueue q).beginBuild r.channel).buildQueue = q := by
    rw [beginBuild_eq, tuned_frame]
    rfl
  rw [takeRequest_head idle waits]
  refine ⟨queue, ?_, begun.others, begun.emits, begun.aside⟩
  exact begun.frame.trans rfl

/-- The requests an engine takes one after another touch their channels alone (R62). -/
theorem begunOn_takeRequests : ∀ (m : Nat) (s : State), s.BegunOn (takeRequests m s) s.Waits
  | 0, s => .refl s _
  | m + 1, s => by
    rw [takeRequests]
    split
    · next takes =>
      obtain ⟨idle, some'⟩ : s.engine = none ∧ s.buildQueue ≠ [] := by simpa using takes
      obtain ⟨r, q, waits⟩ := List.exists_cons_of_ne_nil some'
      obtain ⟨queue, first⟩ := begunOn_takeRequest idle waits
      have later := begunOn_takeRequests m s.takeRequest
      refine (first.mono fun d here => ⟨r, by simp [waits], here.symm⟩).trans (later.mono fun d => ?_)
      rintro ⟨x, among, here⟩
      rw [queue] at among
      exact ⟨x, by simp [waits, among], here⟩
    · exact .refl s _

/-- With fewer than `m` requests waiting, the engine takes until it is BUILDING or none is left (R62). -/
theorem takeRequests_done : ∀ (m : Nat) (s : State), s.buildQueue.length < m →
    (takeRequests m s).engine ≠ none ∨ (takeRequests m s).buildQueue = []
  | 0, s, few => absurd few (Nat.not_lt_zero _)
  | m + 1, s, few => by
    rw [takeRequests]
    split
    · next takes =>
      obtain ⟨idle, some'⟩ : s.engine = none ∧ s.buildQueue ≠ [] := by simpa using takes
      obtain ⟨r, q, waits⟩ := List.exists_cons_of_ne_nil some'
      refine takeRequests_done m s.takeRequest ?_
      rw [(begunOn_takeRequest idle waits).1]
      rw [waits, List.length_cons] at few
      omega
    · next stays =>
      cases building : s.engine with
      | none => exact .inr (by simpa [building] using stays)
      | some b => exact .inl nofun

end State

end Sys2Proof.Machine
end

section
/-! SUPPORT. The steps of a build in stages 2 to 4: what each leaves, and what comes next (R65, R66, R69 to R75). -/

namespace Sys2Proof.Machine

namespace BuildContext

/-- A round that has begun, or closing, is where stage 3 stands until a visit: moving on changes nothing. -/
theorem advance_enterVisits (s : State) (b : BuildContext) (ls : List Level) :
    (b.enterVisits s ls).advance s = b.enterVisits s ls := by
  by_cases full : b.freeSpans = []
  · simp [enterVisits, full, advance]
  cases found : ls.find? (fun l => !(s.active b.channel l).isEmpty) with
  | none => simp [enterVisits, full, found, advance]
  | some l =>
    have holds := List.find?_some found
    simp_all [enterVisits, startLevel, advance, advanceVisits]

/-- Entering stage 3 does not enter the reading for holds. -/
theorem enterVisits_timed (s : State) (b : BuildContext) (ls : List Level) (l : Level) (i : Nat) :
    (b.enterVisits s ls).phase ≠ .holds l i := by
  unfold enterVisits startLevel
  split
  · simp
  · split <;> simp

/-- `x` is the build `b` gone on: CHANNEL, START, CADENCE SEQUENCE and FREE SPANS are kept. -/
abbrev KeptBy (b x : BuildContext) : Prop :=
  x.channel = b.channel ∧ x.start = b.start ∧ x.cadenceSequence = b.cadenceSequence ∧ x.freeSpans = b.freeSpans

/-- Stage 3 moved on between two visits (R70, R71). -/
theorem advance_visits (s : State) {b : BuildContext} (stage : b.phase = .visits) :
    b.KeptBy (b.advance s) ∧ (∀ l i, (b.advance s).phase ≠ .holds l i) ∧
      s.RoundFrom b.level b.roundRemaining b.roundPlaced (b.advance s) := by
  have moved : b.advance s = b.advanceVisits s := by simp [advance, stage]
  rw [moved]
  have rounds := advanceVisits_from s b stage
  have branches : b.advanceVisits s = { b with phase := .closing } ∨ b.advanceVisits s = b.enterVisits s b.levelsBelow ∨
      b.advanceVisits s = b.startLevel s b.level ∨ b.advanceVisits s = b := by
    unfold advanceVisits
    split_ifs <;> simp
  obtain e | e | e | e := branches <;> rw [e] at rounds ⊢
  · exact ⟨⟨rfl, rfl, rfl, rfl⟩, nofun, rounds⟩
  · exact ⟨enterVisits_keeps s b _, enterVisits_timed s b _, rounds⟩
  · exact ⟨⟨rfl, rfl, rfl, rfl⟩, nofun, rounds⟩
  · exact ⟨⟨rfl, rfl, rfl, rfl⟩, by simp [stage], rounds⟩

/-- Stage 2 moved on: `k` openings still to be placed, or stage 3 (R69). -/
theorem advance_openings (s : State) {b : BuildContext} {k : Nat} (stage : b.phase = .openings k) :
    b.KeptBy (b.advance s) ∧ (∀ l i, (b.advance s).phase ≠ .holds l i) ∧ s.OpeningsFrom k (b.advance s) := by
  by_cases last : k = 0
  · have moved : b.advance s = b.enterVisits s levelsDown := by simp [advance, stage, last]
    rw [moved]
    exact ⟨enterVisits_keeps s b _, enterVisits_timed s b _, fun more => absurd last more, fun _ => enterVisits_all s b⟩
  · have stays : b.advance s = b := by simp [advance, stage, last]
    rw [stays]
    exact ⟨⟨rfl, rfl, rfl, rfl⟩, by simp [stage], fun _ => stage, fun none' => absurd none' last⟩

end BuildContext

/-! ## Elements (R64, R67, R74) -/

/-- The beats of the elements of a list. -/
def beatsOf (q : List Element) : Nat := (q.map Element.length).sum

/-- Two elements merged into one take the beats of both (R67). -/
theorem mergeTwo_length {a b e : Element} (merged : mergeTwo a b = some e) : e.length = a.length + b.length := by
  unfold mergeTwo at merged
  split at merged
  · split at merged
    · cases merged
      rfl
    · cases merged
  · cases merged

/-- Merging REQUEST elements loses no beat and adds none (R67). -/
theorem beatsOf_mergeRequests : ∀ q : List Element, beatsOf (mergeRequests q) = beatsOf q
  | [] => rfl
  | e :: q => by
    have later := beatsOf_mergeRequests q
    rw [mergeRequests, List.foldr_cons, ← mergeRequests]
    split
    · next none' => simp_all [beatsOf]
    · next f r some' =>
      split
      · next g merged =>
        simp_all only [beatsOf, List.map_cons, List.sum_cons, mergeTwo_length merged]
        omega
      · simp_all [beatsOf]

/-- An element added brings its beats and no others (R64). -/
theorem beatsOf_addElement (e : Element) (q : List Element) : beatsOf (addElement e q) = beatsOf q + e.length := by
  rw [addElement, beatsOf_mergeRequests, beatsOf, ((insertBy_perm _ e q).map _).sum_eq]
  simp [beatsOf, Nat.add_comm]

theorem beatsOf_addElements : ∀ (es q : List Element),
    beatsOf (es.foldl (fun t e => addElement e t) q) = beatsOf q + beatsOf es
  | [], q => by simp [beatsOf]
  | e :: es, q => by
    rw [List.foldl_cons, beatsOf_addElements es, beatsOf_addElement]
    simp [beatsOf, Nat.add_assoc]

/-- The conversion of a span takes exactly its beats (R74). -/
theorem beatsOf_closeSpan (rb : Nat) (p : Span) : beatsOf (closeSpan rb p) = p.length := by
  calc beatsOf (closeSpan rb p) = p.length / rb * rb + p.length % rb := by
        rw [closeSpan, beatsOf, List.map_append, List.sum_append]
        congr 1
        · split
          · next few => rw [few, Nat.zero_mul]; rfl
          · rfl
        · split
          · next exact' => rw [exact']; rfl
          · rfl
    _ = p.length := Nat.div_add_mod' _ _

/-- The span conversion loses no beat and adds none (R74). -/
theorem beatsOf_closeSpans (rb : Nat) : ∀ (spans : List Span) (q : List Element),
    beatsOf (closeSpans rb spans q) = beatsOf q + (spans.map Span.length).sum
  | [], q => by simp [closeSpans]
  | p :: spans, q => by
    have later := beatsOf_closeSpans rb spans ((closeSpan rb p).foldl (fun t e => addElement e t) q)
    rw [beatsOf_addElements, beatsOf_closeSpan] at later
    rw [closeSpans, List.foldl_cons, ← closeSpans, later]
    simp [Nat.add_assoc]

/-! ## The reading for holds (R59, R75) -/

/-- What the scan of a level finds stands in it and receives a hold. -/
theorem scanForHold_some {s : State} {l m : Level} {j : Nat} {f : FlowNo} : ∀ {q : List FlowNo} {i : Nat},
    scanForHold s l i q = some (m, j, f) → m = l ∧ f ∈ q ∧ s.holdQualifies f = true
  | g :: q, i, found => by
    rw [scanForHold] at found
    split at found
    · next qualifies =>
      cases found
      exact ⟨rfl, List.mem_cons_self, qualifies⟩
    · obtain ⟨level, among, qualifies⟩ := scanForHold_some found
      exact ⟨level, List.mem_cons_of_mem g among, qualifies⟩

/-- The scan of a level finds nothing when no flow of it receives a hold. -/
theorem scanForHold_none {s : State} {l : Level} : ∀ {q : List FlowNo} {i : Nat},
    scanForHold s l i q = none ↔ ∀ f ∈ q, s.holdQualifies f = false
  | [], i => by simp [scanForHold]
  | g :: q, i => by
    rw [scanForHold]
    split
    · next qualifies => simp [qualifies]
    · next not' => simp [scanForHold_none (q := q), not']

/-- What the reading finds stands in the level named and receives a hold. -/
theorem nextHold_some {s : State} {c : ChanNo} {l m : Level} {i j : Nat} {f : FlowNo}
    (found : nextHold s c l i = some (m, j, f)) : f ∈ s.active c m ∧ s.holdQualifies f = true := by
  unfold nextHold at found
  split at found
  · next h here =>
    cases found
    obtain ⟨rfl, among, qualifies⟩ := scanForHold_some here
    exact ⟨List.mem_of_mem_drop among, qualifies⟩
  · obtain ⟨k, -, below⟩ := List.exists_of_findSome?_eq_some found
    obtain ⟨rfl, among, qualifies⟩ := scanForHold_some below
    exact ⟨among, qualifies⟩

/-- From the head of level 7 the reading passes every flow of the lists. -/
theorem nextHold_whole {s : State} {c : ChanNo} :
    nextHold s c 7 0 = none ↔ ∀ l, ∀ f ∈ s.active c l, s.holdQualifies f = false := by
  have below : ∀ l : Level, l = 7 ∨ l < 7 := by decide
  unfold nextHold
  split
  · next h here =>
    obtain ⟨m, j, f⟩ := h
    obtain ⟨rfl, among, qualifies⟩ := scanForHold_some here
    exact ⟨nofun, fun no => absurd qualifies (by simp [no _ f among])⟩
  · next top =>
    rw [scanForHold_none, List.drop_zero] at top
    simp only [List.findSome?_eq_none_iff, List.mem_filter, BuildContext.mem_levelsDown, true_and, decide_eq_true_eq,
      scanForHold_none]
    refine ⟨fun rest l => ?_, fun all l _ => all l⟩
    obtain rfl | low := below l
    · exact top
    · exact rest l low

/-- The reading looks at the active lists and at which flows receive a hold. -/
theorem nextHold_congr {s t : State} {c : ChanNo} (lists : t.activeLists = s.activeLists)
    (qualifies : ∀ f, t.holdQualifies f = s.holdQualifies f) (l : Level) (i : Nat) :
    nextHold t c l i = nextHold s c l i := by
  have scans (m : Level) : ∀ (q : List FlowNo) (j : Nat), scanForHold t m j q = scanForHold s m j q := by
    intro q
    induction q with
    | nil => exact fun _ => rfl
    | cons f q later => exact fun j => by rw [scanForHold, scanForHold, later, qualifies]
  have active (m : Level) : t.active c m = s.active c m := by rw [State.active, lists, State.active]
  simp only [nextHold, scans, active]

namespace State

/-! ## First-fit placement (R65, R66) -/

/-- Where there is room, the element is placed there. -/
theorem placeFirstFit_room {s : State} {b : BuildContext} {n : Nat} {body : ElementBody} {o : Nat} {spans : List Span}
    (room : s.Room b n body o spans) :
    s.placeFirstFit b n body = some (s.place b { offset := o, length := n, body := body } spans) := by
  obtain ⟨fit, budget⟩ := room
  simp [placeFirstFit, fit, budget]

/-- Where there is none, nothing is placed. -/
theorem placeFirstFit_noRoom {s : State} {b : BuildContext} {n : Nat} {body : ElementBody}
    (none' : ∀ o spans, ¬ s.Room b n body o spans) : s.placeFirstFit b n body = none := by
  obtain no | ⟨o, spans, fit, budget, -⟩ := placeFirstFit_cases s b n body
  · exact no
  · exact absurd ⟨fit, budget⟩ (none' o spans)

/-! ## Stage 2 (R69) -/

/-- One opening of stage 2, where there is room for it (R69). -/
theorem requestOpeningStep_placed {s : State} {b : BuildContext} {k o : Nat} {spans : List Span}
    (settled : s.BuildSettled) (building : s.engine = some b) (stage : b.phase = .openings k)
    (room : s.Room b (s.params b.channel).requestLength (.request 1) o spans) :
    s.requestOpeningStep =
      (s.place { b with phase := .openings (k - 1) }
        { offset := o, length := (s.params b.channel).requestLength, body := .request 1 } spans).advanceBuild := by
  have placed := placeFirstFit_room (b := { b with phase := .openings (k - 1) }) room
  simp only [requestOpeningStep, settled, building, stage, placed]

/-- The opening that does not fit ends stage 2 (R69). -/
theorem requestOpeningStep_refused {s : State} {b : BuildContext} {k : Nat}
    (settled : s.BuildSettled) (building : s.engine = some b) (stage : b.phase = .openings k)
    (noRoom : ∀ o spans, ¬ s.Room b (s.params b.channel).requestLength (.request 1) o spans) :
    s.requestOpeningStep = (s.putBuild (b.enterVisits s levelsDown)).advanceBuild := by
  have refused := placeFirstFit_noRoom (b := { b with phase := .openings (k - 1) }) noRoom
  simp only [requestOpeningStep, settled, building, stage, refused]

/-! ## The visit of stage 3 (R59, R70 to R73) -/

/-- A bucket update writes the bucket only (R54). -/
theorem bucketUpdate_keeps (x : Flow) (now : Beat) :
    (x.bucketUpdate now).backlog = x.backlog ∧ (x.bucketUpdate now).deficit = x.deficit ∧
      (x.bucketUpdate now).listLevel = x.listLevel := by
  unfold Flow.bucketUpdate
  split <;> exact ⟨rfl, rfl, rfl⟩

/-- A turn of a beat or more is sized for a flow with backlog: a flow without any needs none (R71). -/
theorem visitedFlow_backlog {s : State} {b : BuildContext} {f : FlowNo} (turn : 1 ≤ s.visitTurn b f) :
    (s.visitedFlow b f).backlog ≠ 0 := by
  intro empty
  have demand : (s.visitedFlow b f).demand = 0 := by
    unfold Flow.demand
    split <;> simp [empty]
  have need : s.visitNeed b f = 0 := by simp [visitNeed, demand, burstBeats]
  simp [visitTurn, need] at turn

/-- The end of a visit of stage 3 to the head of a level: with BACKLOG 0 the flow leaves the list, its LIST LEVEL absent and its
DEFICIT cleared, and otherwise it goes to the tail (R59, R72). -/
theorem endVisit_leaves {s : State} {b : BuildContext} {c : ChanNo} {l : Level} {f : FlowNo} {rest : List FlowNo}
    (building : s.engine = some b) (stage : b.phase = .visits) (head : s.active c l = f :: rest)
    (level : (s.flow f).listLevel = some l) :
    (s.endVisit c l f).flow f =
        { s.flow f with
          deficit := if (s.flow f).backlog = 0 then 0 else (s.flow f).deficit
          listLevel := if (s.flow f).backlog = 0 then none else (s.flow f).listLevel } ∧
      (∀ h, h ≠ f → (s.endVisit c l f).flow h = s.flow h) ∧
      (s.endVisit c l f).activeLists =
        (s.putActive c l (if (s.flow f).backlog = 0 then rest else rest ++ [f])).activeLists ∧
      s.endVisit c l f =
        { s with flows := (s.endVisit c l f).flows, activeLists := (s.endVisit c l f).activeLists } := by
  by_cases empty : (s.flow f).backlog = 0
  · have delisted : s.endVisit c l f =
        (s.putActive c l rest).putFlow f { s.flow f with listLevel := none, deficit := 0 } := by
      have kept : s.engine.map (fun x => x.afterDelist c l ((s.active c l).idxOf f)) = s.engine := by
        simp [building, BuildContext.afterDelist, stage]
      simp only [endVisit, empty, if_true, delist, level, head, List.erase_cons_head] at kept ⊢
      exact congrArg _ kept
    rw [delisted]
    refine ⟨by simp [empty], fun h other => ?_, by simp [empty], rfl⟩
    exact flow_putFlow_ne _ other _
  · have moved : s.endVisit c l f = s.putActive c l (rest ++ [f]) := by
      simp [endVisit, empty, moveToTail, head]
    rw [moved]
    exact ⟨by simp [empty], fun h _ => rfl, by simp [empty], rfl⟩

/-- What a visit to the flow `f` at the head of LEVEL, with `rest` behind it, leaves whatever its outcome. -/
structure VisitFrame (s t : State) (b : BuildContext) (f : FlowNo) (rest : List FlowNo) : Prop where
  others : ∀ h, h ≠ f → t.flow h = s.flow h
  list : t.activeLists =
    (s.putActive b.channel b.level (if (t.flow f).backlog = 0 then rest else rest ++ [f])).activeLists
  frame : t = { s with
    flows := t.flows, activeLists := t.activeLists, planStores := t.planStores, engine := t.engine }

section Visit

variable {s : State} {b : BuildContext} {f : FlowNo} {rest : List FlowNo}

/-- The end of a visit that leaves the flow as `x`, and the build as `y` with a round still under way. -/
theorem visit_goesOn {u t : State} {x : Flow} {y : BuildContext}
    (ht : (u.endVisit b.channel b.level f).advanceBuild = t) (head : s.active b.channel b.level = f :: rest)
    (level : x.listLevel = some b.level) (building : u.engine = some y) (stage : y.phase = .visits)
    (flow : u.flow f = x) (others : ∀ h, h ≠ f → u.flow h = s.flow h)
    (frame : u = { s with flows := u.flows, planStores := u.planStores, engine := u.engine }) :
    s.VisitFrame t b f rest ∧ t.planStores = u.planStores ∧
      t.BuildGoesOn y y.freeSpans (t.RoundFrom y.level y.roundRemaining y.roundPlaced) ∧
      t.flow f =
        { x with
          deficit := if x.backlog = 0 then 0 else x.deficit
          listLevel := if x.backlog = 0 then none else x.listLevel } := by
  have lists : u.activeLists = s.activeLists := by rw [frame]
  have here : u.active b.channel b.level = f :: rest := by rw [active, lists]; exact head
  obtain ⟨left, kept, list, ended⟩ := endVisit_leaves building stage here (flow.symm ▸ level)
  rw [flow] at left list
  have put (q : List FlowNo) : (u.putActive b.channel b.level q).activeLists =
      (s.putActive b.channel b.level q).activeLists := by rw [frame]; rfl
  rw [put] at list
  generalize u.endVisit b.channel b.level f = w at *
  obtain ⟨⟨channel, start, cadence, free⟩, timed, comes⟩ := BuildContext.advance_visits w stage
  rw [advanceBuild_moves (by rw [ended]; exact building) timed] at ht
  subst ht
  refine ⟨⟨fun h other => (kept h other).trans (others h other), ?_, ?_⟩, ?_,
    ⟨_, rfl, channel, start, cadence, free, comes⟩, left⟩
  · simpa only [putEngine_activeLists, putEngine_flow, left] using list
  · rw [ended, frame]
    rfl
  · rw [ended]
    rfl

/-- A visit that places its turn (R72). -/
theorem visit_placed {o : Nat} {spans : List Span} (stage : b.phase = .visits)
    (head : s.active b.channel b.level = f :: rest) (level : (s.flow f).listLevel = some b.level)
    (places : s.visitPlaces b f = true) (room : s.Room b (s.visitTurn b f) (s.visitElement b f) o spans)
    {t : State} (ht : (s.visit b f).advanceBuild = t) :
    s.VisitFrame t b f rest ∧ s.PlacedIn t b (s.visitTurn b f) (s.visitElement b f) o ∧
      t.BuildGoesOn b spans (t.RoundFrom b.level (b.roundRemaining - 1) true) ∧
      t.flow f =
        { s.servedFlow b f with
          deficit := if (s.servedFlow b f).backlog = 0 then 0 else (s.servedFlow b f).deficit
          listLevel := if (s.servedFlow b f).backlog = 0 then none else (s.servedFlow b f).listLevel } := by
  have placed := placeFirstFit_room (b := { visitCounted b with roundPlaced := true }) room
  simp only [visit, places, if_true, placed] at ht
  have ended := visit_goesOn (x := s.servedFlow b f)
    (y := { visitCounted b with roundPlaced := true, freeSpans := spans }) ht head
    ((bucketUpdate_keeps (s.flow f) b.start).2.2.trans level) rfl stage (flow_putFlow_same _ _ _)
    (fun h other => flow_putFlow_ne _ other _) rfl
  exact ended

/-- A visit that is skipped (R73). -/
theorem visit_skipped (stage : b.phase = .visits) (head : s.active b.channel b.level = f :: rest)
    (level : (s.flow f).listLevel = some b.level) (skips : s.visitPlaces b f = false)
    {t : State} (ht : (s.visit b f).advanceBuild = t) :
    s.VisitFrame t b f rest ∧ t.planStores = s.planStores ∧
      t.BuildGoesOn b b.freeSpans (t.RoundFrom b.level (b.roundRemaining - 1) b.roundPlaced) ∧
      t.flow f =
        { s.visitedFlow b f with
          deficit := if (s.visitedFlow b f).backlog = 0 then 0 else (s.visitedFlow b f).deficit
          listLevel := if (s.visitedFlow b f).backlog = 0 then none else (s.visitedFlow b f).listLevel } := by
  simp only [visit, skips, Bool.false_eq_true, if_false] at ht
  have ended := visit_goesOn (x := s.visitedFlow b f) (y := visitCounted b) ht head
    ((bucketUpdate_keeps (s.flow f) b.start).2.2.trans level) rfl stage (flow_putFlow_same _ _ _)
    (fun h other => flow_putFlow_ne _ other _) rfl
  exact ended

/-- A visit whose turn the budget refuses: the flow goes to the tail, and stage 3 ends (R73). -/
theorem visit_refused (head : s.active b.channel b.level = f :: rest) (places : s.visitPlaces b f = true)
    (noRoom : ∀ o spans, ¬ s.Room b (s.visitTurn b f) (s.visitElement b f) o spans)
    {t : State} (ht : (s.visit b f).advanceBuild = t) :
    s.VisitFrame t b f rest ∧ t.planStores = s.planStores ∧ t.flow f = s.visitedFlow b f ∧
      t.engine = some { b with roundRemaining := b.roundRemaining - 1, phase := .closing } := by
  have refused := placeFirstFit_noRoom (b := { visitCounted b with roundPlaced := true }) noRoom
  have turn : 1 ≤ s.visitTurn b f := by
    simp only [visitPlaces, Bool.and_eq_true, decide_eq_true_eq] at places
    exact places.1
  simp only [visit, places, if_true, refused] at ht
  rw [advanceBuild_moves (b := { visitCounted b with phase := .closing }) rfl nofun] at ht
  have flow : t.flow f = s.visitedFlow b f := by
    rw [← ht]
    exact flow_putFlow_same _ _ _
  have list : t.activeLists = (s.putActive b.channel b.level ((f :: rest).erase f ++ [f])).activeLists := by
    rw [← ht, ← head]
    rfl
  refine ⟨⟨fun h other => ?_, ?_, ?_⟩, ?_, flow, ?_⟩
  · rw [← ht]
    exact flow_putFlow_ne _ other _
  · rw [list, flow, if_neg (visitedFlow_backlog turn), List.erase_cons_head]
  all_goals
    rw [← ht]
    rfl

end Visit


/-! ## Stage 4 (R74, R75) -/

/-- A build that is complete leaves the engine idle and its channel's BUILD CONDITION COMPLETE, and counts (R75). -/
theorem completeBuild_eq (s : State) (b : BuildContext) :
    s.completeBuild b =
      { s with
        engine := none
        buildConditions := (s.putBuildCondition b.channel .complete).buildConditions
        channelCounters := (s.count b.channel .plansBuilt 1).channelCounters } := rfl

/-- A reading for holds moved on: the build is complete, or stays where it is (R75). -/
theorem advanceBuild_holds {s : State} {b : BuildContext} {l : Level} {i : Nat} (building : s.engine = some b)
    (stage : b.phase = .holds l i) :
    s.advanceBuild =
      if (s.buildHalf b.channel).elements.length < 240 ∧ (nextHold s b.channel l i).isSome = true then s
      else s.completeBuild b := by
  have stays : b.advance s = b := by simp [BuildContext.advance, stage]
  have ended : s.holdsOver b = true ↔
      ¬ ((s.buildHalf b.channel).elements.length < 240 ∧ (nextHold s b.channel l i).isSome = true) := by
    have full : decide (Config.maxElements ≤ (s.buildHalf b.channel).elements.length) = true ↔
        240 ≤ (s.buildHalf b.channel).elements.length := decide_eq_true_iff
    simp only [holdsOver, stage, Bool.or_eq_true, full, Option.isNone_iff_eq_none, not_and_or, Nat.not_lt,
      Option.isSome_iff_ne_none, ne_eq, not_not]
  simp only [advanceBuild, building, stays, ended]
  rw [ite_not, putEngine, ← building]

/-- The build half and the build context once every free span is converted (R74). -/
def closed (s : State) (b : BuildContext) : State :=
  (s.putBuildHalf b.channel
      { s.buildHalf b.channel with
        elements :=
          closeSpans (s.params b.channel).requestLength b.freeSpans (s.buildHalf b.channel).elements }).putBuild
    { b with freeSpans := [], phase := .holds 7 0 }

/-- A flow receives a hold: FRESH yes and HOLDS ENABLED (R75). -/
theorem holdQualifies_iff (s : State) (f : FlowNo) :
    s.holdQualifies f = true ↔ (s.flow f).fresh = true ∧ (s.classOf f).holdsEnabled = true := by
  simp [holdQualifies]

/-- After the conversion the reading for holds begins, or the build is complete (R75). -/
theorem advanceBuild_closed (s : State) (b : BuildContext) :
    (s.closed b).advanceBuild =
      if (closeSpans (s.params b.channel).requestLength b.freeSpans (s.buildHalf b.channel).elements).length < 240 ∧
          ∃ l f, f ∈ s.active b.channel l ∧ (s.flow f).fresh = true ∧ (s.classOf f).holdsEnabled = true then
        s.closed b
      else (s.closed b).completeBuild { b with freeSpans := [], phase := .holds 7 0 } := by
  have half : ((s.closed b).buildHalf b.channel).elements =
      closeSpans (s.params b.channel).requestLength b.freeSpans (s.buildHalf b.channel).elements :=
    congrArg PlanRecord.elements (buildHalf_putBuildHalf s b.channel _)
  have reading : (nextHold (s.closed b) b.channel 7 0).isSome = true ↔
      ∃ l f, f ∈ s.active b.channel l ∧ (s.flow f).fresh = true ∧ (s.classOf f).holdsEnabled = true := by
    rw [nextHold_congr (s := s) (t := s.closed b) rfl (fun _ => rfl), Option.isSome_iff_ne_none, ne_eq, nextHold_whole]
    simp only [not_forall, Bool.not_eq_false, holdQualifies_iff, exists_prop]
  rw [advanceBuild_holds (b := { b with freeSpans := [], phase := .holds 7 0 }) rfl rfl, half]
  exact if_congr (and_congr_right' reading) rfl rfl

/-- The state once a HOLD for flow `f` of station `n` is appended, FRESH is no, and the reading goes on behind place `j` of level
`m` (R75). -/
def holding (s : State) (b : BuildContext) (m : Level) (j : Nat) (f : FlowNo) (n : StationNo) : State :=
  ((s.putBuildHalf b.channel
        { s.buildHalf b.channel with
          elements := (s.buildHalf b.channel).elements ++ [{ offset := 0, length := 0, body := .hold n f }] }).putFlow f
      { s.flow f with fresh := false }).putBuild
    { b with phase := .holds m (j + 1) }

/-- A HOLD is appended for the next flow of the reading (R75). -/
theorem holdAppendStep_eq {s : State} {b : BuildContext} {l m : Level} {i j : Nat} {f : FlowNo} {n : StationNo}
    (settled : s.BuildSettled) (building : s.engine = some b) (stage : b.phase = .holds l i)
    (next : nextHold s b.channel l i = some (m, j, f)) (of : (s.flow f).station = some n) :
    s.holdAppendStep = (s.holding b m j f n).advanceBuild := by
  have station : s.stationOf f = n := by rw [stationOf, of, Option.getD_some]
  simp only [holdAppendStep, settled, building, stage, next, appendHold, station, holding]

/-- After a HOLD the reading goes on, or the build is complete (R75). -/
theorem advanceBuild_holding (s : State) (b : BuildContext) (m : Level) (j : Nat) (f : FlowNo) (n : StationNo) :
    (s.holding b m j f n).advanceBuild =
      if (s.buildHalf b.channel).elements.length + 1 < 240 ∧
          (nextHold (s.holding b m j f n).advanceBuild b.channel m (j + 1)).isSome = true then
        s.holding b m j f n
      else (s.holding b m j f n).completeBuild { b with phase := .holds m (j + 1) } := by
  have half : ((s.holding b m j f n).buildHalf b.channel).elements.length =
      (s.buildHalf b.channel).elements.length + 1 := by
    refine (congrArg (fun p : PlanRecord => p.elements.length) (buildHalf_putBuildHalf s b.channel _)).trans ?_
    rw [List.length_append, List.length_singleton]
  have left := advanceBuild_holds (s := s.holding b m j f n) (b := { b with phase := .holds m (j + 1) }) rfl rfl
  have reads : nextHold (s.holding b m j f n).advanceBuild b.channel m (j + 1) =
      nextHold (s.holding b m j f n) b.channel m (j + 1) := by
    refine nextHold_congr ?_ ?_ _ _ <;> rw [left] <;> split <;> intros <;> rfl
  rw [reads, left, half]

end State

end Sys2Proof.Machine
end

section
/-! SUPPORT. The emit time: what the swap leaves, and what the fallback and the cut leave for it (R11, R61, R80 to R82, R114,
R124; assumptions 19 and 24). -/

namespace Sys2Proof.Machine

namespace State

/-! ## The order of the build queue (R61) -/

/-- A request goes ahead of another by the units remaining, and then by channel (R61). -/
theorem requestAhead_iff (s : State) (x y : BuildRequest) :
    s.requestAhead x y = true ↔
      s.unitsLeft x < s.unitsLeft y ∨ (s.unitsLeft x = s.unitsLeft y ∧ x.channel < y.channel) := by
  have units (z : BuildRequest) : s.unitsUntil z.channel z.emitTime = s.unitsLeft z := rfl
  simp [requestAhead, units]

/-- A request that joins the build queue stands in the order of R61. -/
theorem queuedInOrder_insertBy (s : State) (x : BuildRequest) (q : List BuildRequest) :
    s.QueuedInOrder x q (insertBy s.requestAhead x q) := by
  obtain ⟨l, r, whole, placed, behind, ahead⟩ := insertBy_split s.requestAhead x q
  refine ⟨l, r, whole, placed, fun y among before' => ?_, fun y first => (s.requestAhead_iff x y).1 (ahead y first)⟩
  have goes := (s.requestAhead_iff x y).2 before'
  rw [behind y among] at goes
  cases goes

/-- The units remaining are read from where the channels stand and from their parameters. -/
theorem unitsLeft_aside {s t : State} (aside : ∀ d, (s.context d).ProfileAside (t.context d)) (x : BuildRequest) :
    t.unitsLeft x = s.unitsLeft x := by
  have kept := aside x.channel
  simp only [unitsLeft, params, kept.currentBeat, kept.beatsToReach, kept.beatPhase, kept.params]

/-! ## The swap (R11, R124) -/

/-- The halves of the Plan Store after the swap: the plan built stands in the emit half, and the build half is empty. -/
theorem swappedStore_halves (s : State) (c : ChanNo) :
    (s.swappedStore c).emitPlan = { s.buildHalf c with planSequence := some (s.context c).planSequence } ∧
      (s.swappedStore c).buildPlan = PlanRecord.empty := by
  cases half : (s.planStore c).emitHalf <;>
    simp [swappedStore, buildHalf, PlanStore.emitPlan, PlanStore.buildPlan, PlanStore.half, PlanStore.putHalf,
      HalfName.other, half]

/-- The channel, Plan Store and BUILD CONDITION of the swap, before the next build is queued. -/
def exchanged (s : State) (c : ChanNo) : State :=
  ((s.putPlanStore c (s.swappedStore c)).putContext c (advanceTimeline (s.params c) (s.context c))).putBuildCondition c
    .none

@[simp] theorem exchanged_context_same (s : State) (c : ChanNo) :
    (s.exchanged c).context c = advanceTimeline (s.params c) (s.context c) := context_putContext_same _ _ _

/-- The request of the next build, queued at the swap (R61). -/
def nextRequest (s : State) (c : ChanNo) : BuildRequest where
  channel := c
  emitTime := (s.context c).nextStart + beats32 (s.params c).planLength - beats32 (s.params c).lead

/-- The order of the build queue does not change by the swap itself. -/
theorem requestAhead_exchanged (s : State) (c : ChanNo) : (s.exchanged c).requestAhead = s.requestAhead := by
  have units (d : ChanNo) (b : Beat) : (s.exchanged c).unitsUntil d b = s.unitsUntil d b := by
    have context : (s.exchanged c).context d =
        if d = c then advanceTimeline (s.params c) (s.context c) else s.context d := context_putContext _ c d _
    unfold unitsUntil params
    rw [context]
    split
    · next h => rw [h]; rfl
    · rfl
  funext x y
  simp only [requestAhead, units]

/-- The swap, and the next build of a RUNNING channel queued behind it (R11, R61, R124). -/
theorem swap_eq (s : State) (c : ChanNo) :
    s.swap c =
      if (s.context c).drainMark = .beforeFinalSwap then s.exchanged c
      else
        ((s.exchanged c).putBuildQueue (insertBy s.requestAhead (s.nextRequest c) s.buildQueue)).putBuildCondition c
          .queued := by
  have request : (⟨c, (s.exchanged c).emitTimeOf c⟩ : BuildRequest) = s.nextRequest c := by
    simp only [emitTimeOf, params, exchanged_context_same]
    rfl
  have queued : (s.exchanged c).queueBuild ⟨c, (s.exchanged c).emitTimeOf c⟩ =
      ((s.exchanged c).putBuildQueue (insertBy s.requestAhead (s.nextRequest c) s.buildQueue)).putBuildCondition c
        .queued := by
    rw [request, queueBuild, requestAhead_exchanged]
    rfl
  rw [← queued]
  rfl

/-- The swap leaves what Swapped says, of the half as it was built. -/
theorem swapped_swap (s : State) (c : ChanNo) : s.Swapped (s.swap c) c (s.buildHalf c) s.buildQueue := by
  obtain ⟨emits, builds⟩ := swappedStore_halves s c
  have context : (s.swap c).context c = advanceTimeline (s.params c) (s.context c) := by
    rw [swap_eq]
    split <;> exact exchanged_context_same s c
  have store : (s.swap c).planStore c = s.swappedStore c := by
    rw [swap_eq]
    split <;> exact planStore_putPlanStore_same _ _ _
  unfold Swapped emitHalfPlan buildHalf
  rw [context, store]
  refine ⟨rfl, rfl, rfl, rfl, rfl, rfl, rfl, emits, builds, rfl, rfl, rfl, fun last => ?_, fun more => ?_⟩
  · rw [swap_eq, if_pos last]
    exact ⟨if_pos last, buildCondition_putBuildCondition_same _ _ _, rfl⟩
  · rw [swap_eq, if_neg more]
    exact ⟨if_neg more, buildCondition_putBuildCondition_same _ _ _, queuedInOrder_insertBy s _ _⟩

/-- The swap leaves the rest of the state alone. -/
theorem emitFrame_swap (s : State) (c : ChanNo) :
    s.EmitFrame (s.swap c) c ∧ (s.swap c).channelCounters = s.channelCounters ∧ (s.swap c).notices = s.notices := by
  have others (d : ChanNo) (other : d ≠ c) :
      (s.exchanged c).context d = s.context d ∧ (s.exchanged c).planStore d = s.planStore d ∧
        (s.exchanged c).buildCondition d = s.buildCondition d :=
    ⟨context_putContext_ne _ other _, planStore_putPlanStore_ne _ other _, buildCondition_putBuildCondition_ne _ other _⟩
  rw [swap_eq]
  split
  · exact ⟨⟨rfl, others⟩, rfl, rfl⟩
  · refine ⟨⟨rfl, fun d other => ?_⟩, rfl, rfl⟩
    obtain ⟨context, store, condition⟩ := others d other
    exact ⟨context, store, (buildCondition_putBuildCondition_ne _ other _).trans condition⟩

/-- What the swap of a channel leaves is read from its context, its Plan Store and the build queue, and beats it then reaches
are none of it. -/
theorem swapped_reaches {s t : State} {c : ChanNo} {plan : PlanRecord} {q : List BuildRequest} (h : s.Swapped t c plan q)
    (frame : s.EmitFrame t c) : s.Swapped (t.runBeats c) c plan q ∧ s.EmitFrame (t.runBeats c) c ∧
      (t.runBeats c).channelCounters = t.channelCounters ∧ (t.runBeats c).notices = t.notices := by
  obtain ⟨-, stays⟩ | ⟨n, -, -, runs⟩ := runBeats_cases t c
  · rw [stays]
    exact ⟨h, frame, rfl, rfl⟩
  rw [runs]
  obtain ⟨rest, others⟩ := frame
  refine ⟨?_, ⟨?_, fun d other => ?_⟩, rfl, rfl⟩
  · unfold Swapped at h ⊢
    rw [context_putContext_same]
    exact h
  · rw [rest]
    rfl
  · rw [context_putContext_ne _ other]
    exact others d other

/-- An AUTOMATIC half is swapped as the Plan Builder leaves it (R80, R124): `w` is the state once the Plan Builder has acted. -/
theorem emitTimeStep_swaps {s w : State} {c : ChanNo} (reached : s.emitTimeReached c = true) (acted : s.builderAct c = w)
    (automatic : (w.params c).sourceMode = .automatic) :
    w.Swapped (s.emitTimeStep c) c (w.buildHalf c) w.buildQueue ∧ w.EmitFrame (s.emitTimeStep c) c ∧
      (s.emitTimeStep c).channelCounters = w.channelCounters ∧ (s.emitTimeStep c).notices = w.notices := by
  have event : s.emitEvent c = w.swap c := by
    rw [emitEvent, acted, judgeHalf, automatic]
  obtain ⟨frame, counters, notices⟩ := emitFrame_swap w c
  obtain ⟨swapped', frame', counters', notices'⟩ := swapped_reaches (swapped_swap w c) frame
  rw [emitTimeStep, if_pos reached, event]
  split
  · exact ⟨swapped_swap w c, frame, counters, notices⟩
  · exact ⟨swapped', frame', counters'.trans counters, notices'.trans notices⟩

/-- What the swap leaves of `w` it leaves of `s`, where `w` differs in nothing that it reads. -/
theorem swapped_agree {s w t : State} {c : ChanNo} {plan : PlanRecord} {q : List BuildRequest} (h : w.Swapped t c plan q)
    (context : w.context c = s.context c) (half : (w.planStore c).emitHalf = (s.planStore c).emitHalf)
    (units : ∀ x, w.unitsLeft x = s.unitsLeft x) : s.Swapped t c plan q := by
  unfold Swapped QueuedInOrder at h ⊢
  simp only [params, context, half, units] at h ⊢
  exact h

/-! ## The fallback plan (R82) -/

/-- The span conversion of a whole plan: its openings from offset 0, and an IDLE element of the remainder (R74, R82). -/
theorem closeSpans_whole (rb n : Nat) :
    closeSpans rb [{ offset := 0, length := n }] [] =
      (if n / rb = 0 then [] else [{ offset := 0, length := n / rb * rb, body := .request (n / rb) }]) ++
        (if n % rb = 0 then [] else [{ offset := n / rb * rb, length := n % rb, body := .idle }]) := by
  by_cases openings : n / rb = 0 <;> by_cases rest : n % rb = 0 <;>
    simp only [closeSpans, closeSpan, List.foldl_cons, List.foldl_nil, openings, rest, if_true, if_false, List.append_nil,
      List.nil_append, List.cons_append, Nat.zero_add] <;>
    simp [addElement, insertBy, mergeRequests, mergeTwo, Element.isHold]

/-- A fallback counts both the cut and itself (R82). -/
theorem counter_fallback (s : State) (c d : ChanNo) (k : ChannelCounter) :
    ((s.count c .planCut 1).count c .fallback 1).counter d k =
      if d = c ∧ (k = .planCut ∨ k = .fallback) then saturate (s.counter d k) 1 else s.counter d k := by
  rw [counter_count, counter_count, counter_count]
  by_cases here : d = c
  · subst here
    by_cases last : k = .fallback
    · simp [last]
    · simp only [true_and, last, if_false, or_false]
      split
      · next cut => rw [cut]
      · rfl
  · simp [here]

/-- What falling back leaves: the request gone from the queue, the fallback plan in the half, the cut counted and noticed
(R82). -/
def fellBack (s : State) (c : ChanNo) : State :=
  { s with
    buildQueue := s.buildQueue.filter (fun r => r.channel != c)
    planStores := (s.putBuildHalf c (s.fallbackPlan c)).planStores
    channelCounters := ((s.count c .planCut 1).count c .fallback 1).channelCounters
    notices := (s.raise (.planCut c (s.context c).nextStart none)).notices }

/-- An AUTOMATIC channel whose request is still queued falls back (R82). -/
theorem builderAct_queued {s : State} {c : ChanNo} (queued : s.buildCondition c = .queued)
    (automatic : (s.params c).sourceMode = .automatic) : s.builderAct c = s.fellBack c := by
  simp only [builderAct, queued, fallBack, automatic]
  rfl

/-! ## The station in hand (R112, R114, assumption 19) -/

/-- What a cut does with a station in hand touches stations, poll queues and counters, and draws at most one free value. -/
theorem requeueTaken_frame (s : State) (b : BuildContext) :
    s.requeueTaken b =
        { s with
          stations := (s.requeueTaken b).stations, pollQueues := (s.requeueTaken b).pollQueues
          channelCounters := (s.requeueTaken b).channelCounters, freeDraws := (s.requeueTaken b).freeDraws } ∧
      ∀ d j, j ≠ .pollQueueFull → (s.requeueTaken b).counter d j = s.counter d j := by
  obtain ⟨-, e⟩ | ⟨n, -, ⟨-, e⟩ | ⟨-, e⟩⟩ := requeueTaken_cases s b <;> rw [e]
  · exact ⟨rfl, fun _ _ _ => rfl⟩
  · exact ⟨rfl, fun _ _ _ => rfl⟩
  · have frame := pollEnqueue_frame (s.drawn.takePolled b.channel n (s.pollQueue b.channel).tail) n
    have counter (d : ChanNo) (j : ChannelCounter) (other : j ≠ .pollQueueFull) :=
      (pollEnqueue_counter (s.drawn.takePolled b.channel n (s.pollQueue b.channel).tail) n d j).trans
        (if_neg (fun h => other h.1.2))
    generalize (s.drawn.takePolled b.channel n (s.pollQueue b.channel).tail).pollEnqueue n = u at *
    refine ⟨?_, counter⟩
    rw [frame]
    rfl

/-- A cut finds no station in hand outside group 4, with none still to be taken, or with none waiting. -/
theorem requeueTaken_nobody {s : State} {b : BuildContext}
    (nobody : (∀ j chosen, b.phase ≠ .polls j chosen) ∨ (∃ chosen, b.phase = .polls 0 chosen) ∨
      s.pollQueue b.channel = []) : s.requeueTaken b = s := by
  have none' : s.nextTaken b = none := by
    unfold nextTaken
    obtain other | ⟨chosen, last⟩ | empty := nobody
    · split
      · next j chosen stage => exact absurd stage (other j chosen)
      · rfl
    · simp [last]
    · split
      · simp [empty]
      · rfl
  simp only [requeueTaken, none']

/-- The station in hand, taken and enqueued again on its channel, goes to the tail (R110, R114). -/
theorem takenBack {s : State} {c : ChanNo} {n : StationNo} {q : List StationNo} (on : (s.station n).channel = c)
    (room : q.length < 256) :
    (((s.takePolled c n q).pollEnqueue n).pollQueues = (s.putPollQueue c (q ++ [n])).pollQueues) ∧
      ((s.takePolled c n q).pollEnqueue n).station n = { s.station n with inPollQueue := true } ∧
      (∀ m, m ≠ n → ((s.takePolled c n q).pollEnqueue n).station m = s.station m) ∧
      ∀ d, ((s.takePolled c n q).pollEnqueue n).counter d .pollQueueFull = s.counter d .pollQueueFull := by
  have record : (s.takePolled c n q).station n = { s.station n with inPollQueue := false } := station_putStation_same _ _ _
  have behind : (s.takePolled c n q).pollQueue c = q := pollQueue_putPollQueue_same s c q
  rw [pollEnqueue_pollQueues]
  refine ⟨?_, ?_, fun m other => ?_, fun d => ?_⟩
  · simp only [record, on, behind, room, and_self, if_true]
    exact vput_vput s.pollQueues c q (q ++ [n])
  · rw [pollEnqueue_station]
    simp [record, on, behind, room]
  · rw [pollEnqueue_station, if_neg other]
    exact station_putStation_ne _ other _
  · rw [pollEnqueue_counter, if_neg (fun h => Nat.not_le.2 room (by simpa [record, on, behind] using h.2.2))]
    rfl

/-- A cut in group 4 with a station still to be taken draws the free value; where it says that the station was in hand, the
station is enqueued again at the tail (R114). -/
theorem requeueTaken_next {s : State} {b : BuildContext} {j : Nat} {chosen : List StationNo} {n : StationNo}
    {q : List StationNo} (stage : b.phase = .polls j chosen) (more : j ≠ 0) (head : s.pollQueue b.channel = n :: q) :
    (s.requeueTaken b).freeDraws = s.freeDraws + 1 ∧
      (Config.stationInHand s.freeDraws = false → s.requeueTaken b = s.drawn) ∧
      (Config.stationInHand s.freeDraws = true → (s.station n).channel = b.channel → q.length < 256 →
        (s.requeueTaken b).pollQueues = (s.putPollQueue b.channel (q ++ [n])).pollQueues ∧
          (s.requeueTaken b).station n = { s.station n with inPollQueue := true } ∧
          (∀ m, m ≠ n → (s.requeueTaken b).station m = s.station m) ∧
          ∀ d, (s.requeueTaken b).counter d .pollQueueFull = s.counter d .pollQueueFull) := by
  have next : s.nextTaken b = some n := by simp [nextTaken, stage, more, head]
  cases inHand : Config.stationInHand s.freeDraws with
  | false =>
    have left : s.requeueTaken b = s.drawn := by simp only [requeueTaken, next, inHand, Bool.false_eq_true, if_false]
    rw [left]
    exact ⟨rfl, fun _ => rfl, nofun⟩
  | true =>
    have left : s.requeueTaken b = (s.drawn.takePolled b.channel n q).pollEnqueue n := by
      simp only [requeueTaken, next, inHand, if_true, head, List.tail_cons]
    rw [left]
    refine ⟨?_, nofun, fun _ on room => takenBack (s := s.drawn) on room⟩
    rw [pollEnqueue_frame]
    rfl

/-! ## The cut (R81) -/

/-- The half of a build that is cut (R81). -/
def cutHalf (s : State) (b : BuildContext) : PlanRecord :=
  { s.buildHalf b.channel with
    cut := true
    elements := closeSpans (s.params b.channel).requestLength b.freeSpans (s.buildHalf b.channel).elements }

/-- The state once the build under way is cut, before the engine takes its next requests (R81). -/
def cutShort (s : State) (b : BuildContext) : State :=
  { s.requeueTaken b with
    planStores := (s.putBuildHalf b.channel (s.cutHalf b)).planStores
    channelCounters := ((s.requeueTaken b).count b.channel .planCut 1).channelCounters
    notices := (s.raise (.planCut b.channel (s.buildHalf b.channel).start (some b.phase.stage))).notices
    buildConditions := (s.putBuildCondition b.channel .none).buildConditions
    engine := none }

/-- A build under way at its emit time is cut, and the engine takes its next requests (R62, R81). -/
theorem builderAct_underBuild {s : State} {b : BuildContext} (building : s.engine = some b)
    (under : s.buildCondition b.channel = .underBuild) : s.builderAct b.channel = takeRequests 8 (s.cutShort b) := by
  have cut : s.cutBuild b = takeRequests 8 (s.cutShort b) := by
    unfold cutBuild cutShort cutHalf
    rw [(requeueTaken_frame s b).1]
    rfl
  simp only [builderAct, under, building, cut]

/-- The cut itself writes the half, the BUILD CONDITION and the engine, counts, raises, and deals with the station in hand. -/
theorem cutShort_frame (s : State) (b : BuildContext) :
    s.cutShort b =
        { s with
          planStores := (s.putBuildHalf b.channel (s.cutHalf b)).planStores
          buildConditions := (s.putBuildCondition b.channel .none).buildConditions
          engine := none, channelCounters := (s.cutShort b).channelCounters, notices := (s.cutShort b).notices
          pollQueues := (s.requeueTaken b).pollQueues, stations := (s.requeueTaken b).stations
          freeDraws := (s.requeueTaken b).freeDraws } := by
  have frame := (requeueTaken_frame s b).1
  unfold cutShort
  generalize s.requeueTaken b = v at *
  rw [frame]

/-- The cut counts PLAN CUT, and POLL QUEUE FULL where the station in hand finds no room (R81, R110). -/
theorem cutShort_counter (s : State) (b : BuildContext) (d : ChanNo) :
    (∀ j, j ≠ .pollQueueFull → (s.cutShort b).counter d j =
      if d = b.channel ∧ j = .planCut then saturate (s.counter d j) 1 else s.counter d j) ∧
    (s.cutShort b).counter d .pollQueueFull = (s.requeueTaken b).counter d .pollQueueFull := by
  have counted (j : ChannelCounter) := counter_count (s.requeueTaken b) b.channel d .planCut j 1
  have kept := (requeueTaken_frame s b).2
  refine ⟨fun j other => (counted j).trans ?_, (counted _).trans (if_neg (by simp))⟩
  split
  · next here => rw [kept _ _ (by simp), here.1, here.2]
  · exact kept d j other

/-- An occurrence raised is read from the notices. -/
theorem raised_notices {s t u : State} {d : NoticeDetail} (h : s.Raised u d) (same : t.notices = u.notices) :
    s.Raised t d := by
  unfold Raised notice at h ⊢
  rw [same]
  exact h

/-- The other channels, in their Plan Stores and BUILD CONDITIONS, are not cut. -/
theorem cutShort_others (s : State) (b : BuildContext) {d : ChanNo} (other : d ≠ b.channel) :
    (s.cutShort b).planStore d = s.planStore d ∧ (s.cutShort b).buildCondition d = s.buildCondition d :=
  ⟨(planStore_putBuildHalf s b.channel _ d).2.2.2 other, buildCondition_putBuildCondition_ne s other _⟩

@[simp] theorem cutShort_context (s : State) (b : BuildContext) (d : ChanNo) :
    (s.cutShort b).context d = s.context d := by
  rw [cutShort_frame]
  rfl

@[simp] theorem cutShort_buildQueue (s : State) (b : BuildContext) : (s.cutShort b).buildQueue = s.buildQueue := by
  rw [cutShort_frame]

@[simp] theorem cutShort_engine (s : State) (b : BuildContext) : (s.cutShort b).engine = none := rfl

/-- The cut raises its notice and no other (R81). -/
theorem cutShort_notice (s : State) (b : BuildContext) :
    s.Raised (s.cutShort b) (.planCut b.channel (s.buildHalf b.channel).start (some b.phase.stage)) ∧
      ∀ k, k ≠ .planCut → (s.cutShort b).notice k = s.notice k :=
  ⟨raised_raise (s := s) (u := s) _ rfl rfl, fun _ other => notice_raise_ne s _ other⟩

/-- The requests that wait behind a build under way are few, and none is its channel's (R61). -/
theorem waits_few {s : State} {c : ChanNo} (distinct : (c :: s.buildQueue.map (fun r => r.channel)).Nodup) :
    ¬ s.Waits c ∧ s.buildQueue.length < 8 := by
  refine ⟨?_, by simpa using distinct.length_le_card⟩
  rintro ⟨r, among, here⟩
  exact (List.nodup_cons.1 distinct).1 (here ▸ List.mem_map_of_mem among)

section CutAndSwapped

/-! ### The cut, the requests taken behind it, and the swap: `w` is the state before the swap, `t` the state after it -/

variable {s w t : State} {b : BuildContext}

/-- What the whole event leaves of the state (R81, R114). -/
theorem cut_frame (began : (s.cutShort b).BegunOn w (s.cutShort b).Waits) (emit : w.EmitFrame t b.channel) :
    (t.pollQueues = (s.requeueTaken b).pollQueues ∧ t.stations = (s.requeueTaken b).stations ∧
        t.freeDraws = (s.requeueTaken b).freeDraws) ∧
      t = { s with
            channels := t.channels, planStores := t.planStores, buildConditions := t.buildConditions
            buildQueue := t.buildQueue, engine := t.engine, contention := t.contention
            channelCounters := t.channelCounters, notices := t.notices
            pollQueues := t.pollQueues, stations := t.stations, freeDraws := t.freeDraws } := by
  have cut := cutShort_frame s b
  generalize s.cutShort b = u at *
  refine ⟨⟨?_, ?_, ?_⟩, ?_⟩ <;> rw [emit.1, began.frame, cut]

/-- A channel with no request waiting is left alone; every other keeps its emit half, its beat and its state. -/
theorem cut_others (began : (s.cutShort b).BegunOn w (s.cutShort b).Waits) (emit : w.EmitFrame t b.channel) {d : ChanNo}
    (other : d ≠ b.channel) :
    ((∀ r ∈ s.buildQueue, r.channel ≠ d) →
        t.context d = s.context d ∧ t.planStore d = s.planStore d ∧ t.buildCondition d = s.buildCondition d ∧
          t.contentionOf d = s.contentionOf d) ∧
      t.emitHalfPlan d = s.emitHalfPlan d ∧ (t.planStore d).emitCondition = (s.planStore d).emitCondition ∧
        (t.context d).currentBeat = (s.context d).currentBeat ∧ (t.context d).state = (s.context d).state := by
  obtain ⟨context_t, store_t, condition_t⟩ := emit.2 d other
  obtain ⟨store, condition⟩ := cutShort_others s b other
  refine ⟨fun unasked => ?_, ?_⟩
  · obtain ⟨context', store', condition', contention', -⟩ := began.others d (by
      rintro ⟨r, among, here⟩
      rw [cutShort_buildQueue] at among
      exact unasked r among here)
    refine ⟨context_t.trans (context'.trans (cutShort_context s b d)), store_t.trans (store'.trans store),
      condition_t.trans (condition'.trans condition), ?_⟩
    have same : t.contention = w.contention := by rw [emit.1]
    rw [contentionOf, same]
    exact contention'.trans (by rw [cutShort_frame]; rfl)
  · obtain ⟨emits, awaits⟩ := began.emits d
    have aside := began.aside d
    rw [cutShort_context] at aside
    rw [emitHalfPlan, emitHalfPlan, store] at emits
    rw [store] at awaits
    rw [emitHalfPlan, store_t, context_t]
    exact ⟨emits, awaits, aside.currentBeat, aside.state⟩

/-- The station in hand, as the whole event leaves it (R114, assumption 19). -/
theorem cut_station (began : (s.cutShort b).BegunOn w (s.cutShort b).Waits) (emit : w.EmitFrame t b.channel) :
    (((∀ j chosen, b.phase ≠ .polls j chosen) ∨ (∃ chosen, b.phase = .polls 0 chosen) ∨ s.pollQueue b.channel = []) →
        t.pollQueues = s.pollQueues ∧ t.stations = s.stations ∧ t.freeDraws = s.freeDraws ∧
          ∀ d, (s.cutShort b).counter d .pollQueueFull = s.counter d .pollQueueFull) ∧
      ∀ j chosen n q, b.phase = .polls j chosen → j ≠ 0 → s.pollQueue b.channel = n :: q →
        t.freeDraws = s.freeDraws + 1 ∧
        (Config.stationInHand s.freeDraws = false →
          t.pollQueues = s.pollQueues ∧ t.stations = s.stations ∧
            ∀ d, (s.cutShort b).counter d .pollQueueFull = s.counter d .pollQueueFull) ∧
        (Config.stationInHand s.freeDraws = true → (s.station n).channel = b.channel → q.length < 256 →
          t.pollQueues = (s.putPollQueue b.channel (q ++ [n])).pollQueues ∧
            t.station n = { s.station n with inPollQueue := true } ∧ (∀ m, m ≠ n → t.station m = s.station m) ∧
            ∀ d, (s.cutShort b).counter d .pollQueueFull = s.counter d .pollQueueFull) := by
  obtain ⟨⟨polls, stations, draws⟩, -⟩ := cut_frame began emit
  have counter (d : ChanNo) := (cutShort_counter s b d).2
  have station (m : StationNo) : t.station m = (s.requeueTaken b).station m := by rw [State.station, stations, State.station]
  refine ⟨fun nobody => ?_, fun j chosen n q stage more head => ?_⟩
  · rw [requeueTaken_nobody nobody] at polls stations draws counter
    exact ⟨polls, stations, draws, counter⟩
  · obtain ⟨drew, free, inHand⟩ := requeueTaken_next stage more head
    refine ⟨draws.trans drew, fun no => ?_, fun yes on room => ?_⟩
    · rw [free no] at polls stations counter
      exact ⟨polls, stations, counter⟩
    · obtain ⟨polls', here, others, full⟩ := inHand yes on room
      exact ⟨polls.trans polls', (station n).trans here, fun m other => (station m).trans (others m other),
        fun d => (counter d).trans (full d)⟩

end CutAndSwapped

end State

end Sys2Proof.Machine
end

section
/-! SUPPORT. The statements on emit times and on the steps of a build in stages 2 to 4 (R59, R61 to R63, R69 to R75, R80 to R82,
R124). -/

namespace Sys2Proof.Machine

/-- Settles O6: the Plan Builder leaves a complete plan as it is, so the swap takes it by State.emitTimeStep_swaps. -/
theorem emitTimeSwapsACompletePlan : Obligations.EmitTimeSwapsACompletePlan := by
  intro s c reached automatic complete
  have acted : s.builderAct c = s := by rw [State.builderAct, complete]
  exact ⟨s.emitTimeStep c, rfl, State.emitTimeStep_swaps reached acted automatic⟩

/-- Settles O7: the cut is State.cutShort_frame, the requests taken behind it leave what State.begunOn_takeRequests says, and
the swap takes the cut half by State.emitTimeStep_swaps. -/
theorem emitTimeCutsABuildUnderWay : Obligations.EmitTimeCutsABuildUnderWay := by
  intro s b building reached automatic under distinct
  have acted := State.builderAct_underBuild building under
  obtain ⟨unqueued, few⟩ := State.waits_few distinct
  rw [← State.cutShort_buildQueue s b] at few
  obtain ⟨k, -, begun, -⟩ := State.takeRequests_begun 8 (s.cutShort b)
  have done := State.takeRequests_done 8 _ few
  have began := State.begunOn_takeRequests 8 (s.cutShort b)
  have empty : s.buildQueue = [] → State.takeRequests 8 (s.cutShort b) = s.cutShort b := fun none' => by
    simp [State.takeRequests, none']
  generalize State.takeRequests 8 (s.cutShort b) = w at *
  obtain ⟨context, store, -, -, counter⟩ := began.others b.channel (by
    rintro ⟨r, among, here⟩
    exact unqueued ⟨r, State.cutShort_buildQueue s b ▸ among, here⟩)
  rw [State.cutShort_context] at context
  obtain ⟨swapped, emit, counters, notices⟩ := State.emitTimeStep_swaps reached acted (by
    rw [State.params, context]
    exact automatic)
  have half : w.buildHalf b.channel = s.cutHalf b := by
    rw [State.buildHalf, store]
    exact State.buildHalf_putBuildHalf s b.channel _
  have emitHalf : (w.planStore b.channel).emitHalf = (s.planStore b.channel).emitHalf := by
    rw [store]
    exact (State.planStore_putBuildHalf s b.channel (s.cutHalf b) b.channel).2.1
  have units (x : BuildRequest) : w.unitsLeft x = s.unitsLeft x := State.unitsLeft_aside
    (fun d => by simpa only [State.cutShort_context] using began.aside d) x
  have noticed : (s.emitTimeStep b.channel).notices = (s.cutShort b).notices := notices.trans (by rw [began.frame])
  have engine : (s.emitTimeStep b.channel).engine = w.engine := by rw [emit.1]
  obtain ⟨raised, quiet⟩ := State.cutShort_notice s b
  obtain ⟨⟨polls, stations, draws⟩, frame⟩ := State.cut_frame began emit
  obtain ⟨nobody, next⟩ := State.cut_station began emit
  rw [half] at swapped
  refine ⟨s.emitTimeStep b.channel, s.cutShort b, w, k, rfl, State.swapped_agree swapped context emitHalf units,
    fun d => (State.cutShort_counter s b d).1, State.raised_notices raised noticed, fun j other => ?_, nobody, next, ?_,
    begun, done, fun none' => ⟨empty none', engine.trans (by rw [empty none', State.cutShort_engine])⟩, fun j => ?_,
    counters, emit, fun d other => (State.cut_others began emit other).1,
    fun d other => (State.cut_others began emit other).2, frame⟩
  · rw [State.notice, noticed]
    exact quiet j other
  · rw [noticed, polls, stations, draws]
    exact State.cutShort_frame s b
  · rw [State.counter, counters]
    exact counter j

/-- Settles O8: what falling back leaves is State.fellBack, and the swap takes its half by State.emitTimeStep_swaps. -/
theorem emitTimeFallsBack : Obligations.EmitTimeFallsBack := by
  intro s c reached automatic queued
  obtain ⟨swapped, ⟨frame, others⟩, counters, notices⟩ :=
    State.emitTimeStep_swaps reached (State.builderAct_queued queued automatic) automatic
  obtain ⟨-, emitHalf, -, -⟩ := State.planStore_putBuildHalf s c (s.fallbackPlan c) c
  have half : (s.fellBack c).buildHalf c = s.fallbackPlan c := State.buildHalf_putBuildHalf s c _
  refine ⟨s.emitTimeStep c, rfl, ?_, ⟨?_, fun d other => ?_⟩, fun d k => ?_, ?_, fun k other => ?_⟩
  · rw [half] at swapped
    rw [← State.closeSpans_whole]
    exact State.swapped_agree swapped rfl emitHalf (fun _ => rfl)
  · rw [frame]
    rfl
  · obtain ⟨context, store, condition⟩ := others d other
    exact ⟨context, store.trans ((State.planStore_putBuildHalf s c _ d).2.2.2 other), condition⟩
  · have counted : (s.emitTimeStep c).counter d k = ((s.count c .planCut 1).count c .fallback 1).counter d k := by
      rw [State.counter, counters]
      rfl
    rw [counted, State.counter_fallback]
  · have raised : s.Raised (s.fellBack c) (.planCut c (s.context c).nextStart none) :=
      State.raised_raise (s := s) (u := s) _ rfl rfl
    exact State.raised_notices raised notices
  · rw [State.notice, notices]
    exact State.notice_raise_ne s (.planCut c (s.context c).nextStart none) other

/-- Settles O13: the build begun is State.beginBuild_eq, over what the profile and the tally leave (State.tuned_unused and
State.tuned_used). -/
theorem buildBeginTakesTheHeadRequest : Obligations.BuildBeginTakesTheHeadRequest := by
  intro s r q idle waits
  have taken := (State.takeRequest_head idle waits).trans (State.beginBuild_eq _ _)
  have channels := State.tuned_channels (s.putBuildQueue q) r.channel
  have frame := State.tuned_frame (s.putBuildQueue q) r.channel
  have adapts := fun l => State.tuned_unused (s := s.putBuildQueue q) (c := r.channel) (l := l)
  have keeps := State.tuned_used (s := s.putBuildQueue q) (c := r.channel)
  generalize (s.putBuildQueue q).tuned r.channel = u at *
  refine ⟨_, rfl, ?_⟩
  rw [taken]
  refine ⟨?_, channels, fun l stands unused => ?_, keeps, rfl, fun automatic => ?_, fun directed => ?_, ?_⟩
  · rw [frame]
    rfl
  · rw [← adaptedTarget_adaptation, ← adaptedBackoff_adaptation, ← adaptation_counter]
    exact adapts l stands unused
  · have mode : ((s.putBuildQueue q).params r.channel).sourceMode = .automatic := automatic
    rw [if_pos mode, if_pos mode]
    exact ⟨rfl, rfl⟩
  · have mode : ¬ ((s.putBuildQueue q).params r.channel).sourceMode = .automatic := fun h => nomatch directed.symm.trans h
    rw [if_neg mode, if_neg mode]
    exact ⟨rfl, idle⟩
  · rw [frame]
    rfl

/-- Settles O20: with room the opening is placed, and without it stage 3 is entered by BuildContext.enterVisits_all. -/
theorem requestOpeningPlacesOne : Obligations.RequestOpeningPlacesOne := by
  intro s b k quiet settled building stage
  refine ⟨_, congrArg (fun u : State => Host.Outcome.next u.requestOpeningStep) (State.settle_quiet quiet), ?_, ?_⟩
  · intro o spans room
    rw [State.requestOpeningStep_placed settled building stage room]
    obtain ⟨⟨channel, start, cadence, free⟩, timed, comes⟩ := BuildContext.advance_openings
      (s.place { b with phase := .openings (k - 1) }
        { offset := o, length := (s.params b.channel).requestLength, body := .request 1 } spans)
      (b := { b with phase := .openings (k - 1), freeSpans := spans }) rfl
    rw [State.advanceBuild_moves rfl timed]
    exact ⟨rfl, ⟨_, rfl, channel, start, cadence, free, comes⟩, rfl⟩
  · intro noRoom
    rw [State.requestOpeningStep_refused settled building stage noRoom]
    obtain ⟨channel, start, cadence, free⟩ := BuildContext.enterVisits_keeps s b levelsDown
    have stays : (b.enterVisits s levelsDown).advance (s.putBuild (b.enterVisits s levelsDown)) =
        b.enterVisits s levelsDown := BuildContext.advance_enterVisits s b levelsDown
    rw [State.advanceBuild_moves rfl (by rw [stays]; exact BuildContext.enterVisits_timed s b _), stays]
    exact ⟨⟨_, rfl, channel, start, cadence, free, BuildContext.enterVisits_all s b⟩, rfl⟩

/-- Settles O21: a visit places its turn (State.visit_placed), is refused by the budget (State.visit_refused), or is skipped
(State.visit_skipped). -/
theorem flowVisitPlacesOrSkips : Obligations.FlowVisitPlacesOrSkips := by
  intro s b f rest m quiet settled building stage head level of
  have step : exec .flowVisit s = .next (s.visit b f).advanceBuild := by
    refine (congrArg (fun u : State => Host.Outcome.next u.flowVisitStep) (State.settle_quiet quiet)).trans ?_
    simp only [State.flowVisitStep, settled, building, stage, head]
  have element : s.visitElement b f = .data m f (some (turnCharge (s.profile b.channel) (s.visitedFlow b f) (s.visitTurn b f))) := by
    simp [State.visitElement, State.stationOf, of]
  have places : s.visitPlaces b f = true ↔ 1 ≤ s.visitTurn b f ∧
      (s.visitTurn b f = s.visitNeed b f ∨ (s.classOf f).minTurn ≤ s.visitTurn b f) := by
    simp [State.visitPlaces]
  obtain ⟨t, ht⟩ : ∃ t, (s.visit b f).advanceBuild = t := ⟨_, rfl⟩
  refine ⟨t, s.visitedFlow b f, s.visitNeed b f, s.visitTurn b f,
    turnCharge (s.profile b.channel) (s.visitedFlow b f) (s.visitTurn b f), ht ▸ step, ?_, rfl, rfl, rfl, ?_⟩
  · simp only [State.visitedFlow, (State.bucketUpdate_keeps (s.flow f) b.start).2.1, Config.maxDeficit]
  rw [← element]
  by_cases turn : s.visitPlaces b f = true
  · obtain no | ⟨o, spans, fit, budget, -⟩ := State.placeFirstFit_cases s b (s.visitTurn b f) (s.visitElement b f)
    · have noRoom : ∀ o spans, ¬ s.Room b (s.visitTurn b f) (s.visitElement b f) o spans := fun o spans room => by
        rw [State.placeFirstFit_room room] at no
        cases no
      obtain ⟨⟨others, list, frame⟩, plans, flow, engine⟩ := State.visit_refused head turn noRoom ht
      exact ⟨others, list, fun o spans _ _ room => absurd room (noRoom o spans), fun skips => absurd (places.1 turn) skips,
        fun _ _ _ => ⟨plans, flow, engine⟩, frame⟩
    · obtain ⟨⟨others, list, frame⟩, placed, goes, flow⟩ := State.visit_placed stage head level turn ⟨fit, budget⟩ ht
      refine ⟨others, list, fun o' spans' _ _ room => ?_, fun skips => absurd (places.1 turn) skips,
        fun _ _ noRoom => absurd ⟨fit, budget⟩ (noRoom o spans), frame⟩
      obtain ⟨rfl, rfl⟩ : o = o' ∧ spans = spans' := by simpa using fit.symm.trans room.1
      exact ⟨placed, goes, flow⟩
  · obtain ⟨⟨others, list, frame⟩, plans, goes, flow⟩ := State.visit_skipped stage head level (by simpa using turn) ht
    exact ⟨others, list, fun _ _ one turn' _ => absurd (places.2 ⟨one, turn'⟩) turn, fun _ => ⟨plans, goes, flow⟩,
      fun one turn' _ => absurd (places.2 ⟨one, turn'⟩) turn, frame⟩

/-- Settles O22: the beats are kept by beatsOf_closeSpans, and State.advanceBuild_closed says where the build then is. -/
theorem closingConvertsEverySpan : Obligations.ClosingConvertsEverySpan := by
  intro s b quiet settled building stage
  have step : exec .closing s = .next (s.closed b).advanceBuild := by
    refine (congrArg (fun u : State => Host.Outcome.next u.closingStep) (State.settle_quiet quiet)).trans ?_
    simp only [State.closingStep, settled, building, stage, if_true, State.closed]
  have left := State.advanceBuild_closed s b
  refine ⟨_, closeSpans (s.params b.channel).requestLength b.freeSpans (s.buildHalf b.channel).elements, _, step, rfl,
    beatsOf_closeSpans _ _ _, ?_, Iff.rfl, fun more => ?_, fun over' => ?_⟩
  · rw [left]
    split <;> rfl
  · rw [left, if_pos more]
    exact ⟨rfl, rfl⟩
  · rw [left, if_neg over', State.completeBuild_eq]
    rfl

/-- Settles O23: the reading finds the flow by nextHold_some, and State.advanceBuild_holding says where the build then is. -/
theorem holdAppendHoldsTheNextFlow : Obligations.HoldAppendHoldsTheNextFlow := by
  intro s b l m i j f n quiet settled building stage next of
  have step : exec .holdAppend s = .next (s.holding b m j f n).advanceBuild :=
    (congrArg (fun u : State => Host.Outcome.next u.holdAppendStep) (State.settle_quiet quiet)).trans
      (congrArg Host.Outcome.next (State.holdAppendStep_eq settled building stage next of))
  obtain ⟨among, qualifies⟩ := nextHold_some next
  obtain ⟨fresh, enabled⟩ := (State.holdQualifies_iff s f).1 qualifies
  have left := State.advanceBuild_holding s b m j f n
  refine ⟨_, step, among, fresh, enabled, ?_, ?_, fun more => ?_, fun done => ?_⟩
  · rw [left]
    split <;> rfl
  · rw [left]
    split <;> rfl
  · rw [left, if_pos more]
    exact ⟨rfl, rfl⟩
  · rw [left, if_neg done, State.completeBuild_eq]
    rfl

end Sys2Proof.Machine
end

section
/-! SUPPORT. The periodic turns of stage 1: the timing of a calendar, the walk and the extras (R84, R88 to R91, R93), and the
statements on them. -/

namespace Sys2Proof.Machine

/-! ## Ordered insertion, and beats after START -/

/-- Insertion into a list in order keeps the order, where the test decides which of two goes ahead. -/
theorem pairwise_insertBy {α : Type} {g : α → α → Bool} {R : α → α → Prop} {x : α}
    (trans : ∀ a b c, R a b → R b c → R a c) : ∀ {q : List α},
    (∀ y ∈ q, if g x y then R x y else R y x) → q.Pairwise R → (insertBy g x q).Pairwise R
  | [], _, _ => List.pairwise_singleton R x
  | y :: q, decides, sorted => by
    obtain ⟨first, later⟩ := List.pairwise_cons.1 sorted
    have here := decides y List.mem_cons_self
    rw [insertBy]
    split
    · next goes =>
      rw [if_pos goes] at here
      exact List.pairwise_cons.2 ⟨List.forall_mem_cons.2 ⟨here, fun z among => trans x y z here (first z among)⟩, sorted⟩
    · next stays =>
      rw [if_neg stays] at here
      refine List.pairwise_cons.2 ⟨fun z among => ?_,
        pairwise_insertBy trans (fun z among => decides z (List.mem_cons_of_mem y among)) later⟩
      obtain rfl | among := (mem_insertBy g x z q).1 among
      · exact here
      · exact first z among

/-- Of two beats less than 2^31 after START, the one before the other is the one nearer to START. -/
theorem before_iff_nearer {a b start : Beat} (ha : (a - start).toNat < 2 ^ 31) (hb : (b - start).toNat < 2 ^ 31) :
    before a b = true ↔ (a - start).toNat < (b - start).toNat := by
  simp only [before, Bool.and_eq_true, decide_eq_true_eq]
  bv_omega

namespace BuildContext

/-! ## Moving on within stage 1 -/

/-- `x` is the build `b` gone on outside the reading for holds. -/
abbrev MovesTo (b x : BuildContext) : Prop := b.KeptBy x ∧ ∀ l i, x.phase ≠ .holds l i

theorem enterOpenings_moves (s : State) (b : BuildContext) : b.MovesTo (b.enterOpenings s) := by
  unfold enterOpenings
  split
  · exact ⟨enterVisits_keeps s b _, enterVisits_timed s b _⟩
  · exact ⟨⟨rfl, rfl, rfl, rfl⟩, nofun⟩

theorem enterSweep_moves (s : State) (b : BuildContext) (q : List StationNo) : b.MovesTo (b.enterSweep s q) := by
  unfold enterSweep
  split
  · exact ⟨⟨rfl, rfl, rfl, rfl⟩, nofun⟩
  · exact enterOpenings_moves s b

theorem enterPolls_moves (s : State) (b : BuildContext) : b.MovesTo (b.enterPolls s) := by
  unfold enterPolls
  split
  · exact enterSweep_moves s b []
  · exact ⟨⟨rfl, rfl, rfl, rfl⟩, nofun⟩

theorem enterJoin_moves (s : State) (b : BuildContext) : b.MovesTo (b.enterJoin s) := by
  unfold enterJoin
  split
  · exact ⟨⟨rfl, rfl, rfl, rfl⟩, nofun⟩
  · exact enterPolls_moves s b

theorem enterExtras_moves (s : State) (b : BuildContext) (q : List FlowNo) : b.MovesTo (b.enterExtras s q) := by
  unfold enterExtras
  split
  · exact enterJoin_moves s b
  · exact ⟨⟨rfl, rfl, rfl, rfl⟩, nofun⟩

theorem enterWalk_moves (s : State) (b : BuildContext) : b.MovesTo (b.enterWalk s) := by
  unfold enterWalk
  split
  · exact ⟨⟨rfl, rfl, rfl, rfl⟩, nofun⟩
  · exact enterExtras_moves s b _

end BuildContext

namespace State

/-- A build in the walk moved on: the next head, or group 2 (R90, R93). -/
theorem advanceBuild_walk {s t : State} {b : BuildContext} (ht : s.advanceBuild = t) (building : s.engine = some b)
    (stage : b.phase = .walk) :
    t.BuildGoesOn b b.freeSpans t.WalkFrom ∧ t = s.putEngine t.engine := by
  have moved : b.advance s = b.enterWalk s := by simp only [BuildContext.advance, stage]
  obtain ⟨⟨channel, start, cadence, free⟩, timed⟩ := BuildContext.enterWalk_moves s b
  rw [advanceBuild_moves building (moved ▸ timed), moved] at ht
  subst ht
  exact ⟨⟨_, rfl, channel, start, cadence, free, BuildContext.enterWalk_from s b⟩, rfl⟩

/-- A build in group 2 moved on: the next flow that owes an extra, or group 3 (R93). -/
theorem advanceBuild_extras {s t : State} {b : BuildContext} {q : List FlowNo} (ht : s.advanceBuild = t)
    (building : s.engine = some b) (stage : b.phase = .extras q) :
    t.BuildGoesOn b b.freeSpans (t.ExtrasFrom q) ∧ t = s.putEngine t.engine := by
  have moved : b.advance s = b.enterExtras s q := by simp only [BuildContext.advance, stage]
  obtain ⟨⟨channel, start, cadence, free⟩, timed⟩ := BuildContext.enterExtras_moves s b q
  rw [advanceBuild_moves building (moved ▸ timed), moved] at ht
  subst ht
  exact ⟨⟨_, rfl, channel, start, cadence, free, BuildContext.enterExtras_from s b q⟩, rfl⟩

/-! ## Flows changed once, and counts that add up -/

/-- A change of the flows of a list that holds each once. -/
theorem mapFlows_flow_nodup (g : Flow → Flow) (f : FlowNo) : ∀ (q : List FlowNo) (s : State), q.Nodup →
    (s.mapFlows q g).flow f = if f ∈ q then g (s.flow f) else s.flow f
  | [], _, _ => by simp [mapFlows]
  | h :: q, s, nodup => by
    obtain ⟨out, later⟩ := List.nodup_cons.1 nodup
    rw [mapFlows_cons, mapFlows_flow_nodup g f q _ later, flow_putFlow]
    by_cases same : f = h
    · simp [same, out]
    · simp [same]

/-- Counting nothing changes nothing where the counter has not passed its bound (R163). -/
theorem count_zero {s : State} {c : ChanNo} {k : ChannelCounter} (bounded : s.counter c k ≤ 4294967295) :
    s.count c k 0 = s := by
  have kept : saturate (vget (vget s.channelCounters c) k.index) 0 = vget (vget s.channelCounters c) k.index :=
    Nat.min_eq_right bounded
  rw [count, kept, vput_vget, vput_vget]

/-- Two counts of one counter are the count of both (R163). -/
theorem count_count (s : State) (c : ChanNo) (k : ChannelCounter) (m n : Nat) :
    (s.count c k m).count c k n = s.count c k (m + n) := by
  have twice : saturate (saturate (s.counter c k) m) n = saturate (s.counter c k) (m + n) := by
    simp only [saturate]
    omega
  have puts {α : Type} {i : Nat} (v : Vector α i) (j : Fin i) (x y : α) : vput (vput v j x) j y = vput v j y := by
    simp [vput]
  simp only [count, vget_vput_same, puts]
  exact congrArg (fun x => { s with
    channelCounters := vput s.channelCounters c (vput (vget s.channelCounters c) k.index x) }) twice

/-! ## The timing of a calendar (R84, R88, R89) -/

/-- A waiting flow as the timing leaves it (R88). -/
def timedFlow (start : Beat) (x : Flow) : Flow := { x with nextNominal := some (start + beats32 x.phase) }

/-- A TIMED flow as the timing leaves it (R89). -/
def broughtForward (start : Beat) (x : Flow) : Flow := advancedNominal x (lapsedPeriods x start)

theorem timedFlow_twice (start : Beat) (x : Flow) : timedFlow start (timedFlow start x) = timedFlow start x := rfl

/-- A nominal timed from START is not before it: PHASE is less than 2^31. -/
theorem lapsedPeriods_timedFlow {start : Beat} {x : Flow} (short : x.phase ≤ 65535) :
    lapsedPeriods (timedFlow start x) start = 0 := by
  have notBefore : before (start + beats32 x.phase) start = false := by
    rw [← Bool.not_eq_true, before, Bool.and_eq_true, decide_eq_true_eq, decide_eq_true_eq, beats32]
    bv_omega
  simp [lapsedPeriods, timedFlow, notBefore]

/-- A flow timed at this plan is not brought forward (R88, R89). -/
theorem broughtForward_timedFlow {start : Beat} {x : Flow} (short : x.phase ≤ 65535) :
    broughtForward start (timedFlow start x) = timedFlow start x := by
  rw [broughtForward, lapsedPeriods_timedFlow short]
  simp [advancedNominal, timedFlow, beats32]

/-- Bringing flows forward one after another changes each and counts the periods of all (R89). -/
theorem bringForward_foldl (c : ChanNo) (start : Beat) : ∀ (q : List FlowNo) (s : State) (m : Nat), q.Nodup →
    q.foldl (fun u f => u.bringForward c start f) (s.count c .periodicLapsed m) =
      (s.mapFlows q (broughtForward start)).count c .periodicLapsed
        (m + (q.map (fun f => lapsedPeriods (s.flow f) start)).sum)
  | [], _, _, _ => rfl
  | f :: q, s, m, nodup => by
    obtain ⟨out, later⟩ := List.nodup_cons.1 nodup
    have one : (s.count c .periodicLapsed m).bringForward c start f =
        (s.putFlow f (broughtForward start (s.flow f))).count c .periodicLapsed (m + lapsedPeriods (s.flow f) start) := by
      rw [← count_count]
      rfl
    have same : q.map (fun g => lapsedPeriods ((s.putFlow f (broughtForward start (s.flow f))).flow g) start) =
        q.map (fun g => lapsedPeriods (s.flow g) start) :=
      List.map_congr_left fun g among => by
        have other : g ≠ f := fun e => out (e ▸ among)
        rw [flow_putFlow_ne s other]
    rw [List.foldl_cons, one, bringForward_foldl c start q _ _ later, same, mapFlows_cons, List.map_cons, List.sum_cons,
      Nat.add_assoc]

/-- The TIMED order keeps the flows it is given. -/
theorem sortTimed_perm (s : State) : ∀ q : List FlowNo, (s.sortTimed q).Perm q
  | [] => List.Perm.refl _
  | f :: q => (insertBy_perm _ f _).trans ((sortTimed_perm s q).cons f)

/-- Flows whose nominals lie less than 2^31 beats after START stand by nominal and then by number (R84). -/
theorem sortTimed_pairwise {s : State} {start : Beat} {nominal : FlowNo → Beat} : ∀ {q : List FlowNo}, q.Nodup →
    (∀ f ∈ q, (s.flow f).nextNominal = some (nominal f) ∧ (nominal f - start).toNat < 2 ^ 31) →
    (s.sortTimed q).Pairwise (fun f g =>
      (nominal f - start).toNat < (nominal g - start).toNat ∨ (nominal f = nominal g ∧ f < g))
  | [], _, _ => List.Pairwise.nil
  | f :: q, nodup, near => by
    obtain ⟨out, later⟩ := List.nodup_cons.1 nodup
    obtain ⟨⟨nominalF, nearF⟩, nearQ⟩ := List.forall_mem_cons.1 near
    refine pairwise_insertBy (fun a b c ab bc => ?_) (fun g among => ?_) (sortTimed_pairwise later nearQ)
    · obtain less | ⟨same, low⟩ := ab
      · obtain less' | ⟨same', -⟩ := bc
        · exact .inl (less.trans less')
        · exact .inl (same' ▸ less)
      · rw [same]
        exact bc.imp_right (And.imp_right low.trans)
    · have among := (sortTimed_perm s q).mem_iff.1 among
      obtain ⟨nominalG, nearG⟩ := nearQ g among
      have differ : f ≠ g := fun e => out (e ▸ among)
      have goes : s.timedAhead f g = true ↔
          (nominal f - start).toNat < (nominal g - start).toNat ∨ (nominal f = nominal g ∧ f < g) := by
        simp only [timedAhead, nominalF, nominalG, Bool.or_eq_true, before_iff_nearer nearF nearG, Bool.and_eq_true,
          beq_iff_eq, decide_eq_true_eq]
      split
      · next ahead => exact goes.1 ahead
      · next behind =>
        rw [goes, not_or, not_and, Nat.not_lt] at behind
        obtain ⟨notNearer, notLower⟩ := behind
        obtain less | same := notNearer.lt_or_eq
        · exact .inl less
        · have same : nominal f = nominal g := by bv_omega
          exact .inr ⟨same.symm, lt_of_le_of_ne (not_lt.1 (notLower same)) differ.symm⟩

/-- The flows of a calendar, timed and brought forward (R88, R89). -/
def timedFlows (s : State) (c : ChanNo) (start : Beat) : State :=
  (s.mapFlows (s.calendar c).waiting (timedFlow start)).mapFlows ((s.calendar c).timed ++ (s.calendar c).waiting)
    (broughtForward start)

section Timing

variable {s : State} {c : ChanNo} {start : Beat}

theorem timedFlows_frame : s.timedFlows c start = { s with flows := (s.timedFlows c start).flows } := by
  rw [timedFlows, mapFlows_frame, mapFlows_frame (timedFlow start)]

/-- Each flow of a calendar is timed or brought forward, by the part it stands in, and no other flow changes (R88, R89). -/
theorem timedFlows_flow (nodup : ((s.calendar c).timed ++ (s.calendar c).waiting).Nodup)
    (short : ∀ f ∈ (s.calendar c).waiting, (s.flow f).phase ≤ 65535) (f : FlowNo) :
    (s.timedFlows c start).flow f =
      if f ∈ (s.calendar c).waiting then timedFlow start (s.flow f)
      else if f ∈ (s.calendar c).timed then broughtForward start (s.flow f)
      else s.flow f := by
  rw [timedFlows, mapFlows_flow_nodup _ f _ _ nodup, mapFlows_flow (timedFlow_twice start)]
  by_cases waits : f ∈ (s.calendar c).waiting
  · simp [waits, broughtForward_timedFlow (short f waits)]
  · simp [waits]

/-- The timing of a calendar: its flows timed and brought forward, the periods of its TIMED part counted, and both parts in the
order of the TIMED part (R84, R88, R89). -/
theorem timeCalendar_eq (bounded : s.counter c .periodicLapsed ≤ 4294967295)
    (nodup : ((s.calendar c).timed ++ (s.calendar c).waiting).Nodup)
    (short : ∀ f ∈ (s.calendar c).waiting, (s.flow f).phase ≤ 65535) :
    s.timeCalendar c start =
      ((s.timedFlows c start).count c .periodicLapsed
          ((s.calendar c).timed.map (fun f => lapsedPeriods (s.flow f) start)).sum).putCalendar c
        { waiting := []
          timed := (s.timedFlows c start).sortTimed ((s.calendar c).timed ++ (s.calendar c).waiting) } := by
  obtain ⟨w, hw⟩ : ∃ w, s.mapFlows (s.calendar c).waiting (timedFlow start) = w := ⟨_, rfl⟩
  have flow (f : FlowNo) : w.flow f = if f ∈ (s.calendar c).waiting then timedFlow start (s.flow f) else s.flow f := by
    rw [← hw, mapFlows_flow (timedFlow_twice start)]
  have timed : (s.calendar c).timed.map (fun f => lapsedPeriods (w.flow f) start) =
      (s.calendar c).timed.map (fun f => lapsedPeriods (s.flow f) start) :=
    List.map_congr_left fun f among => by rw [flow, if_neg (List.disjoint_of_nodup_append nodup among)]
  have waiting : ((s.calendar c).waiting.map (fun f => lapsedPeriods (w.flow f) start)).sum = 0 :=
    List.sum_eq_zero fun k among => by
      obtain ⟨f, waits, rfl⟩ := List.mem_map.1 among
      rw [flow, if_pos waits, lapsedPeriods_timedFlow (short f waits)]
  have uncounted : w.count c .periodicLapsed 0 = w := by
    refine count_zero (le_of_eq_of_le ?_ bounded)
    rw [← hw, mapFlows_frame]
    rfl
  have brought := bringForward_foldl c start ((s.calendar c).timed ++ (s.calendar c).waiting) w 0 nodup
  rw [uncounted, Nat.zero_add, List.map_append, List.sum_append, timed, waiting, Nat.add_zero] at brought
  have begun : (s.calendar c).waiting.foldl (fun t f => t.timeFlow start f) s = w := hw
  rw [timeCalendar, begun, brought, timedFlows, hw]
  rfl

/-- What the timing of a calendar leaves: its flows, their places, the count and everything else (R88, R89). -/
theorem timeCalendar_leaves (bounded : s.counter c .periodicLapsed ≤ 4294967295)
    (nodup : ((s.calendar c).timed ++ (s.calendar c).waiting).Nodup)
    (short : ∀ f ∈ (s.calendar c).waiting, (s.flow f).phase ≤ 65535) {t : State} (ht : s.timeCalendar c start = t) :
    (∀ f, t.flow f = (s.timedFlows c start).flow f) ∧
      t.calendar c =
        { waiting := []
          timed := (s.timedFlows c start).sortTimed ((s.calendar c).timed ++ (s.calendar c).waiting) } ∧
      (∀ d, d ≠ c → t.calendar d = s.calendar d) ∧
      (∀ d k, t.counter d k =
        if d = c ∧ k = .periodicLapsed then
          saturate (s.counter d k) ((s.calendar c).timed.map (fun f => lapsedPeriods (s.flow f) start)).sum
        else s.counter d k) ∧
      t = { s with flows := t.flows, calendars := t.calendars, channelCounters := t.channelCounters } := by
  obtain ⟨w, hw⟩ : ∃ w, s.timedFlows c start = w := ⟨_, rfl⟩
  have frame : w = { s with flows := w.flows } := hw ▸ timedFlows_frame
  have calendar (d : ChanNo) : w.calendar d = s.calendar d := by rw [frame]; rfl
  have counter (d : ChanNo) (k : ChannelCounter) : w.counter d k = s.counter d k := by rw [frame]; rfl
  rw [timeCalendar_eq bounded nodup short, hw] at ht
  rw [hw, ← ht]
  refine ⟨fun f => ?_, calendar_putCalendar_same _ _ _, fun d other => ?_, fun d k => ?_, ?_⟩
  · rw [putCalendar_flow, count_flow]
  · rw [calendar_putCalendar_ne _ other, count_calendar, calendar]
  · rw [putCalendar_counter, counter_count, counter, counter]
    by_cases here : d = c ∧ k = .periodicLapsed
    · rw [if_pos here, if_pos here, here.1, here.2]
    · rw [if_neg here, if_neg here]
  · rw [frame]
    rfl

end Timing

/-! ## Windowed placement (R65, R66, R90) -/

/-- A position is tried by what Fits says of it. -/
theorem tryAt_cases (s : State) (b : BuildContext) (n : Nat) (body : ElementBody) (p : Nat) :
    (∃ spans, s.Fits b n body p ∧ cutWindow p n b.freeSpans = some spans ∧
      searchWindow.tryAt s b n body p = some (s.place b { offset := p, length := n, body := body } spans)) ∨
    (¬ s.Fits b n body p ∧ searchWindow.tryAt s b n body p = none) := by
  unfold searchWindow.tryAt Fits
  by_cases inside : p + n ≤ (s.params b.channel).planLength
  · rcases cut : cutWindow p n b.freeSpans with _ | spans
    · simp [inside]
    · by_cases budget : withinBudget
        (addElement { offset := p, length := n, body := body } (s.buildHalf b.channel).elements) spans = true <;>
      simp [inside, budget]
  · simp [inside]

/-- The search places at the first position that qualifies, of `p` and the `k` behind it, or finds that none does (R90). -/
theorem searchWindow_cases (s : State) (b : BuildContext) (n : Nat) (body : ElementBody) : ∀ k p : Nat,
    (∃ o spans, p ≤ o ∧ o ≤ p + k ∧ s.Fits b n body o ∧ (∀ i, p ≤ i → i < o → ¬ s.Fits b n body i) ∧
      cutWindow o n b.freeSpans = some spans ∧
      s.searchWindow b n body p k = some (s.place b { offset := o, length := n, body := body } spans)) ∨
    ((∀ o, p ≤ o → o ≤ p + k → ¬ s.Fits b n body o) ∧ s.searchWindow b n body p k = none) := by
  intro k
  induction k with
  | zero =>
    intro p
    obtain ⟨spans, fits, cut, here⟩ | ⟨no, here⟩ := tryAt_cases s b n body p
    · exact .inl ⟨p, spans, le_rfl, le_rfl, fits, fun i low high => absurd low (Nat.not_le.2 high), cut, here⟩
    · exact .inr ⟨fun o low high => le_antisymm low high ▸ no, here⟩
  | succ k later =>
    intro p
    rw [searchWindow]
    obtain ⟨spans, fits, cut, here⟩ | ⟨no, here⟩ := tryAt_cases s b n body p <;> rw [here]
    · exact .inl ⟨p, spans, le_rfl, Nat.le_add_right p _, fits, fun i low high => absurd low (Nat.not_le.2 high), cut, rfl⟩
    have beyond {Q : Nat → Prop} (behind : ∀ i, p + 1 ≤ i → Q i → ¬ s.Fits b n body i) (i : Nat) (low : p ≤ i)
        (range : Q i) : ¬ s.Fits b n body i := by
      obtain rfl | above := low.eq_or_lt
      · exact no
      · exact behind i above range
    obtain ⟨o, spans, low, high, fits, first, cut, found⟩ | ⟨nowhere, found⟩ := later (p + 1)
    · exact .inl ⟨o, spans, by omega, by omega, fits, beyond first, cut, found⟩
    · exact .inr ⟨beyond fun i low high => nowhere i low (by omega), found⟩

/-! ## The walk (R84, R90, R91) -/

/-- The order of the TIMED part is R84's. -/
theorem timedAhead_iff (s : State) (f g : FlowNo) : s.timedAhead f g = true ↔ s.NominalAhead f g := by
  unfold timedAhead NominalAhead
  cases (s.flow f).nextNominal <;> cases (s.flow g).nextNominal <;> simp [before]

/-- What a step of the walk over the head `f`, with nominal `n` and `rest` behind it, leaves whether the turn is placed or
missed. -/
structure WalkFrame (s t : State) (c : ChanNo) (f : FlowNo) (rest : List FlowNo) (n : Beat) : Prop where
  flows : t.flows = (s.putFlow f { s.flow f with nextNominal := some (n + beats32 (s.flow f).period) }).flows
  place : ∃ l r, (t.calendar c).timed = l ++ f :: r ∧ rest = l ++ r ∧
    (∀ g ∈ l, ¬ t.NominalAhead f g) ∧ ∀ g, r.head? = some g → t.NominalAhead f g
  waiting : (t.calendar c).waiting = (s.calendar c).waiting
  others : ∀ d, d ≠ c → t.calendar d = s.calendar d
  frame : t = { s with
    flows := t.flows, calendars := t.calendars, channelCounters := t.channelCounters, engine := t.engine
    planStores := t.planStores, notices := t.notices }

/-- The head examined: its nominal advances by PERIOD, and it takes its new position among the others (R90). -/
theorem walkFrame_advanceHead {s u : State} {c : ChanNo} {f : FlowNo} {rest : List FlowNo} {n : Beat}
    (head : (s.calendar c).timed = f :: rest) (nominal : (s.flow f).nextNominal = some n)
    (frame : u = { s with
      channelCounters := u.channelCounters, engine := u.engine, planStores := u.planStores, notices := u.notices }) :
    s.WalkFrame (u.advanceHead c f) c f rest n := by
  have advanced : advancedNominal (s.flow f) 1 =
      { s.flow f with nextNominal := some (n + beats32 (s.flow f).period) } := by
    simp only [advancedNominal, nominal, Option.map_some, Nat.one_mul]
  have flows : u.flows = s.flows := by rw [frame]
  have flow : u.flow f = s.flow f := by rw [State.flow, flows, State.flow]
  have calendars : u.calendars = s.calendars := by rw [frame]
  have calendar (d : ChanNo) : u.calendar d = s.calendar d := by rw [State.calendar, calendars, State.calendar]
  obtain ⟨v, hv⟩ : ∃ v, u.putFlow f (advancedNominal (u.flow f) 1) = v := ⟨_, rfl⟩
  have left : u.advanceHead c f =
      v.putCalendar c { s.calendar c with timed := insertBy v.timedAhead f rest } := by
    rw [advanceHead, hv, show v.calendar c = s.calendar c by rw [← hv]; exact calendar c, head, List.erase_cons_head]
  obtain ⟨l, r, whole, placed, behind, ahead⟩ := insertBy_split v.timedAhead f rest
  rw [left]
  refine ⟨?_, ⟨l, r, ?_, whole, fun g among goes => ?_, fun g first => (v.timedAhead_iff f g).1 (ahead g first)⟩,
    ?_, fun d other => ?_, ?_⟩
  · rw [← hv, flow, advanced]
    exact congrArg (fun q => Table.put Flow.reset q f.val _) flows
  · rw [calendar_putCalendar_same, placed]
  · exact absurd ((v.timedAhead_iff f g).2 goes) (by simp [behind g among])
  · rw [calendar_putCalendar_same]
  · rw [calendar_putCalendar_ne _ other, ← hv]
    exact calendar d
  · rw [← hv, frame]
    rfl

/-- A step of the walk moved on: what WalkFrame says, and the next head or group 2 (R90, R93). -/
theorem walk_goesOn {s u t : State} {y : BuildContext} {c : ChanNo} {f : FlowNo} {rest : List FlowNo} {n : Beat}
    (ht : (u.advanceHead c f).advanceBuild = t) (building : u.engine = some y) (stage : y.phase = .walk)
    (head : (s.calendar c).timed = f :: rest) (nominal : (s.flow f).nextNominal = some n)
    (frame : u = { s with
      channelCounters := u.channelCounters, engine := u.engine, planStores := u.planStores, notices := u.notices }) :
    s.WalkFrame t c f rest n ∧ t.BuildGoesOn y y.freeSpans t.WalkFrom ∧ t.planStores = u.planStores ∧
      t.channelCounters = u.channelCounters ∧ t.notices = u.notices := by
  obtain ⟨flows, place, waiting, others, kept⟩ := walkFrame_advanceHead head nominal frame
  obtain ⟨goes, moved⟩ := advanceBuild_walk ht building stage
  refine ⟨⟨?_, ?_, ?_, ?_, ?_⟩, goes, ?_, ?_, ?_⟩
  all_goals rw [moved]
  · exact flows
  · exact place
  · exact waiting
  · exact others
  · rw [kept]
    simp only [putEngine]
  all_goals rfl

/-- The head of the TIMED part is examined while its nominal falls in the plan (R90). -/
theorem periodicWalkStep_eq {s : State} {b : BuildContext} {f : FlowNo} {rest : List FlowNo} {n : Beat}
    (settled : s.BuildSettled) (building : s.engine = some b) (stage : b.phase = .walk)
    (head : (s.calendar b.channel).timed = f :: rest) (nominal : (s.flow f).nextNominal = some n)
    (inPlan : (n - b.start).toNat < (s.params b.channel).planLength) :
    s.periodicWalkStep = (s.walkStep b f).advanceBuild := by
  have walks : s.walkHead b = some f := by
    simp only [walkHead, head, nominalOffset, nominal, Option.map_some, if_pos inPlan]
  simp only [periodicWalkStep, settled, building, stage, if_true, walks]

/-! ## Group 2 (R93) -/

/-- An extra placed: the flow owes one less (R93). -/
theorem extraTurnStep_placed {s : State} {b : BuildContext} {f : FlowNo} {rest : List FlowNo} {o : Nat}
    {spans : List Span} (settled : s.BuildSettled) (building : s.engine = some b)
    (stage : b.phase = .extras (f :: rest))
    (room : s.Room b (s.flow f).turnBeats (.periodic (s.stationOf f) f) o spans) :
    s.extraTurnStep = State.advanceBuild
      { s with
        planStores :=
          (s.putBuildHalf b.channel
            { s.buildHalf b.channel with
              elements := s.placed b (s.flow f).turnBeats (.periodic (s.stationOf f) f) o }).planStores
        engine := some { b with phase := .extras rest, freeSpans := spans }
        flows := (s.putFlow f { s.flow f with extrasOwed := (s.flow f).extrasOwed - 1 }).flows
        channelCounters := (s.count b.channel .periodicPlaced 1).channelCounters } := by
  have there := placeFirstFit_room (b := { b with phase := .extras rest }) room
  have flow (e : Element) : (s.place { b with phase := .extras rest } e spans).flow f = s.flow f := rfl
  simp only [extraTurnStep, settled, building, stage, there, flow]
  simp only [placed, place, putBuild, putEngine, putBuildHalf, putPlanStore, putFlow, count]

/-- An extra that does not fit is deferred (R93). -/
theorem extraTurnStep_deferred {s : State} {b : BuildContext} {f : FlowNo} {rest : List FlowNo}
    (settled : s.BuildSettled) (building : s.engine = some b) (stage : b.phase = .extras (f :: rest))
    (noRoom : ∀ o spans, ¬ s.Room b (s.flow f).turnBeats (.periodic (s.stationOf f) f) o spans) :
    s.extraTurnStep =
      ((s.putBuild { b with phase := .extras rest }).count b.channel .extraDeferred 1).advanceBuild := by
  have refused := placeFirstFit_noRoom (b := { b with phase := .extras rest }) noRoom
  simp only [extraTurnStep, settled, building, stage, refused]

end State

/-- Settles O14: State.timeCalendar_leaves says what the timing leaves, State.timedFlows_flow and State.sortTimed_pairwise read its
flows and their order, and State.advanceBuild_walk says what comes next. -/
theorem periodicTimingTimesTheCalendar : Obligations.PeriodicTimingTimesTheCalendar := by
  intro s b quiet bounded building stage nodup short
  obtain ⟨u, hu⟩ : ∃ u, s.timeCalendar b.channel b.start = u := ⟨_, rfl⟩
  obtain ⟨t, ht⟩ : ∃ t, (u.putBuild { b with phase := .walk }).advanceBuild = t := ⟨_, rfl⟩
  have step : exec .periodicTiming s = .next t := by
    refine (congrArg (fun u : State => Host.Outcome.next u.periodicTimingStep) (State.settle_quiet quiet)).trans ?_
    simp only [State.periodicTimingStep, building, stage, if_true, hu, ht]
  obtain ⟨flow, calendar, others, counter, frame⟩ :=
    State.timeCalendar_leaves (bounded.1 b.channel .periodicLapsed) nodup short hu
  have flows := State.timedFlows_flow (start := b.start) nodup short
  have holds := State.sortTimed_perm (s.timedFlows b.channel b.start)
    ((s.calendar b.channel).timed ++ (s.calendar b.channel).waiting)
  obtain ⟨goes, moved⟩ := State.advanceBuild_walk ht rfl rfl
  have flow (f : FlowNo) : t.flow f = (s.timedFlows b.channel b.start).flow f := by
    rw [moved]
    exact flow f
  have calendar : t.calendar b.channel =
      { waiting := []
        timed := (s.timedFlows b.channel b.start).sortTimed
          ((s.calendar b.channel).timed ++ (s.calendar b.channel).waiting) } := by
    rw [moved]
    exact calendar
  refine ⟨t, fun f => State.lapsedPeriods (s.flow f) b.start, step, fun _ => rfl, fun f waits => ?_, fun f timed => ?_,
    fun f out out' => ?_, ?_, ?_, fun nominal near => ?_, fun d k => ?_, goes, fun d other => ?_, ?_⟩
  · rw [flow, flows, if_pos waits]
    rfl
  · rw [flow, flows, if_neg (List.disjoint_of_nodup_append nodup timed), if_pos timed]
    rfl
  · rw [flow, flows, if_neg out, if_neg out']
  · rw [calendar]
  · rw [calendar]
    exact holds
  · rw [calendar] at near ⊢
    exact State.sortTimed_pairwise nodup fun f among => flow f ▸ near f (holds.mem_iff.2 among)
  · rw [moved]
    exact counter d k
  · rw [moved]
    exact others d other
  · rw [moved, frame]
    rfl

/-- Settles O15: State.searchWindow_cases finds the first position or none, and State.walk_goesOn says what either leaves. -/
theorem periodicWalkPlacesOrMissesTheHead : Obligations.PeriodicWalkPlacesOrMissesTheHead := by
  intro s b f rest n m quiet settled building stage head nominal inPlan of
  have station : s.stationOf f = m := by rw [State.stationOf, of, Option.getD_some]
  have offset : (s.nominalOffset b.start f).getD 0 = (n - b.start).toNat := by
    rw [State.nominalOffset, nominal, Option.map_some, Option.getD_some]
  have step : exec .periodicWalk s = .next (s.walkStep b f).advanceBuild :=
    (congrArg (fun u : State => Host.Outcome.next u.periodicWalkStep) (State.settle_quiet quiet)).trans
      (congrArg Host.Outcome.next (State.periodicWalkStep_eq settled building stage head nominal inPlan))
  obtain ⟨t, ht⟩ : ∃ t, (s.walkStep b f).advanceBuild = t := ⟨_, rfl⟩
  refine ⟨t, ht ▸ step, ?_⟩
  obtain ⟨o, spans, low, high, fits, first, cut, found⟩ | ⟨nowhere, found⟩ := State.searchWindow_cases s b
    (s.flow f).turnBeats (.periodic m f) (s.flow f).jitter (n - b.start).toNat
  · simp only [State.walkStep, station, offset, found] at ht
    obtain ⟨⟨flows, place, waiting, others, frame⟩, goes, plans, counters, notices⟩ :=
      State.walk_goesOn (y := { b with freeSpans := spans }) ht rfl stage head nominal
        (by simp only [State.place, State.putBuild, State.putEngine, State.putBuildHalf, State.putPlanStore, State.count])
    refine ⟨fun p low' high' fits' first' => ?_, fun no => absurd fits (no o low high), flows, place, waiting, others, frame⟩
    obtain less | rfl | more := lt_trichotomy p o
    · exact absurd fits' (first p low' less)
    · exact ⟨plans, ⟨spans, cut, goes⟩, counters, notices⟩
    · exact absurd fits (first' o low more)
  · simp only [State.walkStep, station, offset, nominal, found] at ht
    obtain ⟨⟨flows, place, waiting, others, frame⟩, goes, plans, counters, notices⟩ :=
      State.walk_goesOn (y := b) ht building stage head nominal rfl
    exact ⟨fun p low high fits => absurd fits (nowhere p low high), fun _ => ⟨plans, goes, counters, notices⟩, flows, place,
      waiting, others, frame⟩

/-- Settles O16: with room the extra is placed, and without it deferred; State.advanceBuild_extras says what comes next. -/
theorem extraTurnPlacesOrDefersOne : Obligations.ExtraTurnPlacesOrDefersOne := by
  intro s b f rest m quiet settled building stage of
  have station : s.stationOf f = m := by rw [State.stationOf, of, Option.getD_some]
  have step : exec .extraTurn s = .next s.extraTurnStep :=
    congrArg (fun u : State => Host.Outcome.next u.extraTurnStep) (State.settle_quiet quiet)
  obtain ⟨t, ht⟩ : ∃ t, s.extraTurnStep = t := ⟨_, rfl⟩
  rw [← station]
  refine ⟨t, ht ▸ step, fun o spans room => ?_, fun noRoom => ?_⟩
  · rw [State.extraTurnStep_placed settled building stage room] at ht
    obtain ⟨goes, moved⟩ := State.advanceBuild_extras ht rfl rfl
    refine ⟨?_, goes, ?_⟩
    · rw [State.PlacedIn, moved, State.putEngine_planStores]
    · rw [moved]
      rfl
  · rw [State.extraTurnStep_deferred settled building stage noRoom] at ht
    obtain ⟨goes, moved⟩ := State.advanceBuild_extras (b := { b with phase := .extras rest }) ht rfl rfl
    refine ⟨goes, ?_⟩
    rw [moved]
    rfl

end Sys2Proof.Machine
end

section
/-! SUPPORT. The join opening of group 3, and the statement on it (R68, R104, R112). -/

namespace Sys2Proof.Machine

namespace BuildContext

/-! ## Group 4 begins (R69, R112, R113) -/

/-- Stage 2 that has just begun stays where it is. -/
theorem advance_enterOpenings (s : State) (b : BuildContext) :
    (b.enterOpenings s).advance s = b.enterOpenings s := by
  by_cases target : (s.contentionOf b.channel).target = 0
  · simp only [enterOpenings, target, if_true, advance_enterVisits]
  · simp [enterOpenings, target, advance]

/-- A sweep that has just begun stays where it is, and so does what comes in its place. -/
theorem advance_enterSweep (s : State) (b : BuildContext) (q : List StationNo) :
    (b.enterSweep s q).advance s = b.enterSweep s q := by
  by_cases room : q.length < (s.params b.channel).pollLimit
  · simp [enterSweep, room, advance, Config.maxSweep]
  · simp only [enterSweep, room, if_false, advance_enterOpenings]

/-- Group 4 that has just begun stays where it is, and so does what comes in its place. -/
theorem advance_enterPolls (s : State) (b : BuildContext) : (b.enterPolls s).advance s = b.enterPolls s := by
  by_cases nobody : min (s.params b.channel).pollLimit (s.pollQueue b.channel).length = 0
  · simp only [enterPolls, nobody, if_true, advance_enterSweep]
  · have some' : (s.params b.channel).pollLimit ≠ 0 ∧ s.pollQueue b.channel ≠ [] := by
      simpa [Nat.min_eq_zero_iff, not_or] using nobody
    simp [enterPolls, advance, some']

/-- Group 4 and what comes in its place lie behind group 3. -/
theorem enterPolls_passesJoin (s : State) (b : BuildContext) : (b.enterPolls s).phase ≠ .join := by
  unfold enterPolls enterSweep enterOpenings enterVisits startLevel
  (repeat' split) <;> simp

end BuildContext

namespace State

/-- The cadence selects the plan (R104). -/
theorem joinOffered_iff (s : State) (b : BuildContext) :
    s.joinOffered b = true ↔
      (s.params b.channel).joinCadence ≠ 0 ∧ b.cadenceSequence.toNat % (s.params b.channel).joinCadence = 0 := by
  simp [joinOffered]

/-- A build that enters group 4 goes on there, and nothing but the build changes (R112). -/
theorem advanceBuild_enterPolls {s t : State} {b : BuildContext}
    (ht : (s.putBuild (b.enterPolls s)).advanceBuild = t) :
    t.BuildGoesOn b b.freeSpans t.Group4From ∧ t = s.putEngine t.engine := by
  obtain ⟨⟨channel, start, cadence, free⟩, timed⟩ := BuildContext.enterPolls_moves s b
  have stays : (b.enterPolls s).advance (s.putBuild (b.enterPolls s)) = b.enterPolls s :=
    BuildContext.advance_enterPolls s b
  rw [advanceBuild_moves rfl (by rw [stays]; exact timed), stays] at ht
  subst ht
  exact ⟨⟨_, rfl, channel, start, cadence, free, BuildContext.enterPolls_from s b⟩, rfl⟩

/-! ## The join opening (R104) -/

/-- A join opening placed, where there is room for it. -/
theorem joinOpeningStep_placed {s : State} {b : BuildContext} {o : Nat} {spans : List Span}
    (settled : s.BuildSettled) (building : s.engine = some b) (stage : b.phase = .join)
    (room : s.Room b (s.params b.channel).joinLength .join o spans) {u : State}
    (left : u = (s.place b { offset := o, length := (s.params b.channel).joinLength, body := .join } spans).count
      b.channel .joinOffered 1) :
    s.joinOpeningStep =
      (u.putBuild (BuildContext.enterPolls { b with freeSpans := spans } u)).advanceBuild := by
  have placed := placeFirstFit_room room
  simp only [joinOpeningStep, settled, building, stage, if_true, placed, ← left]
  subst left
  rfl

/-- A join opening dropped, where there is none. -/
theorem joinOpeningStep_dropped {s : State} {b : BuildContext} (settled : s.BuildSettled)
    (building : s.engine = some b) (stage : b.phase = .join)
    (noRoom : ∀ o spans, ¬ s.Room b (s.params b.channel).joinLength .join o spans) :
    s.joinOpeningStep =
      ((s.count b.channel .joinDropped 1).putBuild
        (b.enterPolls (s.count b.channel .joinDropped 1))).advanceBuild := by
  have refused := placeFirstFit_noRoom noRoom
  simp only [joinOpeningStep, settled, building, stage, if_true, refused]

end State

/-- Settles O17: BuildContext.enterJoin goes to group 3 where the cadence selects the plan and else past it; with room the
opening is placed and without it dropped, and State.advanceBuild_enterPolls says what comes next. -/
theorem joinOpeningIsOfferedByTheCadence : Obligations.JoinOpeningIsOfferedByTheCadence := by
  refine ⟨fun s b => ?_, fun s b quiet settled building stage => ?_⟩
  · rw [← State.joinOffered_iff, BuildContext.enterJoin]
    split
    · next offered => simp [offered]
    · next passed => simp [passed, BuildContext.enterPolls_passesJoin]
  have step : exec .joinOpening s = .next s.joinOpeningStep :=
    congrArg (fun u : State => Host.Outcome.next u.joinOpeningStep) (State.settle_quiet quiet)
  obtain ⟨t, ht⟩ : ∃ t, s.joinOpeningStep = t := ⟨_, rfl⟩
  refine ⟨t, ht ▸ step, fun o spans room => ?_, fun noRoom => ?_⟩
  · obtain ⟨goes, moved⟩ :=
      State.advanceBuild_enterPolls ((State.joinOpeningStep_placed settled building stage room rfl).symm.trans ht)
    refine ⟨?_, goes, ?_⟩
    · rw [State.PlacedIn, moved]
      rfl
    · rw [moved]
      rfl
  · obtain ⟨goes, moved⟩ :=
      State.advanceBuild_enterPolls ((State.joinOpeningStep_dropped settled building stage noRoom).symm.trans ht)
    refine ⟨goes, ?_⟩
    rw [moved]
    rfl

end Sys2Proof.Machine
end

section
/-! SUPPORT. The units of a record matched to a JOIN entry reach nobody and are counted by kind (R146, R147). -/

namespace Sys2Proof.Machine

/-- A record's units around its first join unit, whose hardware ID the record hands off (R106). -/
theorem firstJoin_some {l u : List BurstUnit} {h : HwId} (first : ∀ g, .join g ∉ l) :
    firstJoin (l ++ .join h :: u) = some h ∧ (l ++ .join h :: u).eraseP BurstUnit.isJoin = l ++ u := by
  induction l with
  | nil => exact ⟨rfl, rfl⟩
  | cons x l ih =>
    obtain ⟨found, erased⟩ := ih fun g among => first g (List.mem_cons_of_mem _ among)
    cases x with
    | join g => exact absurd List.mem_cons_self (first g)
    | data | request | behind => exact ⟨found, congrArg _ erased⟩

/-- A record without a join unit hands off no hardware ID, and none of its units is left out. -/
theorem firstJoin_none {us : List BurstUnit} (none' : ∀ h, .join h ∉ us) :
    firstJoin us = none ∧ us.eraseP BurstUnit.isJoin = us := by
  induction us with
  | nil => exact ⟨rfl, rfl⟩
  | cons x us ih =>
    obtain ⟨found, erased⟩ := ih fun h among => none' h (List.mem_cons_of_mem _ among)
    cases x with
    | join h => exact absurd List.mem_cons_self (none' h)
    | data | request | behind => exact ⟨found, congrArg _ erased⟩

/-- A record has no join unit, or a first one. -/
theorem firstJoin_cases (us : List BurstUnit) :
    (∀ h, .join h ∉ us) ∨ ∃ l h u, us = l ++ .join h :: u ∧ ∀ g, .join g ∉ l := by
  induction us with
  | nil => exact .inl (by simp)
  | cons x us ih =>
    cases x with
    | join h => exact .inr ⟨[], h, us, rfl, by simp⟩
    | data | request | behind =>
      obtain no | ⟨l, h, u, e, first⟩ := ih
      · exact .inl (by simpa using no)
      · exact .inr ⟨_ :: l, h, u, congrArg _ e, by simpa using first⟩

/-- The counter that a unit of a JOIN entry raises, other than the first join unit (R147). -/
def BurstUnit.joinCounter : BurstUnit → ChannelCounter
  | .data _ | .request _ _ _ => .unitsDiscarded
  | .join _ => .joinUnitDiscarded
  | .behind => .behindIgnored

@[simp] theorem joinCounter_join (h : HwId) : (BurstUnit.join h).joinCounter = .joinUnitDiscarded := rfl

namespace State

/-- One more occurrence ahead of `k` others (R163). -/
theorem risen_saturate (v k : Nat) : risen (saturate v 1) k = risen v (k + 1) := by
  simp only [risen, saturate, Config.maxCounter]
  split <;> simp_all
  omega

theorem dispatchUnit_join (s : State) (r : BurstRecord) (u : BurstUnit) :
    s.dispatchUnit r .join u = s.count r.channel u.joinCounter 1 := by cases u <;> rfl

/-- The units of a JOIN entry raise their counters on the record's channel, and change nothing else (R147). -/
theorem dispatchJoin_counted (r : BurstRecord) : ∀ (us : List BurstUnit) (s : State),
    us.foldl (fun t u => t.dispatchUnit r .join u) s =
      { s with channelCounters := (us.foldl (fun t u => t.dispatchUnit r .join u) s).channelCounters } ∧
    ∀ d k, (us.foldl (fun t u => t.dispatchUnit r .join u) s).counter d k =
      if d = r.channel then risen (s.counter d k) (us.countP (fun u => u.joinCounter == k)) else s.counter d k
  | [], s => ⟨rfl, fun d k => by simp [risen]⟩
  | u :: us, s => by
    obtain ⟨frame, counters⟩ := dispatchJoin_counted r us (s.count r.channel u.joinCounter 1)
    rw [List.foldl_cons, dispatchUnit_join]
    refine ⟨by rw [frame]; rfl, fun d k => ?_⟩
    rw [counters, counter_count, List.countP_cons]
    by_cases here : d = r.channel
    · by_cases own : k = u.joinCounter
      · simp [here, own, risen_saturate]
      · simp [here, own, Ne.symm own]
    · simp [here]

/-- The units a record matched to a JOIN entry leaves to be counted are those left by its first join unit. -/
theorem dispatchUnits_join (s : State) (r : BurstRecord) :
    s.dispatchUnits r .join = (r.units.eraseP BurstUnit.isJoin).foldl (fun t u => t.dispatchUnit r .join u) s := rfl

/-- What the units of a record matched to a JOIN entry raise, by kind; every join unit counts but the first (R147). -/
theorem dispatchUnits_join_counter (s : State) (r : BurstRecord) (d : ChanNo) (k : ChannelCounter) :
    (s.dispatchUnits r .join).counter d k =
      if d = r.channel then
        risen (s.counter d k)
          (r.units.countP (fun u => u.joinCounter == k) - if k = .joinUnitDiscarded then 1 else 0)
      else s.counter d k := by
  have left : (r.units.eraseP BurstUnit.isJoin).countP (fun u => u.joinCounter == k) =
      r.units.countP (fun u => u.joinCounter == k) - if k = .joinUnitDiscarded then 1 else 0 := by
    obtain no | ⟨l, h, u, e, first⟩ := firstJoin_cases r.units
    · rw [(firstJoin_none no).2]
      split
      · next own =>
        have nobody : r.units.countP (fun u => u.joinCounter == k) = 0 := by
          rw [own, List.countP_eq_zero]
          intro u among
          cases u with
          | join h => exact absurd among (no h)
          | data | request | behind => simp [BurstUnit.joinCounter]
        rw [nobody]
      · rfl
    · rw [e, (firstJoin_some first).2, List.countP_append, List.countP_append, List.countP_cons, joinCounter_join]
      by_cases own : k = .joinUnitDiscarded
      · simp only [own, beq_self_eq_true, if_true]
        rfl
      · simp [own, Ne.symm own]
  rw [dispatchUnits_join, (dispatchJoin_counted r _ s).2, left]

end State

end Sys2Proof.Machine
end

section
/-! SUPPORT. What the judgement of a measurement leaves alone (R116, R117, R120): everything but the station it is of, its
queues, counters and notices, and, where the station enters ONLINE, the lists of its flows. -/

namespace Sys2Proof.Machine

namespace State

/-! ## A judgement that takes no station ONLINE -/

/-- Only station records, the queues of stations, counters and notices differ between `s` and `t`. -/
def AskFrame (s t : State) : Prop :=
  t = { s with
    stations := t.stations, pollQueues := t.pollQueues, adjustQueue := t.adjustQueue
    channelCounters := t.channelCounters, deviceCounters := t.deviceCounters, notices := t.notices }

namespace AskFrame

theorem trans {s t u : State} (h : s.AskFrame t) (k : t.AskFrame u) : s.AskFrame u := by
  unfold AskFrame at h k ⊢
  rw [k, h]

theorem pollEnqueue (s : State) (n : StationNo) : s.AskFrame (s.pollEnqueue n) := by
  rw [pollEnqueue_frame]
  rfl

theorem offerAdjust (s : State) (a : AdjustEntry) : s.AskFrame (s.offerAdjust a) := by
  obtain ⟨-, e⟩ | ⟨-, -, e⟩ | ⟨-, -, e⟩ := offerAdjust_cases s a <;> rw [e]
  · rfl
  · rfl
  · exact trans (t := (s.countDevice .adjustsDropped 1).raise _) rfl (pollEnqueue _ _)

theorem correct (s : State) (n : StationNo) (c : ChanNo) (m : Measurement) : s.AskFrame (s.correct n c m) := by
  unfold State.correct
  dsimp only
  refine ((offerAdjust s (s.correction n c m)).trans ?_).trans (pollEnqueue _ n)
  split <;> rfl

/-- A success that does not take its station ONLINE (R28, R117). -/
theorem success {s : State} {n : StationNo} (c : ChanNo) (b : Beat)
    (off : (s.station n).admitted = false) : s.AskFrame (s.success n c b) := by
  obtain ⟨u, good⟩ : ∃ u, u =
      (s.putStation n { s.station n with missCount := 0, lastGood := some b }).count c .alignSuccess 1 := ⟨_, rfl⟩
  have admitted : (u.station n).admitted = false := by simpa [good] using off
  have moved : u.AskFrame (u.successTransition n) := by
    unfold successTransition
    rw [admitted]
    split <;> rfl
  have judged : s.AskFrame (u.successTransition n) := trans (good ▸ rfl) moved
  unfold State.success
  dsimp only
  rw [← good]
  split
  · exact judged.trans (offerAdjust _ _)
  · exact judged

end AskFrame

/-! ## Any judgement -/

/-- What a judgement of station `n` keeps in every case. -/
structure JudgeKept (s t : State) (n : StationNo) : Prop where
  freeList : t.freeList = s.freeList
  identity : t.identity = s.identity
  engine : t.engine = s.engine
  newcomer : t.notice .newcomer = s.notice .newcomer
  others : ∀ m, m ≠ n → t.station m = s.station m
  list : (t.station n).flowList = (s.station n).flowList
  flows : ∀ g, g ∉ (s.station n).flowList → t.flow g = s.flow g
  anchors : ∀ g, (t.flow g).fillAnchor = (s.flow g).fillAnchor

namespace JudgeKept

theorem trans {s t u : State} {n : StationNo} (h : s.JudgeKept t n) (k : t.JudgeKept u n) : s.JudgeKept u n where
  freeList := k.freeList.trans h.freeList
  identity := k.identity.trans h.identity
  engine := k.engine.trans h.engine
  newcomer := k.newcomer.trans h.newcomer
  others m other := (k.others m other).trans (h.others m other)
  list := k.list.trans h.list
  flows g out := (k.flows g (by rw [h.list]; exact out)).trans (h.flows g out)
  anchors g := (k.anchors g).trans (h.anchors g)

/-- A judgement that takes no station ONLINE keeps flows and build; the station and the notice are left to say. -/
theorem of_askFrame {s t : State} {n : StationNo} (frame : s.AskFrame t)
    (newcomer : t.notice .newcomer = s.notice .newcomer) (others : ∀ m, m ≠ n → t.station m = s.station m)
    (list : (t.station n).flowList = (s.station n).flowList) : s.JudgeKept t n := by
  have flow (g : FlowNo) : t.flow g = s.flow g := by rw [frame]; rfl
  exact ⟨by rw [frame], by rw [frame], by rw [frame], newcomer, others, list, fun g _ => flow g,
    fun g => by rw [flow]⟩

theorem putStation (s : State) (n : StationNo) {x : Station} (list : x.flowList = (s.station n).flowList) :
    s.JudgeKept (s.putStation n x) n :=
  of_askFrame rfl rfl (fun _ other => station_putStation_ne s other x) (by rw [station_putStation_same, list])

theorem count (s : State) (n : StationNo) (c : ChanNo) (k : ChannelCounter) (j : Nat) :
    s.JudgeKept (s.count c k j) n := of_askFrame rfl rfl (fun _ _ => rfl) rfl

theorem pollEnqueue (s : State) (n : StationNo) : s.JudgeKept (s.pollEnqueue n) n := by
  refine of_askFrame (.pollEnqueue s n) ?_ (fun m other => ?_) ?_
  · rw [pollEnqueue_frame]
    rfl
  · rw [pollEnqueue_station, if_neg other]
  · rw [pollEnqueue_station, if_pos rfl]

theorem offerAdjust (s : State) (a : AdjustEntry) : s.JudgeKept (s.offerAdjust a) a.station := by
  obtain ⟨-, e⟩ | ⟨-, -, e⟩ | ⟨-, -, e⟩ := offerAdjust_cases s a <;> rw [e]
  · exact of_askFrame rfl rfl (fun _ _ => rfl) rfl
  · exact of_askFrame rfl rfl (fun _ _ => rfl) rfl
  · refine trans (t := (s.countDevice .adjustsDropped 1).raise _) ?_ (pollEnqueue _ _)
    exact of_askFrame rfl (notice_raise_ne _ (.adjustDrop _ _ _ _ _) nofun) (fun _ _ => rfl) rfl

theorem correct (s : State) (n : StationNo) (c : ChanNo) (m : Measurement) : s.JudgeKept (s.correct n c m) n := by
  have offered : s.JudgeKept (s.offerAdjust (s.correction n c m)) n := offerAdjust s _
  unfold State.correct
  dsimp only
  refine (offered.trans ?_).trans (pollEnqueue _ n)
  split
  · refine (putStation _ n (list := ?_)).trans (count _ n c .alignCorrected 1)
    rfl
  · exact of_askFrame rfl rfl (fun _ _ => rfl) rfl

/-- The entry of a flow keeps every FILL ANCHOR, and every other flow (R28). -/
theorem onlineFlow_flow (s : State) (n : StationNo) (c : ChanNo) (f g : FlowNo) :
    ((s.onlineFlow n c f).flow g).fillAnchor = (s.flow g).fillAnchor ∧
      (g ≠ f → (s.onlineFlow n c f).flow g = s.flow g) := by
  unfold onlineFlow
  split
  · obtain ⟨-, e⟩ | ⟨m, -, -, -, e⟩ := enlist_cases s f <;> rw [e]
    · exact ⟨rfl, fun _ => rfl⟩
    · rw [flow_putFlow]
      split
      · next same => exact ⟨by rw [same], fun other => absurd same other⟩
      · exact ⟨rfl, fun _ => rfl⟩
  · split
    · exact ⟨rfl, fun _ => rfl⟩
    · unfold joinCalendar
      split <;> exact ⟨rfl, fun _ => rfl⟩
  · exact ⟨rfl, fun _ => rfl⟩

/-- The entry of the flows of a list keeps every FILL ANCHOR, and every flow that is not of the list. -/
theorem onlineFlows_flow (n : StationNo) (c : ChanNo) (g : FlowNo) : ∀ (q : List FlowNo) (s : State),
    ((q.foldl (fun t f => t.onlineFlow n c f) s).flow g).fillAnchor = (s.flow g).fillAnchor ∧
      (g ∉ q → (q.foldl (fun t f => t.onlineFlow n c f) s).flow g = s.flow g)
  | [], _ => ⟨rfl, fun _ => rfl⟩
  | f :: q, s => by
    obtain ⟨anchor, stays⟩ := onlineFlow_flow s n c f g
    obtain ⟨anchors, stay⟩ := onlineFlows_flow n c g q (s.onlineFlow n c f)
    refine ⟨anchors.trans anchor, fun out => ?_⟩
    rw [List.mem_cons, not_or] at out
    exact (stay out.2).trans (stays out.1)

theorem enterOnline (s : State) (n : StationNo) : s.JudgeKept (s.enterOnline n) n := by
  have notice : (s.enterOnline n).notice .newcomer = s.notice .newcomer :=
    onlineFlows_notice n _ (by simp) _ _
  have flow (g : FlowNo) := onlineFlows_flow n (s.station n).channel g (s.station n).flowList
    (s.putStation n { s.station n with state := .online })
  have station (m : StationNo) := enterOnline_station s n m
  obtain ⟨sts, fs, as, cs, ks, ns, e⟩ := enterOnline_frame s n
  refine ⟨by rw [e], by rw [e], by rw [e], notice, fun m other => ?_, ?_, fun g => (flow g).2,
    fun g => (flow g).1⟩
  · rw [station, if_neg other]
  · rw [station, if_pos rfl]

theorem successTransition (s : State) (n : StationNo) : s.JudgeKept (s.successTransition n) n := by
  unfold State.successTransition
  split
  · split
    · exact (enterOnline s n).trans
        (of_askFrame rfl (notice_raise_ne _ (.stationOnline _ _) nofun) (fun _ _ => rfl) rfl)
    · exact putStation s n rfl
  · exact of_askFrame rfl rfl (fun _ _ => rfl) rfl

theorem success (s : State) (n : StationNo) (c : ChanNo) (b : Beat) : s.JudgeKept (s.success n c b) n := by
  have judged (x : Station) (list : x.flowList = (s.station n).flowList) :
      s.JudgeKept (((s.putStation n x).count c .alignSuccess 1).successTransition n) n :=
    ((putStation s n list).trans (count _ n c .alignSuccess 1)).trans (successTransition _ n)
  unfold State.success
  dsimp only
  split
  · exact (judged { s.station n with missCount := 0, lastGood := some b } rfl).trans (offerAdjust _ ⟨n, c, 0, 0, true⟩)
  · exact judged _ rfl

end JudgeKept

end State

end Sys2Proof.Machine
end

section
/-! SUPPORT. The measurement of a join: what the judgement of an ALIGNING station whose totals are 0 leaves (R115 to R117,
R120). -/

namespace Sys2Proof.Machine

/-- A clamp about 0 sends nothing else to 0. -/
theorem clampInt_eq_zero {x lo hi : Int} (below : lo < 0) (above : 0 < hi) (zero : clampInt x lo hi = 0) : x = 0 := by
  unfold clampInt at zero
  split at zero
  · omega
  · split at zero <;> omega

/-- How a measurement `m` under the parameters `p` is judged where the totals are 0 (R116): whether it is within both
tolerances, and the totals it proposes. MAX POWER STEP is at least 1 (R3). -/
structure Judgement (p : Params) (m : Measurement) (fine : Prop) (timing power : Int) : Prop where
  step : 1 ≤ p.maxPowerStep
  fine_iff : fine ↔ m.timing.natAbs ≤ p.timingTolerance ∧ m.power.natAbs ≤ p.powerTolerance
  timing_eq : timing = if m.timing.natAbs ≤ p.timingTolerance then 0 else clampInt (-m.timing) (-65535) 65535
  power_eq : power =
    if m.power.natAbs ≤ p.powerTolerance then 0
    else clampInt (clampInt (-m.power) (-(p.maxPowerStep : Int)) p.maxPowerStep) (-96) 96

namespace Judgement

variable {p : Params} {m : Measurement} {fine : Prop} {timing power : Int}

theorem proposes (j : Judgement p m fine timing power) :
    proposedTiming p 0 m = timing ∧ proposedPower p 0 m = power := by
  rw [proposedTiming_eq, proposedPower_eq, j.timing_eq, j.power_eq, Int.zero_sub, Int.zero_add]
  exact ⟨rfl, rfl⟩

/-- An error outside a tolerance, of totals that are 0, can always be corrected in part (R116, R117). -/
theorem moves (j : Judgement p m fine timing power) (poor : ¬ fine) : ¬ (timing = 0 ∧ power = 0) := by
  rintro ⟨still, still'⟩
  have step : 0 < (p.maxPowerStep : Int) := by exact_mod_cast j.step
  refine poor (j.fine_iff.2 ⟨?_, ?_⟩)
  · by_contra out
    rw [j.timing_eq, if_neg out] at still
    have := clampInt_eq_zero (by decide) (by decide) still
    omega
  · by_contra out
    rw [j.power_eq, if_neg out] at still'
    have := clampInt_eq_zero (by omega) step (clampInt_eq_zero (by decide) (by decide) still')
    omega

end Judgement

namespace State

/-- Station `n` begins its alignment on channel `c` (R25, R26). -/
structure Begins (s : State) (n : StationNo) (c : ChanNo) : Prop where
  state : (s.station n).state = .aligning
  on : (s.station n).channel = c
  misses : (s.station n).missCount = 0
  good : (s.station n).lastGood = none
  timing : (s.station n).timingTotal = 0
  power : (s.station n).powerTotal = 0

/-- What the judgement of a measurement from beat `b`, of a station that begins its alignment, leaves in `t` (R117). -/
structure Judged (s t : State) (n : StationNo) (c : ChanNo) (b : Beat) (m : Measurement) (fine : Prop)
    (timing power : Int) : Prop where
  kept : s.JudgeKept t n
  aside : ¬ (fine ∧ (s.station n).admitted = true) → s.AskFrame t
  record : ∃ state good total total' asked, t.station n =
    { s.station n with
      lastMeasurement := some m, missCount := 0, state := state, lastGood := good, timingTotal := total
      powerTotal := total', inPollQueue := asked }
  success : fine →
    (t.station n).state = (if (s.station n).admitted then .online else .parked) ∧
    (t.station n).lastGood = some b ∧ (t.station n).timingTotal = 0 ∧ (t.station n).powerTotal = 0 ∧
    t.counter c .alignSuccess = saturate (s.counter c .alignSuccess) 1 ∧
    t.adjustQueue =
      s.OfferedQueue { station := n, channel := c, timingStep := 0, powerStep := 0, aligned := true }
  correction : ¬ fine →
    (t.station n).state = .aligning ∧ (t.station n).lastGood = none ∧
    ((s.pollQueue c).length < 256 → (t.station n).inPollQueue = true) ∧
    t.adjustQueue =
      s.OfferedQueue { station := n, channel := c, timingStep := timing, powerStep := power, aligned := false }
  taken : ¬ fine → (∃ x ∈ s.adjustQueue, x.station = n) ∨ s.adjustQueue.length < 64 →
    (t.station n).timingTotal = timing ∧ (t.station n).powerTotal = power ∧
    t.counter c .alignCorrected = saturate (s.counter c .alignCorrected) 1
  dropped : ¬ fine → (∀ x ∈ s.adjustQueue, x.station ≠ n) → 64 ≤ s.adjustQueue.length →
    (t.station n).timingTotal = 0 ∧ (t.station n).powerTotal = 0 ∧ s.Raised t (.adjustDrop n c timing power false)

section Judging

variable {s : State} {n : StationNo} {c : ChanNo} {m : Measurement} {fine : Prop} {timing power : Int}

/-- The measurement of a station that begins its alignment is judged in the state that holds it (R115). -/
theorem pollMeasurement_begins (begins : s.Begins n c) (b : Beat) (m : Measurement) :
    s.pollMeasurement n c b m = (s.putMeasurement n m).judge n c b m :=
  pollMeasurement_reaches ⟨.inl begins.state, begins.on⟩ b m

theorem judgeKept_putMeasurement (s : State) (n : StationNo) (m : Measurement) :
    s.JudgeKept (s.putMeasurement n m) n := .putStation s n rfl

/-- A measurement within both tolerances is a success (R117). -/
theorem judged_success (begins : s.Begins n c) (j : Judgement (s.params c) m fine timing power) (ok : fine) (b : Beat) :
    s.Judged (s.pollMeasurement n c b m) n c b m fine timing power := by
  have within : ((s.putMeasurement n m).params c).within m = true := (Params.within_iff _ m).2 (j.fine_iff.1 ok)
  have judged : s.pollMeasurement n c b m = (s.putMeasurement n m).success n c b :=
    (pollMeasurement_begins begins b m).trans (if_pos within)
  obtain ⟨⟨asked, station⟩, counted, adjusted⟩ := success_leaves (s.putMeasurement n m) n c b
  rw [putMeasurement_station, begins.state] at station adjusted
  rw [judged]
  refine ⟨(judgeKept_putMeasurement s n m).trans (.success _ n c b), fun off => ?_, ⟨_, _, _, _, _, station⟩, fun _ => ?_,
    fun no => absurd ok no, fun no => absurd ok no, fun no => absurd ok no⟩
  · have unadmitted : ((s.putMeasurement n m).station n).admitted = false := by
      rw [putMeasurement_station]
      simpa [ok] using off
    exact AskFrame.trans (t := s.putMeasurement n m) rfl (.success c b unadmitted)
  · rw [station]
    exact ⟨rfl, rfl, begins.timing, begins.power, counted, adjusted⟩

/-- A measurement outside a tolerance is corrected, its adjustment taken or dropped (R117, R120). -/
theorem judged_correct (begins : s.Begins n c) (j : Judgement (s.params c) m fine timing power) (poor : ¬ fine)
    (b : Beat) : s.Judged (s.pollMeasurement n c b m) n c b m fine timing power := by
  have record : (s.putMeasurement n m).station n = { s.station n with lastMeasurement := some m } :=
    putMeasurement_station s n m
  have timed : proposedTiming ((s.putMeasurement n m).params c) ((s.putMeasurement n m).station n).timingTotal m =
      timing := by rw [record, begins.timing]; exact j.proposes.1
  have powered : proposedPower ((s.putMeasurement n m).params c) ((s.putMeasurement n m).station n).powerTotal m =
      power := by rw [record, begins.power]; exact j.proposes.2
  have steps : (s.putMeasurement n m).correction n c m =
      { station := n, channel := c, timingStep := timing, powerStep := power, aligned := false } := by
    rw [correction_eq, timed, powered, record, begins.timing, begins.power, Int.sub_zero, Int.sub_zero]
  have out : ¬ ((s.putMeasurement n m).params c).within m = true :=
    mt (Params.within_iff _ m).1 (mt j.fine_iff.2 poor)
  have moves : ¬ (((s.putMeasurement n m).correction n c m).timingStep = 0 ∧
      ((s.putMeasurement n m).correction n c m).powerStep = 0) := by rw [steps]; exact j.moves poor
  have judged : s.pollMeasurement n c b m = (s.putMeasurement n m).correct n c m :=
    (pollMeasurement_begins begins b m).trans ((if_neg out).trans (if_neg moves))
  obtain ⟨adjusted, station, counted, dropped⟩ := correct_leaves (s.putMeasurement n m) (n := n) (c := c)
    (by rw [record]; exact begins.on) m
  have taken := (s.putMeasurement n m).adjustTaken_iff ((s.putMeasurement n m).correction n c m)
  rw [timed, powered, record] at station
  simp only [steps, begins.misses] at adjusted station counted dropped taken
  rw [judged]
  refine ⟨(judgeKept_putMeasurement s n m).trans (.correct _ n c m),
    fun _ => AskFrame.trans (t := s.putMeasurement n m) rfl (.correct _ n c m), ⟨_, _, _, _, _, station⟩,
    fun ok => absurd ok poor, fun _ => ?_, fun _ room => ?_, fun _ absent full => ?_⟩
  · rw [station]
    refine ⟨begins.state, begins.good, fun room => ?_, adjusted⟩
    have room : ((s.putMeasurement n m).pollQueue c).length < 256 := room
    simp [room]
  · rw [if_pos (taken.2 room)] at counted
    rw [station, counted]
    simp only [taken.2 room, if_true, true_and]
    rfl
  · have no := Bool.eq_false_iff.2 fun yes =>
      (taken.1 yes).elim (fun ⟨x, among, same⟩ => absent x among same) (Nat.not_lt.2 full)
    rw [station]
    simp only [no, Bool.false_eq_true, if_false, begins.timing, begins.power, true_and]
    exact raised_agree (dropped no) rfl rfl

/-- A measurement of a station that begins its alignment is a success or is corrected: it is never unfixable. -/
theorem judged_pollMeasurement (begins : s.Begins n c) (j : Judgement (s.params c) m fine timing power) (b : Beat) :
    s.Judged (s.pollMeasurement n c b m) n c b m fine timing power := by
  by_cases ok : fine
  · exact judged_success begins j ok b
  · exact judged_correct begins j ok b

end Judging

end State

end Sys2Proof.Machine
end

section
/-! SUPPORT. The join handoff: what it leaves of a known station and of a newcomer before the measurement is judged (R25 to
R27), and what it keeps in every case. -/

namespace Sys2Proof.Machine

namespace State

/-! ## A known station (R25, R27) -/

/-- A station's leaving ONLINE writes flows, active lists, calendars and the engine, and nothing else. -/
theorem listFrame_leaveOnline (s : State) (n : StationNo) : s.ListFrame (s.leaveOnline n) := by
  obtain ⟨fs, as, cs, e, left⟩ := (listFrame_takenOffline s n).parts
  have same : s.leaveOnline n = { s.takenOffline n with engine := (s.leaveOnline n).engine } := rfl
  rw [ListFrame, same, left]

theorem leaveOnline_flow (s : State) (n : StationNo) (g : FlowNo) :
    (s.leaveOnline n).flow g = if g ∈ (s.station n).flowList then s.flowOff n g else s.flow g :=
  takenOffline_flow s n g

theorem leavesOnline_leaveOnline (s : State) (n : StationNo) : s.LeavesOnline (s.leaveOnline n) n :=
  leavesOnline_takenOffline s n

/-- A flow keeps its FILL ANCHOR as its station leaves ONLINE. -/
theorem flowOff_fillAnchor (s : State) (n : StationNo) (g : FlowNo) :
    (s.flowOff n g).fillAnchor = (s.flow g).fillAnchor := by
  unfold flowOff
  split <;> rfl

/-- Station `n` of `s` has begun its alignment on channel `c` by a join, in `t` (R25). -/
structure Rejoined (s t : State) (n : StationNo) (c : ChanNo) : Prop where
  frame : t = { s with
    stations := t.stations, flows := t.flows, activeLists := t.activeLists, calendars := t.calendars
    engine := t.engine, pollQueues := t.pollQueues, adjustQueue := t.adjustQueue }
  others : ∀ m, m ≠ n → t.station m = s.station m
  record : t.station n =
    { s.station n with
      state := .aligning, channel := c, missCount := 0, lastGood := none, lastMeasurement := none
      timingTotal := 0, powerTotal := 0, inPollQueue := (t.station n).inPollQueue }
  flow : ∀ g, t.flow g =
    if g ∈ (s.station n).flowList then
      { s.flowOff n g with fillAnchor := if (s.station n).channel = c then (s.flow g).fillAnchor else none }
    else s.flow g
  adjust : t.adjustQueue = s.adjustQueue.filter (fun a => decide (a.station ≠ n))
  polls : t.pollQueue c = s.pollQueue c
  leaves : s.LeavesOnline t n
  place : PlaceKept s.engine t.engine

/-- FILL ANCHOR made absent (R25). -/
def unanchored (x : Flow) : Flow := { x with fillAnchor := none }

/-- The first steps of a join handoff of a known station: it leaves ONLINE, and its adjust entry is removed. A station that
comes to another channel leaves its poll queue, and FILL ANCHOR of its flows becomes absent (R25, R27). -/
def detached (s : State) (n : StationNo) (c : ChanNo) : State :=
  if (s.station n).channel = c then (s.leaveOnline n).adjustRemove n
  else (((s.leaveOnline n).adjustRemove n).pollRemove n).mapFlows (s.station n).flowList unanchored

theorem rejoin_eq (s : State) (n : StationNo) (c : ChanNo) :
    s.rejoin n c =
      (s.detached n c).putStation n
        { (s.detached n c).station n with
          state := .aligning, channel := c, missCount := 0, lastGood := none, lastMeasurement := none
          timingTotal := 0, powerTotal := 0 } := rfl

/-- The first steps write the station's record in IN POLL QUEUE alone, no queue of the channel it comes to, and of its flows
what their leaving and the other channel change. -/
theorem detached_leaves (s : State) (n : StationNo) (c : ChanNo) :
    (∃ sts fs qs, s.detached n c =
      { (s.leaveOnline n).adjustRemove n with stations := sts, flows := fs, pollQueues := qs }) ∧
    (∀ m, ∃ asked, (s.detached n c).station m = { s.station m with inPollQueue := asked }) ∧
    (∀ m, m ≠ n → (s.detached n c).station m = s.station m) ∧
    (s.detached n c).pollQueue c = s.pollQueue c ∧
    ∀ g, (s.detached n c).flow g =
      if g ∈ (s.station n).flowList then
        { s.flowOff n g with fillAnchor := if (s.station n).channel = c then (s.flow g).fillAnchor else none }
      else s.flow g := by
  obtain ⟨v, hv⟩ : ∃ v, v = (s.leaveOnline n).adjustRemove n := ⟨_, rfl⟩
  have flow (g : FlowNo) : v.flow g = if g ∈ (s.station n).flowList then s.flowOff n g else s.flow g :=
    hv ▸ leaveOnline_flow s n g
  have left := listFrame_leaveOnline s n
  have station (m : StationNo) : v.station m = s.station m := by rw [hv, left]; rfl
  have polls (d : ChanNo) : v.pollQueue d = s.pollQueue d := by rw [hv, left]; rfl
  unfold detached
  rw [← hv]
  split
  · refine ⟨⟨_, _, _, rfl⟩, fun m => ⟨_, station m⟩, fun m _ => station m, polls c, fun g => ?_⟩
    rw [flow, ← flowOff_fillAnchor s n g]
  · next moves =>
    have changed := mapFlows_frame unanchored (s.station n).flowList (v.pollRemove n)
    have flows (g : FlowNo) := mapFlows_flow (g := unanchored) (fun _ => rfl) g (s.station n).flowList (v.pollRemove n)
    generalize (v.pollRemove n).mapFlows (s.station n).flowList unanchored = x at *
    have removed (m : StationNo) : x.station m =
        if m = n then { s.station n with inPollQueue := false } else s.station m := by
      rw [changed, ← station, ← station]
      exact pollRemove_station v n m
    refine ⟨⟨_, _, _, changed⟩, fun m => ?_, fun m other => by rw [removed, if_neg other], ?_, fun g => ?_⟩
    · rw [removed]
      split
      · next same => exact ⟨_, by rw [same]⟩
      · exact ⟨_, rfl⟩
    · rw [changed, ← polls]
      refine pollQueue_putPollQueue_ne v ?_ _
      rw [station]
      exact Ne.symm moves
    · have kept : (v.pollRemove n).flow g = v.flow g := rfl
      rw [flows, kept, flow]
      split <;> rfl

/-- The steps of a join handoff of a known station (R25, R27). -/
theorem rejoined_rejoin (s : State) (n : StationNo) (c : ChanNo) : s.Rejoined (s.rejoin n c) n c := by
  obtain ⟨⟨sts, fs, qs, frame⟩, record, others, polls, flow⟩ := detached_leaves s n c
  obtain ⟨asked, record⟩ := record n
  have left := listFrame_leaveOnline s n
  have lists := leavesOnline_leaveOnline s n
  have place := placeKept_leaveOnline s n
  rw [rejoin_eq]
  generalize s.detached n c = x at *
  refine ⟨?_, fun m other => (station_putStation_ne x other _).trans (others m other), ?_, flow, ?_, polls,
    leavesOnline_congr lists ?_ ?_, ?_⟩
  · rw [frame, left]
    rfl
  · rw [station_putStation_same, record]
  · rw [frame, left]
    simp [adjustRemove, bne, Bool.beq_eq_decide_eq]
  · rw [frame]
    rfl
  · rw [frame]
    rfl
  · rw [frame]
    exact place

theorem begins_rejoined {s t : State} {n : StationNo} {c : ChanNo} (h : s.Rejoined t n c) : t.Begins n c := by
  constructor <;> rw [h.record]

/-! ## A newcomer (R26) -/

theorem newcomer_station (s : State) (n m : StationNo) (h : HwId) (c : ChanNo) :
    (s.newcomer n h c).station m = if m = n then newcomerRecord h c else s.station m :=
  station_putStation (s.putFreeList s.freeList.tail) n m (newcomerRecord h c)

theorem begins_newcomer (s : State) (n : StationNo) (h : HwId) (c : ChanNo) : (s.newcomer n h c).Begins n c := by
  constructor <;> rw [newcomer_station, if_pos rfl] <;> rfl

/-! ## The outcomes of a JOIN entry (R105, R106, R146) -/

theorem settleJoin_failed {s : State} {r : BurstRecord} (failed : r.outcome = .collided ∨ r.outcome = .damaged) :
    s.settleJoin r = s.count r.channel .joinCollided 1 := by
  unfold settleJoin
  rcases failed with h | h <;> rw [h]

theorem settleJoin_empty {s : State} {r : BurstRecord} (empty : r.outcome = .empty) :
    s.settleJoin r = s.count r.channel .joinEmpty 1 := by
  unfold settleJoin
  rw [empty]

/-- A decoded record without a join unit counts as an empty opening. -/
theorem settleJoin_joinless {s : State} {r : BurstRecord} (clean : r.outcome = .clean ∨ r.outcome = .repaired)
    (none' : ∀ h, .join h ∉ r.units) : s.settleJoin r = s.count r.channel .joinEmpty 1 := by
  unfold settleJoin
  rw [(firstJoin_none none').1]
  rcases clean with h | h <;> rw [h]

/-- A decoded record with a join unit hands off the first. -/
theorem settleJoin_handsOff {s : State} {r : BurstRecord} {l u : List BurstUnit} {h : HwId}
    (clean : r.outcome = .clean ∨ r.outcome = .repaired) (units : r.units = l ++ .join h :: u)
    (first : ∀ g, .join g ∉ l) :
    s.settleJoin r = (s.joinHandoff h r.channel r.start r.measurement).count r.channel .joinTaken 1 := by
  unfold settleJoin
  rw [units, (firstJoin_some first).1]
  rcases clean with h | h <;> rw [h]

theorem settleJoin_cases (s : State) (r : BurstRecord) :
    ((r.outcome = .collided ∨ r.outcome = .damaged) ∧ s.settleJoin r = s.count r.channel .joinCollided 1) ∨
    (r.outcome = .empty ∧ s.settleJoin r = s.count r.channel .joinEmpty 1) ∨
    ((r.outcome = .clean ∨ r.outcome = .repaired) ∧ (∀ h, .join h ∉ r.units) ∧
      s.settleJoin r = s.count r.channel .joinEmpty 1) ∨
    ((r.outcome = .clean ∨ r.outcome = .repaired) ∧ ∃ l h u, r.units = l ++ .join h :: u ∧ (∀ g, .join g ∉ l) ∧
      s.settleJoin r = (s.joinHandoff h r.channel r.start r.measurement).count r.channel .joinTaken 1) := by
  have decoded (clean : r.outcome = .clean ∨ r.outcome = .repaired) :
      (∀ h, .join h ∉ r.units) ∧ s.settleJoin r = s.count r.channel .joinEmpty 1 ∨
      ∃ l h u, r.units = l ++ .join h :: u ∧ (∀ g, .join g ∉ l) ∧
        s.settleJoin r = (s.joinHandoff h r.channel r.start r.measurement).count r.channel .joinTaken 1 := by
    obtain no | ⟨l, h, u, units, first⟩ := firstJoin_cases r.units
    · exact .inl ⟨no, settleJoin_joinless clean no⟩
    · exact .inr ⟨l, h, u, units, first, settleJoin_handsOff clean units first⟩
  cases outcome : r.outcome with
  | collided => exact .inl ⟨.inl rfl, settleJoin_failed (.inl outcome)⟩
  | damaged => exact .inl ⟨.inr rfl, settleJoin_failed (.inr outcome)⟩
  | empty => exact .inr (.inl ⟨rfl, settleJoin_empty outcome⟩)
  | clean => exact .inr (.inr ((decoded (.inl outcome)).imp (⟨.inl rfl, ·⟩) (⟨.inl rfl, ·⟩)))
  | repaired => exact .inr (.inr ((decoded (.inr outcome)).imp (⟨.inr rfl, ·⟩) (⟨.inr rfl, ·⟩)))

/-! ## What every join handoff keeps -/

/-- The counters that the Alignment Unit raises (R110, R117, R118), and the calendar's (R86). -/
def alignmentCounters : List ChannelCounter :=
  [.calendarFull, .pollQueueFull, .alignSuccess, .alignCorrected, .alignLimited, .misses, .stationsLost]

theorem success_counter (s : State) (n : StationNo) (c : ChanNo) (b : Beat) (d : ChanNo) {k : ChannelCounter}
    (other : k ∉ alignmentCounters) : (s.success n c b).counter d k = s.counter d k := by
  simp only [alignmentCounters, List.mem_cons, List.not_mem_nil, or_false, not_or] at other
  obtain ⟨calendar, polls, good, -⟩ := other
  unfold success
  dsimp only
  split
  · rw [offerAdjust_counter _ _ _ polls, successTransition_counter _ _ _ calendar, counter_count,
      if_neg (fun x => good x.2)]
    rfl
  · rw [successTransition_counter _ _ _ calendar, counter_count, if_neg (fun x => good x.2)]
    rfl

theorem correct_counter (s : State) (n : StationNo) (c : ChanNo) (m : Measurement) (d : ChanNo) {k : ChannelCounter}
    (other : k ∉ alignmentCounters) : (s.correct n c m).counter d k = s.counter d k := by
  simp only [alignmentCounters, List.mem_cons, List.not_mem_nil, or_false, not_or] at other
  obtain ⟨-, polls, -, corrected, -⟩ := other
  unfold correct
  dsimp only
  rw [pollEnqueue_counter, if_neg (fun x => polls x.1.2)]
  split
  · rw [counter_count, if_neg (fun x => corrected x.2), putStation_counter, offerAdjust_counter _ _ _ polls]
  · exact offerAdjust_counter _ _ _ polls

/-- A measurement handed to the Alignment Unit raises no counter but its own. -/
theorem pollMeasurement_counter (s : State) (n : StationNo) (c : ChanNo) (b : Beat) (m : Measurement) (d : ChanNo)
    {k : ChannelCounter} (other : k ∉ alignmentCounters) :
    (s.pollMeasurement n c b m).counter d k = s.counter d k := by
  have limited : k ≠ .alignLimited := by rintro rfl; simp [alignmentCounters] at other
  have lost : k ∉ [ChannelCounter.misses, .stationsLost, .pollQueueFull] := fun own => other (by
    simp only [List.mem_cons, List.not_mem_nil, or_false] at own
    rcases own with rfl | rfl | rfl <;> simp [alignmentCounters])
  unfold pollMeasurement judge
  split
  · split
    · exact success_counter _ n c b d other
    · split
      · rw [missAdmitted_counter _ _ _ _ lost, counter_count, if_neg (fun x => limited x.2)]
        rfl
      · exact correct_counter _ n c m d other
  · rfl

theorem rejoin_counter (s : State) (n : StationNo) (c d : ChanNo) (k : ChannelCounter) :
    (s.rejoin n c).counter d k = s.counter d k := by rw [(rejoined_rejoin s n c).frame]; rfl

theorem joinHandoff_counter (s : State) (h : HwId) (c : ChanNo) (b : Beat) (m : Option Measurement) (d : ChanNo)
    {k : ChannelCounter} (other : k ∉ alignmentCounters) :
    (s.joinHandoff h c b m).counter d k = s.counter d k := by
  unfold joinHandoff
  split
  · split
    · exact (pollMeasurement_counter _ _ c b _ d other).trans (rejoin_counter s _ c d k)
    · exact rejoin_counter s _ c d k
  · split
    · rfl
    · split
      · exact pollMeasurement_counter _ _ c b _ d other
      · rfl

namespace StopKept

theorem levelEnded {s t : State} (h : s.StopKept t) : s.StopKept (s.levelEnded t) :=
  ⟨h.channels, h.planStores, h.expectQueues, h.noticeEnable, h.notice⟩

theorem rejoin (s : State) (n : StationNo) (c : ChanNo) : s.StopKept (s.rejoin n c) := by
  rw [(rejoined_rejoin s n c).frame]
  exact ⟨rfl, rfl, rfl, rfl, rfl⟩

theorem newcomer (s : State) (n : StationNo) (h : HwId) (c : ChanNo) : s.StopKept (s.newcomer n h c) :=
  trans (t := ((s.putFreeList s.freeList.tail).putStation n (newcomerRecord h c)).putIdentity
    (s.identity ++ [(h, n)])) ⟨rfl, rfl, rfl, rfl, rfl⟩ (raise _ (.newcomer n h c) nofun)

theorem joinHandoff (s : State) (h : HwId) (c : ChanNo) (b : Beat) (m : Option Measurement) :
    s.StopKept (s.joinHandoff h c b m) := by
  unfold State.joinHandoff
  split
  · split
    · exact ((rejoin s _ c).trans (pollMeasurement _ _ c b _)).levelEnded
    · exact (rejoin s _ c).levelEnded
  · split
    · exact raise s (.stationTableFull h c) nofun
    · split
      · exact (newcomer s _ h c).trans (pollMeasurement _ _ c b _)
      · exact newcomer s _ h c

theorem settleJoin (s : State) (r : BurstRecord) : s.StopKept (s.settleJoin r) := by
  obtain ⟨-, e⟩ | ⟨-, e⟩ | ⟨-, -, e⟩ | ⟨-, l, h, u, -, -, e⟩ := settleJoin_cases s r <;> rw [e]
  · exact count s _ _ _
  · exact count s _ _ _
  · exact count s _ _ _
  · exact (joinHandoff s h r.channel r.start r.measurement).trans (count _ _ _ _)

end StopKept

end State

end Sys2Proof.Machine
end

section
/-! SUPPORT. A record matched to a JOIN entry: what its units and the test of R13 leave of the settled state, and the
statement on it (R105, R106, R146, R147). -/

namespace Sys2Proof.Machine

namespace State

/-! ## The record behind its settling -/

theorem misplaces_join (r : BurstRecord) {e : ExpectEntry} (join : e.grant = .join) : misplaces r e = false := by
  simp [misplaces, join, Grant.station]

/-- The counters that the units of a record matched to a JOIN entry raise (R147). -/
def unitCounters : List ChannelCounter := [.unitsDiscarded, .behindIgnored, .joinUnitDiscarded]

/-- `t` is the state `u` after the units of its record are dispatched and the stopping conditions are tested: channels,
counters and notices are written, of the counters those of units, of the notices that of a stop. -/
structure Dispatched (u t : State) : Prop where
  frame : t = { u with channels := t.channels, channelCounters := t.channelCounters, notices := t.notices }
  counter : ∀ d k, k ∉ unitCounters → t.counter d k = u.counter d k
  notice : ∀ k, k ≠ .channelStopped → t.notice k = u.notice k

namespace Dispatched

variable {u t : State}

theorem station (h : u.Dispatched t) (n : StationNo) : t.station n = u.station n := by rw [h.frame]; rfl

theorem flow (h : u.Dispatched t) (g : FlowNo) : t.flow g = u.flow g := by rw [h.frame]; rfl

/-- An occurrence raised in `u` stands raised in `t`. -/
theorem raised {s : State} (h : u.Dispatched t) {d : NoticeDetail} (other : d.kind ≠ .channelStopped)
    (raised : s.Raised u d) : s.Raised t d := by
  rw [Raised, h.notice _ other]
  exact raised

end Dispatched

/-- The settled state of a decoded record, dispatched and tested. -/
theorem dispatched_join (u : State) (r : BurstRecord) (c : ChanNo) :
    u.Dispatched ((u.dispatchUnits r .join).testStop c) := by
  obtain ⟨frame, notices⟩ := testStop_frame (u.dispatchUnits r .join) c
  have counted : u.dispatchUnits r .join =
      { u with channelCounters := (u.dispatchUnits r .join).channelCounters } := (dispatchJoin_counted r _ u).1
  refine ⟨?_, fun d k other => ?_, fun k other => ?_⟩
  · rw [frame, counted]
  · have absent : ∀ u ∈ r.units, ¬ (u.joinCounter == k) = true := by
      rintro u - same
      refine other (eq_of_beq same ▸ ?_)
      cases u <;> simp [BurstUnit.joinCounter, unitCounters]
    rw [testStop_counter, dispatchUnits_join_counter, List.countP_eq_zero.2 absent]
    simp [risen]
  · rw [notices k other, counted]
    rfl

theorem matchedRecord_join {s : State} {r : BurstRecord} {e : ExpectEntry} (join : e.grant = .join) :
    s.matchedRecord r e =
      if r.outcome.decoded then ((s.removeEntry r.channel e).settleJoin r).dispatchUnits r .join
      else (s.removeEntry r.channel e).settleJoin r := by
  simp only [matchedRecord, join, settleEntry]

theorem stopKept_matchedJoin {s : State} {r : BurstRecord} {e : ExpectEntry} (join : e.grant = .join) :
    (s.removeEntry r.channel e).StopKept (s.matchedRecord r e) := by
  have settled := StopKept.settleJoin (s.removeEntry r.channel e) r
  rw [matchedRecord_join join]
  split
  · exact settled.trans (StopKept.dispatchUnits _ r _)
  · exact settled

/-- The counters of units are not raised before the units are dispatched. -/
theorem settleJoin_counter (s : State) (r : BurstRecord) (d : ChanNo) {k : ChannelCounter}
    (own : k = .unitsDiscarded ∨ k = .behindIgnored ∨ k = .joinUnitDiscarded) :
    (s.settleJoin r).counter d k = s.counter d k := by
  have aside : k ∉ alignmentCounters ∧ k ≠ .joinTaken ∧ k ≠ .joinEmpty ∧ k ≠ .joinCollided := by
    rcases own with rfl | rfl | rfl <;> simp [alignmentCounters]
  obtain ⟨alignment, taken, empty, collided⟩ := aside
  have one (c : ChanNo) {j : ChannelCounter} (other : k ≠ j) (s : State) : (s.count c j 1).counter d k = s.counter d k := by
    rw [counter_count, if_neg (fun x => other x.2)]
  obtain ⟨-, e⟩ | ⟨-, e⟩ | ⟨-, -, e⟩ | ⟨-, l, h, v, -, -, e⟩ := settleJoin_cases s r <;> rw [e]
  · exact one _ collided s
  · exact one _ empty s
  · exact one _ empty s
  · rw [one _ taken, joinHandoff_counter _ _ _ _ _ _ alignment]

/-- The units of a decoded record, counted by kind from what they found (R147). -/
theorem dispatched_counter (s : State) (r : BurstRecord) (c : ChanNo) {k : ChannelCounter}
    (own : k = .unitsDiscarded ∨ k = .behindIgnored ∨ k = .joinUnitDiscarded) :
    (((s.settleJoin r).dispatchUnits r .join).testStop c).counter r.channel k =
      risen (s.counter r.channel k)
        (r.units.countP (fun u => u.joinCounter == k) - if k = .joinUnitDiscarded then 1 else 0) := by
  rw [testStop_counter, dispatchUnits_join_counter, if_pos rfl, settleJoin_counter s r r.channel own]

/-- A joinless record counted empty counts nothing but its data units, its request units and its behind flags. -/
theorem dispatchUnits_joinless_counter {s : State} {r : BurstRecord} (no : ∀ h, .join h ∉ r.units) {d : ChanNo}
    {k : ChannelCounter}
    (other : d ≠ r.channel ∨ (k ≠ .joinEmpty ∧ k ≠ .unitsDiscarded ∧ k ≠ .behindIgnored)) :
    ((s.count r.channel .joinEmpty 1).dispatchUnits r .join).counter d k = s.counter d k := by
  rw [dispatchUnits_join_counter, counter_count]
  by_cases here : d = r.channel
  · obtain ⟨empty, unit, behind⟩ := other.resolve_left (not_not.2 here)
    have absent : ∀ u ∈ r.units, ¬ (u.joinCounter == k) = true := by
      intro u among same
      cases u with
      | join h => exact no h among
      | data | request => exact unit (eq_of_beq same).symm
      | behind => exact behind (eq_of_beq same).symm
    rw [List.countP_eq_zero.2 absent, if_pos here, if_neg (fun x => empty x.2)]
    simp [risen]
  · rw [if_neg here, if_neg (fun x => here x.1)]

/-- What an adjustment of a station that has no entry leaves of the adjust queue (R120). -/
theorem offeredQueue_absent {s : State} {a : AdjustEntry} (absent : ∀ x ∈ s.adjustQueue, x.station ≠ a.station) :
    s.OfferedQueue a = if s.adjustQueue.length < 64 then s.adjustQueue ++ [a] else s.adjustQueue := by
  have none' : s.adjustQueue.any (fun e => e.station == a.station) = false := by simpa using absent
  rw [OfferedQueue, none', if_neg Bool.false_ne_true]

/-! ## The join of a known station (R25, R27, R28)

The handoff takes `s` to `w`, the judgement of the measurement takes `w` to `v`, and `t` is left once the units are dispatched
and the stopping conditions are tested. -/

section Joined

variable {s w v t : State} {n : StationNo} {c : ChanNo} {b : Beat} {m : Measurement} {fine : Prop} {timing power : Int}

theorem Rejoined.admitted (h : s.Rejoined w n c) : (w.station n).admitted = (s.station n).admitted := by rw [h.record]

theorem Rejoined.list (h : s.Rejoined w n c) : (w.station n).flowList = (s.station n).flowList := by rw [h.record]

/-- No entry of the station waits for a frame (R25, R121). -/
theorem Rejoined.absent (h : s.Rejoined w n c) : ∀ x ∈ w.adjustQueue, x.station ≠ n := by
  rw [h.adjust]
  intro x among
  simpa using (List.mem_filter.1 among).2

variable (rejoined : s.Rejoined w n c) (judged : w.Judged v n c b m fine timing power)
  (dispatched : ((s.levelEnded v).count c .joinTaken 1).Dispatched t)

include dispatched in
theorem joined_station (x : StationNo) : t.station x = v.station x := dispatched.station x

include dispatched in
theorem joined_flow (g : FlowNo) : t.flow g = v.flow g := dispatched.flow g

include rejoined judged dispatched

/-- The identity map and the free list stay, every other station stays, and so does every flow of another station. -/
theorem joined_keeps : t.identity = s.identity ∧ t.freeList = s.freeList ∧
    (∀ x, x ≠ n → t.station x = s.station x) ∧ ∀ g, g ∉ (s.station n).flowList → t.flow g = s.flow g := by
  refine ⟨?_, ?_, fun x other => ?_, fun g out => ?_⟩
  · rw [dispatched.frame]
    exact judged.kept.identity.trans (by rw [rejoined.frame])
  · rw [dispatched.frame]
    exact judged.kept.freeList.trans (by rw [rejoined.frame])
  · rw [joined_station dispatched, judged.kept.others x other, rejoined.others x other]
  · rw [joined_flow dispatched, judged.kept.flows g (by rw [rejoined.list]; exact out), rejoined.flow, if_neg out]

/-- The build under way sees the lists as the handoff leaves them (R70, R78, assumption 16). -/
theorem joined_buildSees : s.BuildSees t := by
  have place : PlaceKept s.engine v.engine := judged.kept.engine ▸ rejoined.place
  refine buildSees_congr (buildSees_levelEnded place) ?_ ?_ <;> rw [dispatched.frame] <;> rfl

/-- What the station's record keeps, and what every join writes of it. -/
theorem joined_record :
    (t.station n).hardwareId = (s.station n).hardwareId ∧ (t.station n).channel = c ∧
    (t.station n).admitted = (s.station n).admitted ∧ (t.station n).policySelect = (s.station n).policySelect ∧
    (t.station n).flowList = (s.station n).flowList ∧ (t.station n).lastMeasurement = some m ∧
    (t.station n).missCount = 0 := by
  obtain ⟨state, good, total, total', asked, record⟩ := judged.record
  rw [joined_station dispatched, record, rejoined.record]
  exact ⟨rfl, rfl, rfl, rfl, rfl, rfl, rfl⟩

/-- FILL ANCHOR of the station's flows becomes absent where it comes to another channel (R25). -/
theorem joined_anchors {g : FlowNo} (among : g ∈ (s.station n).flowList) :
    (t.flow g).fillAnchor = if (s.station n).channel = c then (s.flow g).fillAnchor else none := by
  rw [joined_flow dispatched, judged.kept.anchors, rejoined.flow, if_pos among]

/-- A station that the join does not bring ONLINE has left it, and its flows their lists (R27). -/
theorem joined_leaves (off : ¬ (fine ∧ (s.station n).admitted = true)) :
    s.LeavesOnline t n ∧
      ∀ g ∈ (s.station n).flowList, t.flow g = { s.flowOff n g with fillAnchor := (t.flow g).fillAnchor } := by
  have aside := judged.aside (by rw [rejoined.admitted]; exact off)
  have flow (g : FlowNo) : t.flow g = w.flow g := by
    rw [joined_flow dispatched, aside]
    rfl
  refine ⟨leavesOnline_congr rejoined.leaves ?_ ?_, fun g among => ?_⟩
  · rw [dispatched.frame]
    show v.activeLists = w.activeLists
    rw [aside]
  · rw [dispatched.frame]
    show v.calendars = w.calendars
    rw [aside]
  · rw [flow, rejoined.flow, if_pos among]

omit judged in
/-- The adjust queue, with the adjustment of the join offered behind the entries of other stations (R120). -/
theorem joined_adjustQueue {a : AdjustEntry} (offered : v.adjustQueue = w.OfferedQueue a) (of : a.station = n) :
    t.adjustQueue = if w.adjustQueue.length < 64 then w.adjustQueue ++ [a] else w.adjustQueue := by
  rw [← offeredQueue_absent (of ▸ rejoined.absent), ← offered, dispatched.frame]
  rfl

omit judged in
/-- What the judgement counts of an alignment stands counted (R117). -/
theorem joined_counter {k : ChannelCounter} (own : k = .alignSuccess ∨ k = .alignCorrected)
    (once : v.counter c k = saturate (w.counter c k) 1) : t.counter c k = saturate (s.counter c k) 1 := by
  have aside : k ∉ unitCounters ∧ ¬ (c = c ∧ k = .joinTaken) := by rcases own with rfl | rfl <;> simp [unitCounters]
  rw [dispatched.counter c k aside.1, counter_count, if_neg aside.2]
  refine once.trans ?_
  rw [rejoined.frame]
  rfl

/-- A measurement within both tolerances brings the station ONLINE or PARKED (R28, R117). -/
theorem joined_success (ok : fine) :
    (t.station n).state = (if (s.station n).admitted then .online else .parked) ∧
    (t.station n).lastGood = some b ∧ (t.station n).timingTotal = 0 ∧ (t.station n).powerTotal = 0 ∧
    t.counter c .alignSuccess = saturate (s.counter c .alignSuccess) 1 ∧
    t.adjustQueue =
      if w.adjustQueue.length < 64 then
        w.adjustQueue ++ [{ station := n, channel := c, timingStep := 0, powerStep := 0, aligned := true }]
      else w.adjustQueue := by
  obtain ⟨state, good, timed, powered, once, offered⟩ := judged.success ok
  rw [rejoined.admitted] at state
  rw [joined_station dispatched]
  exact ⟨state, good, timed, powered, joined_counter rejoined dispatched (.inl rfl) once,
    joined_adjustQueue rejoined dispatched offered rfl⟩

/-- Any other measurement leaves it ALIGNING, its adjustment taken or dropped (R117, R120). -/
theorem joined_correction (poor : ¬ fine) :
    (t.station n).state = .aligning ∧ (t.station n).lastGood = none ∧
    ((s.pollQueue c).length < 256 → (t.station n).inPollQueue = true) ∧
    (w.adjustQueue.length < 64 →
      (t.station n).timingTotal = timing ∧ (t.station n).powerTotal = power ∧
      t.counter c .alignCorrected = saturate (s.counter c .alignCorrected) 1 ∧
      t.adjustQueue =
        w.adjustQueue ++
          [{ station := n, channel := c, timingStep := timing, powerStep := power, aligned := false }]) ∧
    (64 ≤ w.adjustQueue.length →
      (t.station n).timingTotal = 0 ∧ (t.station n).powerTotal = 0 ∧ t.adjustQueue = w.adjustQueue ∧
      s.Raised t (.adjustDrop n c timing power false)) := by
  obtain ⟨state, good, asked, offered⟩ := judged.correction poor
  have queue := joined_adjustQueue rejoined dispatched offered rfl
  rw [joined_station dispatched]
  refine ⟨state, good, fun room => asked (by rw [rejoined.polls]; exact room), fun room => ?_, fun full => ?_⟩
  · obtain ⟨timed, powered, once⟩ := judged.taken poor (.inr room)
    exact ⟨timed, powered, joined_counter rejoined dispatched (.inr rfl) once, queue.trans (if_pos room)⟩
  · obtain ⟨timed, powered, raised⟩ := judged.dropped poor rejoined.absent full
    refine ⟨timed, powered, queue.trans (if_neg (Nat.not_lt.2 full)), dispatched.raised (by simp [NoticeDetail.kind]) ?_⟩
    exact raised_agree raised (by rw [rejoined.frame]) (by rw [rejoined.frame])

end Joined

/-! ## The join of a newcomer (R26, R28) -/

section Newcomer

variable {s v t : State} {n : StationNo} {h : HwId} {c : ChanNo} {b : Beat} {m : Measurement} {fine : Prop}
  {timing power : Int} (judged : (s.newcomer n h c).Judged v n c b m fine timing power)
  (dispatched : (v.count c .joinTaken 1).Dispatched t)

theorem newcomer_unadmitted : ((s.newcomer n h c).station n).admitted = false := by
  rw [newcomer_station, if_pos rfl]
  rfl

include judged dispatched

/-- The number leaves the free list for the identity map; every other station stays, and so do flows, lists and the build. -/
theorem newcomer_keeps : t.freeList = s.freeList.tail ∧ t.identity = s.identity ++ [(h, n)] ∧
    (∀ x, x ≠ n → t.station x = s.station x) ∧ t.flows = s.flows ∧ t.activeLists = s.activeLists ∧
    t.calendars = s.calendars ∧ t.engine = s.engine := by
  have aside : (s.newcomer n h c).AskFrame v := judged.aside (by simp [newcomer_unadmitted])
  refine ⟨?_, ?_, fun x other => ?_, ?_, ?_, ?_, ?_⟩
  case refine_3 =>
    rw [dispatched.station]
    exact (judged.kept.others x other).trans ((newcomer_station s n x h c).trans (if_neg other))
  all_goals
    rw [dispatched.frame, aside]
    rfl

/-- The record of a newcomer (R26), and what its measurement writes of it. -/
theorem newcomer_record :
    (t.station n).hardwareId = some h ∧ (t.station n).channel = c ∧ (t.station n).admitted = false ∧
    (t.station n).policySelect = .a ∧ (t.station n).flowList = [] ∧ (t.station n).lastMeasurement = some m ∧
    (t.station n).missCount = 0 := by
  obtain ⟨state, good, total, total', asked, record⟩ := judged.record
  rw [newcomer_station, if_pos rfl] at record
  have here : t.station n = v.station n := dispatched.station n
  rw [here, record]
  exact ⟨rfl, rfl, rfl, rfl, rfl, rfl, rfl⟩

theorem newcomer_raised : s.Raised t (.newcomer n h c) := by
  have first : s.Raised (s.newcomer n h c) (.newcomer n h c) := raised_raise _ rfl rfl
  refine dispatched.raised (by simp [NoticeDetail.kind]) ?_
  rw [Raised, count_notice]
  exact judged.kept.newcomer.trans first

/-- A newcomer within both tolerances is PARKED (R28, R117). -/
theorem newcomer_success (ok : fine) :
    (t.station n).state = .parked ∧ (t.station n).lastGood = some b ∧ (t.station n).timingTotal = 0 ∧
    (t.station n).powerTotal = 0 ∧
    t.adjustQueue =
      s.OfferedQueue { station := n, channel := c, timingStep := 0, powerStep := 0, aligned := true } := by
  obtain ⟨state, good, timed, powered, -, offered⟩ := judged.success ok
  rw [newcomer_unadmitted] at state
  have queue : t.adjustQueue = v.adjustQueue := by rw [dispatched.frame]; rfl
  have here : t.station n = v.station n := dispatched.station n
  rw [here]
  exact ⟨state, good, timed, powered, queue.trans offered⟩

/-- Any other newcomer is ALIGNING, its adjustment merged, queued or dropped (R117, R120). -/
theorem newcomer_correction (poor : ¬ fine) :
    (t.station n).state = .aligning ∧ (t.station n).lastGood = none ∧
    t.adjustQueue =
      s.OfferedQueue
        { station := n, channel := c, timingStep := timing, powerStep := power, aligned := false } ∧
    ((∃ x ∈ s.adjustQueue, x.station = n) ∨ s.adjustQueue.length < 64 →
      (t.station n).timingTotal = timing ∧ (t.station n).powerTotal = power) ∧
    ((∀ x ∈ s.adjustQueue, x.station ≠ n) → 64 ≤ s.adjustQueue.length →
      (t.station n).timingTotal = 0 ∧ (t.station n).powerTotal = 0) := by
  obtain ⟨state, good, -, offered⟩ := judged.correction poor
  have queue : t.adjustQueue = v.adjustQueue := by rw [dispatched.frame]; rfl
  have here : t.station n = v.station n := dispatched.station n
  rw [here]
  refine ⟨state, good, queue.trans offered, fun room => ?_, fun absent full => ?_⟩
  · obtain ⟨timed, powered, -⟩ := judged.taken poor room
    exact ⟨timed, powered⟩
  · obtain ⟨timed, powered, -⟩ := judged.dropped poor absent full
    exact ⟨timed, powered⟩

end Newcomer

/-- A newcomer finds no number on the free list (R26). -/
theorem joinHandoff_full {s : State} {h : HwId} (unknown : s.lookupIdentity h = none) (full : s.freeList = [])
    (c : ChanNo) (b : Beat) (m : Option Measurement) : s.joinHandoff h c b m = s.raise (.stationTableFull h c) := by
  simp only [joinHandoff, unknown, full]

/-- A newcomer takes the number at the head of the free list, and its measurement is judged (R26). -/
theorem joinHandoff_newcomer {s : State} {h : HwId} {n : StationNo} {q : List StationNo}
    (unknown : s.lookupIdentity h = none) (free : s.freeList = n :: q) (c : ChanNo) (b : Beat) (m : Measurement) :
    s.joinHandoff h c b (some m) = (s.newcomer n h c).pollMeasurement n c b m := by
  simp only [joinHandoff, unknown, free]

/-- A known station begins its alignment, its measurement is judged, and a level they leave empty ends (R25, R70). -/
theorem joinHandoff_known {s : State} {h : HwId} {n : StationNo} (known : s.lookupIdentity h = some n) (c : ChanNo)
    (b : Beat) (m : Measurement) :
    s.joinHandoff h c b (some m) = s.levelEnded ((s.rejoin n c).pollMeasurement n c b m) := by
  simp only [joinHandoff, known]

/-! ## The event as a whole -/

section Event

variable {s : State} {r : BurstRecord} {e : ExpectEntry}

/-- A record that carries nothing is counted once, and the stopping conditions are tested. -/
theorem joinRecord_counted (join : e.grant = .join) (undecoded : r.outcome.decoded = false) {k : ChannelCounter}
    (counted : (s.removeEntry r.channel e).settleJoin r = (s.removeEntry r.channel e).count r.channel k 1) :
    (s.matchedRecord r e).testStop r.channel =
      { s with
        channels := ((s.matchedRecord r e).testStop r.channel).channels
        expectQueues := ((s.matchedRecord r e).testStop r.channel).expectQueues
        notices := ((s.matchedRecord r e).testStop r.channel).notices
        channelCounters := (s.count r.channel k 1).channelCounters } := by
  rw [matchedRecord_join join, undecoded, if_neg Bool.false_ne_true, counted, (testStop_frame _ r.channel).1]
  rfl

/-- The units of a decoded record, dispatched behind its settling. -/
theorem matchedRecord_decoded (join : e.grant = .join) (clean : r.outcome = .clean ∨ r.outcome = .repaired) :
    s.matchedRecord r e = ((s.removeEntry r.channel e).settleJoin r).dispatchUnits r .join := by
  have decoded : r.outcome.decoded = true := by rcases clean with h | h <;> rw [h] <;> rfl
  rw [matchedRecord_join join, if_pos decoded]

/-- A decoded record without a join unit is counted empty, and its units by kind. -/
theorem joinRecord_joinless (join : e.grant = .join) (clean : r.outcome = .clean ∨ r.outcome = .repaired)
    (no : ∀ h, .join h ∉ r.units) {t : State} (left : (s.matchedRecord r e).testStop r.channel = t) :
    t.counter r.channel .joinEmpty = saturate (s.counter r.channel .joinEmpty) 1 ∧
    (∀ d k, d ≠ r.channel ∨ (k ≠ .joinEmpty ∧ k ≠ .unitsDiscarded ∧ k ≠ .behindIgnored) →
      t.counter d k = s.counter d k) ∧
    t = { s with
          channels := t.channels, expectQueues := t.expectQueues, notices := t.notices
          channelCounters := t.channelCounters } := by
  rw [matchedRecord_decoded join clean, settleJoin_joinless clean no] at left
  have dispatched := dispatched_join ((s.removeEntry r.channel e).count r.channel .joinEmpty 1) r r.channel
  refine ⟨?_, fun d k other => ?_, ?_⟩
  · rw [← left, dispatched.counter _ _ (by simp [unitCounters]), counter_count, if_pos ⟨rfl, rfl⟩]
    rfl
  · rw [← left, testStop_counter, dispatchUnits_joinless_counter no other]
    rfl
  · rw [← left, dispatched.frame]
    rfl

end Event

end State

/-- Settles O33: the outcomes are those of State.settleJoin_cases, State.dispatched_counter counts the units, and the
judgement of a station that begins its alignment (State.judged_pollMeasurement) follows State.rejoined_rejoin for a known
station and State.begins_newcomer for a newcomer. -/
theorem joinRecordsAdmitOrRealign : Obligations.JoinRecordsAdmitOrRealign := by
  intro s f r e quiet sound found join
  have kept := State.stopKept_matchedJoin (s := s) (r := r) join
  refine ⟨_, State.exec_burstRecord_matched quiet sound found (State.misplaces_join r join),
    (State.testStop_expectQueues _ _).trans kept.expectQueues,
    State.stopTested_testStop kept.channels kept.planStores kept.noticeEnable kept.notice, fun failed => ?_,
    fun empty => ?_, fun clean => ?_, fun clean no => State.joinRecord_joinless join clean no rfl,
    fun h l u m fine timing power clean units first measured step fine_iff timing_eq power_eq => ?_⟩
  · exact State.joinRecord_counted join (by rcases failed with h | h <;> rw [h] <;> rfl) (State.settleJoin_failed failed)
  · exact State.joinRecord_counted join (by rw [empty]; rfl) (State.settleJoin_empty empty)
  · have each {k : ChannelCounter} := State.dispatched_counter (s.removeEntry r.channel e) r r.channel (k := k)
    rw [State.matchedRecord_decoded join clean]
    refine ⟨(each (.inl rfl)).trans (congrArg _ ?_), (each (.inr (.inl rfl))).trans (congrArg _ ?_),
      (each (.inr (.inr rfl))).trans (congrArg _ (congrArg (· - 1) ?_))⟩
    all_goals
      refine List.countP_congr fun u _ => ?_
      cases u <;> simp [BurstUnit.joinCounter]
  rw [State.matchedRecord_decoded join clean, State.settleJoin_handsOff clean units first, measured]
  obtain ⟨a, removed⟩ : ∃ a, a = s.removeEntry r.channel e := ⟨_, rfl⟩
  have judgement : Judgement (a.params r.channel) m fine timing power := by
    rw [removed]
    exact ⟨step, fine_iff, timing_eq, power_eq⟩
  rw [← removed]
  have dispatched := State.dispatched_join
    ((a.joinHandoff h r.channel r.start (some m)).count r.channel .joinTaken 1) r r.channel
  generalize State.testStop _ r.channel = t at dispatched ⊢
  refine ⟨?_, fun n q known filtered => ?_, fun n q x unknown free adjustment => ?_, fun unknown full => ?_⟩
  · rw [dispatched.counter _ _ (by simp [State.unitCounters]), State.counter_count, if_pos ⟨rfl, rfl⟩,
      State.joinHandoff_counter _ _ _ _ _ _ (by simp [State.alignmentCounters]), removed]
    rfl
  · have rejoined := State.rejoined_rejoin a n r.channel
    have adjusts : (a.rejoin n r.channel).adjustQueue = q := rejoined.adjust.trans (by rw [removed, filtered]; rfl)
    have judged := State.judged_pollMeasurement (State.begins_rejoined rejoined)
      (by rw [rejoined.frame]; exact judgement) r.start
    rw [State.joinHandoff_known (by rw [removed]; exact known)] at dispatched
    obtain ⟨identity, free, others, flows⟩ := State.joined_keeps rejoined judged dispatched
    obtain ⟨id, on, admitted, select, list, measurement, misses⟩ := State.joined_record rejoined judged dispatched
    have sees := State.joined_buildSees rejoined judged dispatched
    have anchors {g : FlowNo} := State.joined_anchors rejoined judged dispatched (g := g)
    have leaves := State.joined_leaves rejoined judged dispatched
    have success := State.joined_success rejoined judged dispatched
    have correction := State.joined_correction rejoined judged dispatched
    rw [adjusts] at success correction
    subst removed
    exact ⟨identity, free, others, sees, id, on, admitted, select, list, measurement, misses, flows,
      fun g among => anchors among, leaves, success, correction⟩
  · rw [State.joinHandoff_newcomer (by rw [removed]; exact unknown) (by rw [removed]; exact free)] at dispatched
    have judged := State.judged_pollMeasurement (State.begins_newcomer a n h r.channel) judgement r.start
    obtain ⟨numbers, identity, others, flows, lists, calendars, engine⟩ := State.newcomer_keeps judged dispatched
    obtain ⟨id, on, admitted, select, list, measurement, misses⟩ := State.newcomer_record judged dispatched
    have raised := State.newcomer_raised judged dispatched
    have success := State.newcomer_success judged dispatched
    have correction := State.newcomer_correction judged dispatched
    subst removed adjustment
    exact ⟨numbers.trans (congrArg List.tail free), identity, others, flows, lists, calendars, engine, id, on, admitted,
      select, list, measurement, misses, raised, success, correction⟩
  · rw [State.joinHandoff_full (by rw [removed]; exact unknown) (by rw [removed]; exact full)] at dispatched
    subst removed
    have raised : s.Raised ((s.removeEntry r.channel e).raise (.stationTableFull h r.channel))
        (.stationTableFull h r.channel) := State.raised_raise _ rfl rfl
    refine ⟨dispatched.raised (by simp [NoticeDetail.kind]) raised, ?_⟩
    rw [dispatched.frame]
    rfl

end Sys2Proof.Machine
end

section
/-! SUPPORT. Group 4 of stage 1: the stations taken from the poll queue, the sweep, and the statements on them (R68, R69, R111 to
R113). -/

namespace Sys2Proof.Machine

namespace BuildContext

/-! ## Moving on within group 4 (R112, R113) -/

/-- The poll queue's part of group 4 moved on: `k` stations still to be taken, or the sweep (R112, R113). -/
theorem advance_polls (s : State) {b : BuildContext} {k : Nat} {chosen : List StationNo}
    (stage : b.phase = .polls k chosen) : b.MovesTo (b.advance s) ∧ s.PollsFrom k chosen (b.advance s) := by
  by_cases ended : k = 0 ∨ s.pollQueue b.channel = []
  · have moved : b.advance s = b.enterSweep s chosen := by simp [advance, stage, ended]
    rw [moved]
    refine ⟨enterSweep_moves s b chosen, fun more waits => ?_, fun _ => enterSweep_from s b chosen⟩
    rw [enterSweep_channel] at waits
    exact absurd ended (not_or.2 ⟨more, waits⟩)
  · have stays : b.advance s = b := by simp [advance, stage, ended]
    rw [stays]
    exact ⟨⟨⟨rfl, rfl, rfl, rfl⟩, by simp [stage]⟩, fun _ _ => stage, fun ends => absurd ends ended⟩

/-- The sweep moved on with `k` records examined: the next record, or stage 2 (R69, R113). -/
theorem advance_sweep (s : State) {b : BuildContext} {k : Nat} {chosen : List StationNo}
    (stage : b.phase = .sweep k chosen) : b.MovesTo (b.advance s) ∧ s.SweepFrom k chosen (b.advance s) := by
  by_cases more : k < 64 ∧ chosen.length < (s.params b.channel).pollLimit
  · have stays : b.advance s = b := by simp [advance, stage, Config.maxSweep, more]
    rw [stays]
    exact ⟨⟨⟨rfl, rfl, rfl, rfl⟩, by simp [stage]⟩, fun _ _ => stage, fun ended => by omega⟩
  · have moved : b.advance s = b.enterOpenings s := by simp [advance, stage, Config.maxSweep, more]
    rw [moved]
    refine ⟨enterOpenings_moves s b, fun few limit => ?_, fun _ => enterOpenings_from s b⟩
    rw [enterOpenings_channel] at limit
    exact absurd ⟨few, limit⟩ more

end BuildContext

namespace State

/-- A build with stations still to be taken moved on: the next station, or the sweep (R112, R113). -/
theorem advanceBuild_polls {s t : State} {b : BuildContext} {k : Nat} {chosen : List StationNo}
    (ht : s.advanceBuild = t) (building : s.engine = some b) (stage : b.phase = .polls k chosen) :
    t.BuildGoesOn b b.freeSpans (t.PollsFrom k chosen) ∧ t = s.putEngine t.engine := by
  obtain ⟨⟨⟨channel, start, cadence, free⟩, timed⟩, comes⟩ := BuildContext.advance_polls s stage
  rw [advanceBuild_moves building timed] at ht
  subst ht
  exact ⟨⟨_, rfl, channel, start, cadence, free, comes⟩, rfl⟩

/-- A build in the sweep moved on: the next record, or stage 2 (R69, R113). -/
theorem advanceBuild_sweep {s t : State} {b : BuildContext} {k : Nat} {chosen : List StationNo}
    (ht : s.advanceBuild = t) (building : s.engine = some b) (stage : b.phase = .sweep k chosen) :
    t.BuildGoesOn b b.freeSpans (t.SweepFrom k chosen) ∧ t = s.putEngine t.engine := by
  obtain ⟨⟨⟨channel, start, cadence, free⟩, timed⟩, comes⟩ := BuildContext.advance_sweep s stage
  rw [advanceBuild_moves building timed] at ht
  subst ht
  exact ⟨⟨_, rfl, channel, start, cadence, free, comes⟩, rfl⟩

/-- A build that enters stage 2 goes on there, and nothing but the build changes (R69). -/
theorem advanceBuild_enterOpenings {s t : State} {b : BuildContext}
    (ht : (s.putBuild (b.enterOpenings s)).advanceBuild = t) :
    t.BuildGoesOn b b.freeSpans t.TargetFrom ∧ t = s.putEngine t.engine := by
  obtain ⟨⟨channel, start, cadence, free⟩, timed⟩ := BuildContext.enterOpenings_moves s b
  have stays : (b.enterOpenings s).advance (s.putBuild (b.enterOpenings s)) = b.enterOpenings s :=
    BuildContext.advance_enterOpenings s b
  rw [advanceBuild_moves rfl (by rw [stays]; exact timed), stays] at ht
  subst ht
  exact ⟨⟨_, rfl, channel, start, cadence, free, BuildContext.enterOpenings_from s b⟩, rfl⟩

/-! ## The place first-fit finds (R65) -/

/-- What holds of the place there is room at holds of every such place: first-fit finds one. -/
theorem Room.only {s : State} {b : BuildContext} {n : Nat} {body : ElementBody} {o : Nat} {spans : List Span}
    {P : Nat → List Span → Prop} (room : s.Room b n body o spans) (there : P o spans) :
    ∀ o' spans', s.Room b n body o' spans' → P o' spans' := by
  intro o' spans' room'
  obtain ⟨rfl, rfl⟩ : o = o' ∧ spans = spans' := by simpa using room.1.symm.trans room'.1
  exact there

/-! ## A station taken from the poll queue (R112) -/

/-- Taking a station writes the one record, and its mark alone (R112). -/
theorem takePolled_station (s : State) (c : ChanNo) (n : StationNo) (q : List StationNo) (m : StationNo) :
    (s.takePolled c n q).station m = if m = n then { s.station n with inPollQueue := false } else s.station m :=
  station_putStation _ _ _ _

/-- A station taken and enqueued again writes its record and its channel's queue, and counts nothing (R110). -/
theorem takenBack_frame {s : State} {c : ChanNo} {n : StationNo} {q : List StationNo}
    (on : (s.station n).channel = c) (room : q.length < 256) :
    (s.takePolled c n q).pollEnqueue n =
      { s with
        stations := ((s.takePolled c n q).pollEnqueue n).stations
        pollQueues := (s.putPollQueue c (q ++ [n])).pollQueues } := by
  obtain ⟨queues, -⟩ := takenBack on room
  have record := (takePolled_station s c n q n).trans (if_pos rfl)
  have behind : (s.takePolled c n q).pollQueue c = q := pollQueue_putPollQueue_same s c q
  have counters : ((s.takePolled c n q).pollEnqueue n).channelCounters = s.channelCounters := by
    rw [pollEnqueue_channelCounters]
    simp only [record, on, behind, Nat.not_le.2 room, and_false, if_false]
    rfl
  conv_lhs => rw [pollEnqueue_frame, queues, counters]
  rfl

/-- The station at the head is given its POLL element, where there is room for it (R112). -/
theorem pollQueueTakeStep_placed {s : State} {b : BuildContext} {k o : Nat} {chosen : List StationNo} {n : StationNo}
    {q : List StationNo} {spans : List Span} (settled : s.BuildSettled) (building : s.engine = some b)
    (stage : b.phase = .polls k chosen) (head : s.pollQueue b.channel = n :: q)
    (room : s.Room b (s.params b.channel).pollLength (.poll n) o spans) :
    s.pollQueueTakeStep = State.advanceBuild
      { s with
        planStores :=
          (s.putBuildHalf b.channel
            { s.buildHalf b.channel with
              elements := s.placed b (s.params b.channel).pollLength (.poll n) o }).planStores
        engine := some { b with phase := .polls (k - 1) (n :: chosen), freeSpans := spans }
        stations := (s.takePolled b.channel n q).stations
        pollQueues := (s.putPollQueue b.channel q).pollQueues
        channelCounters := (s.count b.channel .pollsPlaced 1).channelCounters } := by
  have placed : (s.takePolled b.channel n q).placePoll { b with phase := .polls (k - 1) (n :: chosen) } n = _ :=
    placeFirstFit_room room
  simp only [pollQueueTakeStep, settled, building, stage, head, placed]
  simp only [State.placed, place, putBuild, putEngine, putBuildHalf, buildHalf, planStore, putPlanStore, takePolled,
    putPollQueue, putStation, count, params, context]

/-- It joins the tail again and group 4 ends, where there is none (R112). -/
theorem pollQueueTakeStep_deferred {s u : State} {b : BuildContext} {k : Nat} {chosen : List StationNo} {n : StationNo}
    {q : List StationNo} (settled : s.BuildSettled) (building : s.engine = some b)
    (stage : b.phase = .polls k chosen) (head : s.pollQueue b.channel = n :: q)
    (noRoom : ∀ o spans, ¬ s.Room b (s.params b.channel).pollLength (.poll n) o spans)
    (left : ((s.takePolled b.channel n q).pollEnqueue n).count b.channel .pollsDeferred 1 = u) :
    s.pollQueueTakeStep = (u.putBuild (b.enterOpenings u)).advanceBuild := by
  have refused : (s.takePolled b.channel n q).placePoll { b with phase := .polls (k - 1) (n :: chosen) } n = none :=
    placeFirstFit_noRoom noRoom
  simp only [pollQueueTakeStep, settled, building, stage, head, refused, left]

/-! ## A record examined by the sweep (R111, R113) -/

/-- The sweep offers an element to the station it examines: due on the channel, not in the poll queue and not chosen in this
group (R111, R113). -/
theorem sweepChooses_iff (s : State) (b : BuildContext) (n : StationNo) (chosen : List StationNo) :
    s.sweepChooses b n chosen = true ↔
      (s.station n).channel = b.channel ∧
      ((s.station n).state = .aligning ∨
        (((s.station n).state = .parked ∨ (s.station n).state = .online) ∧
          ∀ g, (s.station n).lastGood = some g → (s.params b.channel).maintenancePeriod ≤ (b.start - g).toNat)) ∧
      (s.station n).inPollQueue = false ∧ n ∉ chosen := by
  cases good : (s.station n).lastGood <;> simp [sweepChooses, pollDue, good, and_assoc]

/-- The record examined, and SWEEP POINTER behind it. -/
def swept (s : State) (b : BuildContext) : State :=
  s.putSweepPointer b.channel (nextStation (s.sweepPointer b.channel))

/-- SWEEP POINTER names the next number modulo 8,192, and no other channel's moves (R113). -/
theorem swept_sweepPointer (s : State) (b : BuildContext) :
    ((s.swept b).sweepPointer b.channel).val = ((s.sweepPointer b.channel).val + 1) % 8192 ∧
      ∀ d, d ≠ b.channel → (s.swept b).sweepPointer d = s.sweepPointer d := by
  refine ⟨?_, fun d other => vget_vput_ne _ other _⟩
  rw [swept, sweepPointer_putSweepPointer_same]
  exact Fin.val_add _ _

section Sweep

variable {s : State} {b : BuildContext} {k : Nat} {chosen : List StationNo}

/-- A record whose station is not chosen is passed over (R113). -/
theorem sweepStep_passes {n : StationNo} (settled : s.BuildSettled) (building : s.engine = some b)
    (stage : b.phase = .sweep k chosen) (points : s.sweepPointer b.channel = n)
    (passed : ¬ s.sweepChooses b n chosen = true) :
    s.sweepStep = ((s.swept b).putBuild { b with phase := .sweep (k + 1) chosen }).advanceBuild := by
  simp only [sweepStep, settled, building, stage, points, passed, swept, Bool.false_eq_true, if_false]

/-- A station chosen is given its POLL element, where there is room for it (R113). -/
theorem sweepStep_placed {n : StationNo} {o : Nat} {spans : List Span} (settled : s.BuildSettled)
    (building : s.engine = some b) (stage : b.phase = .sweep k chosen) (points : s.sweepPointer b.channel = n)
    (chooses : s.sweepChooses b n chosen = true)
    (room : s.Room b (s.params b.channel).pollLength (.poll n) o spans) :
    s.sweepStep =
      (((s.swept b).place { b with phase := .sweep (k + 1) (n :: chosen) }
        { offset := o, length := (s.params b.channel).pollLength, body := .poll n } spans).count b.channel
          .pollsPlaced 1).advanceBuild := by
  have placed : (s.swept b).placePoll { b with phase := .sweep (k + 1) (n :: chosen) } n =
      some ((s.swept b).place { b with phase := .sweep (k + 1) (n :: chosen) }
        { offset := o, length := (s.params b.channel).pollLength, body := .poll n } spans) := placeFirstFit_room room
  simp only [swept, points] at placed ⊢
  simp only [sweepStep, settled, building, stage, points, chooses, if_true, placed]

/-- Group 4 ends, where there is none (R113). -/
theorem sweepStep_deferred {n : StationNo} {u : State} (settled : s.BuildSettled) (building : s.engine = some b)
    (stage : b.phase = .sweep k chosen) (points : s.sweepPointer b.channel = n)
    (chooses : s.sweepChooses b n chosen = true)
    (noRoom : ∀ o spans, ¬ s.Room b (s.params b.channel).pollLength (.poll n) o spans)
    (left : (s.swept b).count b.channel .pollsDeferred 1 = u) :
    s.sweepStep = (u.putBuild (b.enterOpenings u)).advanceBuild := by
  have refused : (s.swept b).placePoll { b with phase := .sweep (k + 1) (n :: chosen) } n = none :=
    placeFirstFit_noRoom noRoom
  simp only [swept, points] at refused left
  simp only [sweepStep, settled, building, stage, points, chooses, if_true, refused, left]

end Sweep

end State

/-- Settles O18: with room the station is placed, and State.advanceBuild_polls says what comes next; without it the station is
back at the tail (State.takenBack) and stage 2 begins (State.advanceBuild_enterOpenings). -/
theorem pollQueueTakeOffersAPoll : Obligations.PollQueueTakeOffersAPoll := by
  intro s b k chosen n q quiet settled bounded building stage head on
  have step : exec .pollQueueTake s = .next s.pollQueueTakeStep :=
    congrArg (fun u : State => Host.Outcome.next u.pollQueueTakeStep) (State.settle_quiet quiet)
  have short : q.length < 256 := by
    obtain ⟨-, -, -, queues, -⟩ := bounded
    simpa [head] using queues b.channel
  obtain ⟨t, ht⟩ : ∃ t, s.pollQueueTakeStep = t := ⟨_, rfl⟩
  rw [ht] at step
  by_cases fits : ∃ o spans, s.Room b (s.params b.channel).pollLength (.poll n) o spans
  · obtain ⟨o, spans, room⟩ := fits
    rw [State.pollQueueTakeStep_placed settled building stage head room] at ht
    obtain ⟨goes, moved⟩ := State.advanceBuild_polls ht rfl rfl
    refine ⟨t, step, fun m other => ?_, room.only ⟨?_, goes, ?_, ?_⟩, fun noRoom => absurd room (noRoom o spans)⟩
    · rw [moved]
      exact (State.takePolled_station s b.channel n q m).trans (if_neg other)
    · rw [State.PlacedIn, moved]
      rfl
    · rw [moved]
      exact (State.takePolled_station s b.channel n q n).trans (if_pos rfl)
    · rw [moved]
      rfl
  · have noRoom : ∀ o spans, ¬ s.Room b (s.params b.channel).pollLength (.poll n) o spans :=
      fun o spans room => fits ⟨o, spans, room⟩
    obtain ⟨-, record, others, -⟩ := State.takenBack on short
    rw [State.pollQueueTakeStep_deferred settled building stage head noRoom rfl] at ht
    obtain ⟨goes, moved⟩ := State.advanceBuild_enterOpenings ht
    have station (m : StationNo) : t.station m = ((s.takePolled b.channel n q).pollEnqueue n).station m := by
      rw [moved]
      rfl
    refine ⟨t, step, fun m other => (station m).trans (others m other), fun o spans room => absurd room (noRoom o spans),
      fun _ => ⟨goes, (station n).trans record, ?_⟩⟩
    rw [moved, State.takenBack_frame on short]
    rfl

/-- Settles O19: State.sweepChooses_iff says which station is offered an element; State.advanceBuild_sweep says what comes after
the record, and State.advanceBuild_enterOpenings what comes after a placement that fails. -/
theorem sweepExaminesOneRecord : Obligations.SweepExaminesOneRecord := by
  intro s b k chosen n quiet settled building stage points
  have step : exec .sweep s = .next s.sweepStep :=
    congrArg (fun u : State => Host.Outcome.next u.sweepStep) (State.settle_quiet quiet)
  obtain ⟨t, ht⟩ : ∃ t, s.sweepStep = t := ⟨_, rfl⟩
  rw [ht] at step
  have passes (passed : ¬ s.sweepChooses b n chosen = true) :
      t.sweepPointers = (s.swept b).sweepPointers ∧ t.BuildGoesOn b b.freeSpans (t.SweepFrom (k + 1) chosen) ∧
        t = { s with engine := t.engine, sweepPointers := t.sweepPointers } := by
    rw [State.sweepStep_passes settled building stage points passed] at ht
    obtain ⟨goes, moved⟩ := State.advanceBuild_sweep ht rfl rfl
    refine ⟨?_, goes, ?_⟩ <;> rw [moved] <;> rfl
  have placed (o : Nat) (spans : List Span) (chooses : s.sweepChooses b n chosen = true)
      (room : s.Room b (s.params b.channel).pollLength (.poll n) o spans) :
      t.sweepPointers = (s.swept b).sweepPointers ∧ s.PlacedIn t b (s.params b.channel).pollLength (.poll n) o ∧
        t.BuildGoesOn b spans (t.SweepFrom (k + 1) (n :: chosen)) ∧
        t = { s with
              planStores := t.planStores, engine := t.engine, sweepPointers := t.sweepPointers
              channelCounters := (s.count b.channel .pollsPlaced 1).channelCounters } := by
    rw [State.sweepStep_placed settled building stage points chooses room] at ht
    obtain ⟨goes, moved⟩ := State.advanceBuild_sweep ht rfl rfl
    refine ⟨?_, ?_, goes, ?_⟩
    · rw [moved]
      rfl
    · rw [State.PlacedIn, moved]
      rfl
    · rw [moved]
      rfl
  have deferred (chooses : s.sweepChooses b n chosen = true)
      (noRoom : ∀ o spans, ¬ s.Room b (s.params b.channel).pollLength (.poll n) o spans) :
      t.sweepPointers = (s.swept b).sweepPointers ∧ t.BuildGoesOn b b.freeSpans t.TargetFrom ∧
        t = { s with
              engine := t.engine, sweepPointers := t.sweepPointers
              channelCounters := (s.count b.channel .pollsDeferred 1).channelCounters } := by
    rw [State.sweepStep_deferred settled building stage points chooses noRoom rfl] at ht
    obtain ⟨goes, moved⟩ := State.advanceBuild_enterOpenings ht
    refine ⟨?_, goes, ?_⟩ <;> rw [moved] <;> rfl
  have pointer (d : ChanNo) : t.sweepPointer d = (s.swept b).sweepPointer d := by
    refine congrArg (fun v => vget v d) ?_
    by_cases chooses : s.sweepChooses b n chosen = true
    · by_cases fits : ∃ o spans, s.Room b (s.params b.channel).pollLength (.poll n) o spans
      · obtain ⟨o, spans, room⟩ := fits
        exact (placed o spans chooses room).1
      · exact (deferred chooses fun o spans room => fits ⟨o, spans, room⟩).1
    · exact (passes chooses).1
  obtain ⟨next, others⟩ := State.swept_sweepPointer s b
  exact ⟨t, _, step, State.sweepChooses_iff s b n chosen, by rw [pointer, next, points],
    fun d other => (pointer d).trans (others d other), fun passed => (passes passed).2,
    fun o spans chooses room => (placed o spans chooses room).2, fun chooses noRoom => (deferred chooses noRoom).2⟩

end Sys2Proof.Machine
end

section
/-! SUPPORT. The Plan Link: which plan departs, what its departure leaves, and the statements on departures and on the events
of the links (R8, R13, R97, R126 to R129, R139, R153). -/

namespace Sys2Proof.Machine

namespace State

/-! ## What goes ahead on the Plan Link (R126, R127) -/

theorem planLinkAccepts_iff (s : State) :
    s.planLinkAccepts = true ↔ s.planLinkHold = false ∧ s.planLink.sending = none := by
  simp [planLinkAccepts]

theorem mem_allChannels : ∀ c : ChanNo, c ∈ allChannels := by decide

/-- One step of the search for the plan to depart: the channel found so far, or the next one that awaits departure where its
plan has fewer units left (R127). -/
def sooner (s : State) (best : Option ChanNo) (c : ChanNo) : Option ChanNo :=
  match best with
  | none => some c
  | some d => if s.departureUnits c < s.departureUnits d then some c else some d

theorem sooner_cases (s : State) (best : Option ChanNo) (c : ChanNo) :
    s.sooner best c = some c ∨ s.sooner best c = best := by
  unfold sooner
  split
  · exact .inl rfl
  · split
    · exact .inl rfl
    · exact .inr rfl

theorem nextDeparture_eq (s : State) :
    s.nextDeparture = (allChannels.filter (fun c => s.awaits c)).foldl s.sooner none := rfl

/-- The search finds one of the channels it goes through, or keeps the one it had. -/
theorem foldl_sooner_mem (s : State) : ∀ (q : List ChanNo) (best : Option ChanNo) (d : ChanNo),
    q.foldl s.sooner best = some d → best = some d ∨ d ∈ q
  | [], _, _, found => .inl found
  | c :: q, best, d, found => by
    obtain kept | later := foldl_sooner_mem s q _ d found
    · obtain next | stays := s.sooner_cases best c
      · exact .inr (List.mem_cons.2 (.inl (Option.some.inj (kept.symm.trans next))))
      · exact .inl (stays.symm.trans kept)
    · exact .inr (List.mem_cons_of_mem c later)

/-- A channel that no later one beats stays the one found. -/
theorem foldl_sooner_stays (s : State) {c : ChanNo} : ∀ q : List ChanNo,
    (∀ d ∈ q, s.departureUnits c ≤ s.departureUnits d) → q.foldl s.sooner (some c) = some c
  | [], _ => rfl
  | d :: q, least => by
    have stays : s.sooner (some c) d = some c := if_neg (not_lt.2 (least d List.mem_cons_self))
    rw [List.foldl_cons, stays]
    exact foldl_sooner_stays s q (fun e among => least e (List.mem_cons_of_mem d among))

/-- The plan with the fewest units until its withdrawal deadline is the next to depart, the lower channel of two that are
equal (R127). -/
theorem nextDeparture_eq_some {s : State} {c : ChanNo} (waits : s.awaits c = true)
    (first : ∀ d, s.awaits d = true → d ≠ c →
      s.departureUnits c < s.departureUnits d ∨ (s.departureUnits c = s.departureUnits d ∧ c < d)) :
    s.nextDeparture = some c := by
  have rising : (allChannels.filter (fun d => s.awaits d)).Pairwise (· < ·) :=
    List.Pairwise.filter _ (by decide : allChannels.Pairwise (· < ·))
  obtain ⟨l, r, split⟩ := List.append_of_mem (List.mem_filter.2 ⟨mem_allChannels c, waits⟩)
  have awaiting (d : ChanNo) (among : d ∈ l ++ c :: r) : s.awaits d = true := by
    rw [← split] at among
    exact (List.mem_filter.1 among).2
  rw [split, List.pairwise_append, List.pairwise_cons] at rising
  obtain ⟨-, ⟨above, -⟩, below⟩ := rising
  have lower (d : ChanNo) (among : d ∈ l) : s.departureUnits c < s.departureUnits d := by
    have less := below d among c List.mem_cons_self
    obtain fewer | ⟨-, more⟩ := first d (awaiting d (by simp [among])) less.ne
    · exact fewer
    · exact absurd more less.le.not_gt
  have higher (d : ChanNo) (among : d ∈ r) : s.departureUnits c ≤ s.departureUnits d := by
    obtain fewer | ⟨equal, -⟩ := first d (awaiting d (by simp [among])) (above d among).ne'
    · exact fewer.le
    · exact equal.le
  have taken : s.sooner (l.foldl s.sooner none) c = some c := by
    cases found : l.foldl s.sooner none with
    | none => rfl
    | some d => exact if_pos (lower d ((foldl_sooner_mem s l none d found).resolve_left nofun))
  rw [nextDeparture_eq, split, List.foldl_append, List.foldl_cons, taken]
  exact foldl_sooner_stays s r higher

/-- Some plan departs next exactly where one awaits departure (R127). -/
theorem nextDeparture_isNone (s : State) : s.nextDeparture.isNone = true ↔ ∀ c, s.awaits c = false := by
  have starts (b : ChanNo) : ∀ q : List ChanNo, q.foldl s.sooner (some b) ≠ none := by
    intro q
    induction q generalizing b with
    | nil => exact nofun
    | cons d q ih =>
      rw [List.foldl_cons, sooner]
      split <;> exact ih _
  have none' : s.nextDeparture = none ↔ allChannels.filter (fun c => s.awaits c) = [] := by
    rw [nextDeparture_eq]
    cases allChannels.filter (fun c => s.awaits c) with
    | nil => simp
    | cons c q => exact iff_of_false (starts c q) nofun
  rw [Option.isNone_iff_eq_none, none', List.filter_eq_nil_iff]
  exact ⟨fun h c => by simpa using h c (mem_allChannels c), fun h c _ => by simp [h c]⟩

/-! ## Every channel goes on with its beats (R8) -/

/-- The deadlines of a channel are read from its context, its Plan Store and its Expect Queue (R9). -/
theorem deadlineReached_congr {s t : State} {d : ChanNo} (context : t.context d = s.context d)
    (plans : t.planStore d = s.planStore d) (queue : t.expectQueue d = s.expectQueue d) :
    t.deadlineReached d = s.deadlineReached d := by
  simp only [deadlineReached, emitTimeReached, withdrawalReached, expiryReached, emitTimeStands, advancing, awaits,
    emitTimeOf, params, context, plans, queue]

/-- `t` is `s` but for where its channels stand; one with no beats to reach, or at a deadline, stands where it stood (R8). -/
structure RunOn (s t : State) : Prop where
  frame : t = { s with channels := t.channels }
  context : ∀ d, t.context d =
    { s.context d with currentBeat := (t.context d).currentBeat, beatsToReach := (t.context d).beatsToReach }
  stands : ∀ d, (s.context d).beatsToReach = 0 ∨ s.deadlineReached d = true → t.context d = s.context d

namespace RunOn

theorem refl (s : State) : s.RunOn s := ⟨rfl, fun _ => rfl, fun _ _ => rfl⟩

theorem deadlineReached {s t : State} (h : s.RunOn t) {d : ChanNo} (same : t.context d = s.context d) :
    t.deadlineReached d = s.deadlineReached d := by
  rw [h.frame] at same ⊢
  exact deadlineReached_congr same rfl rfl

theorem trans {s t u : State} (h : s.RunOn t) (k : t.RunOn u) : s.RunOn u where
  frame := by
    rw [k.frame, h.frame]
  context d := by
    rw [k.context d, h.context d]
  stands d still := by
    have same := h.stands d still
    refine (k.stands d ?_).trans same
    rwa [same, h.deadlineReached same]

theorem runBeats (s : State) (c : ChanNo) : s.RunOn (s.runBeats c) := by
  obtain ⟨-, e⟩ | ⟨n, few, going, e⟩ := runBeats_cases s c <;> rw [e]
  · exact refl s
  refine ⟨rfl, fun d => ?_, fun d still => ?_⟩
  · rw [context_putContext]
    split
    · next here => rw [here]
    · rfl
  · rw [context_putContext]
    split
    · next here =>
      subst here
      obtain none' | at' := still
      · obtain rfl : n = 0 := by omega
        simp [beats32]
      · simp [going] at at'
    · rfl

theorem runAllBeats (s : State) : s.RunOn s.runAllBeats := by
  have each : ∀ (q : List ChanNo) (u : State), u.RunOn (q.foldl State.runBeats u) := by
    intro q
    induction q with
    | nil => exact refl
    | cons c q ih => exact fun u => (runBeats u c).trans (ih _)
  exact each _ s

end RunOn

/-! ## The departure of a plan (R97, R100, R128, R139) -/

/-- The tally a plan opens as it departs (R97). -/
def departureTally (p : PlanRecord) : OpenTally where
  planSequence := p.sequence
  n := p.openings
  outstanding := p.requestElements
  empty := 0
  success := 0
  collided := 0

/-- A departing plan with a REQUEST element opens its tally, and one without is offered to LATEST TALLY at once (R97). -/
theorem openTally_eq (s : State) (c : ChanNo) (p : PlanRecord) :
    s.openTally c p.sequence p.openings p.requestElements =
      if (departureTally p).outstanding = 0 then s.offerTally c (departureTally p)
      else
        s.putContention c
          { s.contentionOf c with openTallies := (s.contentionOf c).openTallies ++ [departureTally p] } := rfl

theorem tallyFrame_openTally (s : State) (c : ChanNo) (p : PlanRecord) :
    s.TallyFrame (s.openTally c p.sequence p.openings p.requestElements) := by
  rw [openTally_eq]
  split
  · exact tallyFrame_offerTally (show s.TallyFrame s from rfl) c _
  · rfl

/-- The state with the entries and the tally of the departing plan of channel `c` made (R97, R139). -/
def granted (s : State) (c : ChanNo) : State :=
  (s.putExpectQueue c (s.expectQueue c ++ (s.emitHalfPlan c).entries (s.params c))).openTally c
    (s.emitHalfPlan c).sequence (s.emitHalfPlan c).openings (s.emitHalfPlan c).requestElements

theorem granted_frame (s : State) (c : ChanNo) :
    s.granted c =
      { s with
        expectQueues := (s.putExpectQueue c (s.expectQueue c ++ (s.emitHalfPlan c).entries (s.params c))).expectQueues
        contention := (s.granted c).contention, channelCounters := (s.granted c).channelCounters } :=
  tallyFrame_openTally _ c _

/-- The departure before the test of R13: the plan is sent, the emit half emptied, and PLANS SENT counts (R128). -/
def departed (s : State) (c : ChanNo) : State :=
  (((s.granted c).vacateEmitHalf c).count c .plansSent 1).sendPlanLink (planFrame c (s.emitHalfPlan c))

theorem departed_frame (s : State) (c : ChanNo) :
    s.departed c =
      { s with
        planStores := (s.vacateEmitHalf c).planStores
        expectQueues := (s.putExpectQueue c (s.expectQueue c ++ (s.emitHalfPlan c).entries (s.params c))).expectQueues
        contention := (s.granted c).contention
        channelCounters := ((s.granted c).count c .plansSent 1).channelCounters
        planLink := { s.planLink with sending := some (planFrame c (s.emitHalfPlan c)) } } := by
  unfold departed
  rw [granted_frame]
  rfl

section Departed

variable (s : State) (c : ChanNo)

@[simp] theorem departed_context (d : ChanNo) : (s.departed c).context d = s.context d := by rw [departed_frame]; rfl

/-- The plan of a channel no longer awaits departure once it has departed (R128). -/
theorem departed_awaits : (s.departed c).awaits c = false := by
  rw [departed_frame]
  exact congrArg (fun p : PlanStore => p.emitCondition == .awaitingDeparture) (planStore_putPlanStore_same s c _)

/-- The departure moves no deadline of another channel. -/
theorem departed_deadlineReached {d : ChanNo} (other : d ≠ c) : (s.departed c).deadlineReached d = s.deadlineReached d := by
  refine deadlineReached_congr (departed_context s c d) ?_ ?_ <;> rw [departed_frame]
  · exact planStore_putPlanStore_ne s other _
  · exact expectQueue_putExpectQueue_ne s other _

/-- A departing plan with a REQUEST element opens its tally and counts as sent (R97, R128). -/
theorem departed_opens (requests : (departureTally (s.emitHalfPlan c)).outstanding ≠ 0) :
    (s.departed c).contention =
        (s.putContention c
          { s.contentionOf c with
            openTallies := (s.contentionOf c).openTallies ++ [departureTally (s.emitHalfPlan c)] }).contention ∧
      (s.departed c).channelCounters = (s.count c .plansSent 1).channelCounters := by
  rw [departed_frame, granted, openTally_eq, if_neg requests]
  exact ⟨rfl, rfl⟩

/-- A departing plan with no REQUEST element offers its tally to LATEST TALLY at once, and counts as sent (R97, R100). -/
theorem departed_offers (none' : (departureTally (s.emitHalfPlan c)).outstanding = 0) :
    (s.departed c).contention =
        (s.putContention c
          { s.contentionOf c with
            latest := latestAfter (s.contentionOf c).latest (departureTally (s.emitHalfPlan c)) }).contention ∧
      ∀ d k,
        ((d = c ∧ (k = .plansSent ∨ TallyCounts (s.contentionOf c).latest (departureTally (s.emitHalfPlan c)) k)) →
          (s.departed c).counter d k = saturate (s.counter d k) 1) ∧
        (¬ (d = c ∧ (k = .plansSent ∨ TallyCounts (s.contentionOf c).latest (departureTally (s.emitHalfPlan c)) k)) →
          (s.departed c).counter d k = s.counter d k) := by
  have granted' : s.granted c =
      (s.putExpectQueue c (s.expectQueue c ++ (s.emitHalfPlan c).entries (s.params c))).offerTally c
        (departureTally (s.emitHalfPlan c)) := by
    rw [granted, openTally_eq, if_pos none']
  obtain ⟨latest, counts⟩ := offerTally_offers
    (s.putExpectQueue c (s.expectQueue c ++ (s.emitHalfPlan c).entries (s.params c))) c
    (departureTally (s.emitHalfPlan c))
  rw [← granted'] at latest counts
  have sent (d : ChanNo) (k : ChannelCounter) :
      (s.departed c).counter d k =
        if d = c ∧ k = .plansSent then saturate ((s.granted c).counter c .plansSent) 1 else (s.granted c).counter d k := by
    rw [departed_frame]
    exact counter_count (s.granted c) c d .plansSent k 1
  have unsent : ¬ TallyCounts (s.contentionOf c).latest (departureTally (s.emitHalfPlan c)) .plansSent := fun own => by
    simpa using tallyCounts_own own
  refine ⟨by rw [departed_frame]; exact latest, fun d k => ⟨?_, fun others => ?_⟩⟩
  · rintro ⟨rfl, rfl | own⟩
    · rw [sent, if_pos ⟨rfl, rfl⟩, (counts d _).2 (fun both => unsent both.2)]
      rfl
    · rw [sent, if_neg (by rintro ⟨-, rfl⟩; exact unsent own), (counts d k).1 ⟨rfl, own⟩]
      rfl
  · rw [sent, if_neg (fun both => others ⟨both.1, .inl both.2⟩),
      (counts d k).2 (fun both => others ⟨both.1, .inr both.2⟩)]
    rfl

/-- The test of R13 behind a departure: what it reads of the state before the departure, and what it leaves. -/
theorem testStop_departed :
    (((s.context c).state = .draining ∧ (s.context c).drainMark = .afterFinalSwap ∧ (s.departed c).expectQueue c = []) ∧
      (s.departed c).testStop c =
        ((s.departed c).putContext c (stopContext (s.context c))).raise (.channelStopped c .orderly)) ∨
    (¬ ((s.context c).state = .draining ∧ (s.context c).drainMark = .afterFinalSwap ∧ (s.departed c).expectQueue c = []) ∧
      (s.departed c).testStop c = s.departed c) := by
  have stops : (s.departed c).stopsNow c = true ↔
      (s.context c).state = .draining ∧ (s.context c).drainMark = .afterFinalSwap ∧ (s.departed c).expectQueue c = [] := by
    simp [stopsNow, and_assoc, departed_awaits]
  rw [← stops]
  obtain ⟨no, e⟩ | ⟨yes, e⟩ := testStop_cases (s.departed c) c
  · exact .inr ⟨by simp [no], e⟩
  · exact .inl ⟨yes, by rw [e, departed_context]⟩

end Departed

/-! ### What a departure leaves once every channel has gone on with its beats (R8, R13) -/

section LeftByDeparture

variable {s t : State} {c : ChanNo} (run : ((s.departed c).testStop c).RunOn t)

include run

theorem departure_frame : t = { s.departed c with channels := t.channels, notices := t.notices } := by
  rw [run.frame, (testStop_frame (s.departed c) c).1]

theorem departure_notices : t.notices = ((s.departed c).testStop c).notices := by rw [run.frame]

theorem departure_expectQueue : t.expectQueue c = (s.departed c).expectQueue c := by
  rw [departure_frame run]
  rfl

/-- The last plan of a DRAINING channel with nothing left to expect stops it (R13). -/
theorem departure_stops
    (ended : (s.context c).state = .draining ∧ (s.context c).drainMark = .afterFinalSwap ∧ t.expectQueue c = []) :
    t.context c = stopContext (s.context c) ∧ t.notices = (s.raise (.channelStopped c .orderly)).notices := by
  rw [departure_expectQueue run] at ended
  have notices := departure_notices run
  obtain ⟨-, e⟩ | ⟨goes, -⟩ := testStop_departed s c
  · have stopped : ((s.departed c).testStop c).context c = stopContext (s.context c) := by
      rw [e]
      exact context_putContext_same _ c _
    exact ⟨(run.stands c (.inl (by rw [stopped]; rfl))).trans stopped, by rw [notices, e, departed_frame]; rfl⟩
  · exact absurd ended goes

/-- Any other channel whose plan has departed goes on with its beats (R8). -/
theorem departure_goesOn
    (goes : ¬ ((s.context c).state = .draining ∧ (s.context c).drainMark = .afterFinalSwap ∧ t.expectQueue c = [])) :
    t.context c =
        { s.context c with currentBeat := (t.context c).currentBeat, beatsToReach := (t.context c).beatsToReach } ∧
      t.notices = s.notices := by
  rw [departure_expectQueue run] at goes
  have notices := departure_notices run
  have context := run.context c
  obtain ⟨ended, -⟩ | ⟨-, e⟩ := testStop_departed s c
  · exact absurd ended goes
  · rw [e] at context notices
    exact ⟨context.trans (by rw [departed_context]), by rw [notices, departed_frame]⟩

/-- The other channels only go on with their beats, and one that has none, or stands at a deadline, stays (R8). -/
theorem departure_others {d : ChanNo} (other : d ≠ c) :
    t.context d =
        { s.context d with currentBeat := (t.context d).currentBeat, beatsToReach := (t.context d).beatsToReach } ∧
      ((s.context d).beatsToReach = 0 ∨ s.deadlineReached d = true → t.context d = s.context d) := by
  have tested : ((s.departed c).testStop c).context d = s.context d := by
    obtain ⟨-, e⟩ | ⟨-, e⟩ := testStop_departed s c <;> rw [e]
    · exact (context_putContext_ne _ other _).trans (departed_context s c d)
    · exact departed_context s c d
  have deadlines : ((s.departed c).testStop c).deadlineReached d = s.deadlineReached d := by
    rw [← departed_deadlineReached s c other]
    refine deadlineReached_congr (tested.trans (departed_context s c d).symm) ?_ ?_ <;>
      rw [(testStop_frame (s.departed c) c).1] <;> rfl
  refine ⟨(run.context d).trans (by rw [tested]), fun still => (run.stands d ?_).trans tested⟩
  rwa [tested, deadlines]

end LeftByDeparture

end State

/-- Settles O26: a quiet state is its own settled state, and each event then writes its one field. -/
theorem linkEventsSetHoldAndSending : Obligations.LinkEventsSetHoldAndSending := by
  intro s quiet
  have settled := State.settle_quiet quiet
  have taken (event : State → State) :
      (Host.Outcome.next (event s.settle) : Host.Outcome State Fault Refusal) = .next (event s) := by rw [settled]
  have planEnd : exec .planLinkFrameEnd s = .next s.planLinkEnd := taken State.planLinkEnd
  have systemEnd : exec .systemLinkFrameEnd s = .next s.systemLinkEnd := taken State.systemLinkEnd
  refine ⟨taken (State.putPlanLinkHold · true), taken (State.putPlanLinkHold · false), fun f sending => ?_,
    fun f sending => ?_,
    fun idle => ?_, fun idle => ?_⟩
  · rw [planEnd, State.planLinkEnd, sending]
    rfl
  · rw [systemEnd, State.systemLinkEnd, sending]
    rfl
  · rw [planEnd, State.planLinkEnd, idle]
  · rw [systemEnd, State.systemLinkEnd, idle]

/-- Settles O25: what goes ahead of the adjust queue is State.nextDeparture_isNone, and the frame's fields are
State.adjustFrame_fields. -/
theorem adjustFrameDepartsBehindPlans : Obligations.AdjustFrameDepartsBehindPlans := by
  intro s a q queue
  refine ⟨fun released idle nobody => ?_, fun busy => ?_⟩
  · have accepts := (State.planLinkAccepts_iff s).2 ⟨released, idle⟩
    have departs : s.adjustDeparture = some a := by
      simp [State.adjustDeparture, accepts, (State.nextDeparture_isNone s).2 nobody, queue]
    show Host.Outcome.next s.adjustDepartureStep = _
    rw [State.adjustDepartureStep, departs]
    simp only [State.adjustFrame_fields, queue]
    rfl
  · have stays : (s.planLinkAccepts && s.nextDeparture.isNone) = false := by
      rw [← Bool.not_eq_true, Bool.and_eq_true, State.planLinkAccepts_iff, State.nextDeparture_isNone]
      rintro ⟨⟨released, idle⟩, nobody⟩
      obtain held | sending | ⟨c, waits⟩ := busy
      · simp [released] at held
      · simp [idle] at sending
      · simp [nobody c] at waits
    show Host.Outcome.next s.adjustDepartureStep = _
    rw [State.adjustDepartureStep, State.adjustDeparture, stays]
    rfl

/-- Settles O24: the plan is the one of State.nextDeparture_eq_some, State.departed_frame is what its departure leaves, and
State.departure_stops, departure_goesOn and departure_others what the channels then do. -/
theorem planDepartureMakesEntriesAndTally : Obligations.PlanDepartureMakesEntriesAndTally := by
  intro s c released idle waits first
  have step : s.planDepartureStep = ((s.departed c).testStop c).runAllBeats := by
    rw [State.planDepartureStep, if_pos ((State.planLinkAccepts_iff s).2 ⟨released, idle⟩),
      State.nextDeparture_eq_some waits first]
    rfl
  have run := State.RunOn.runAllBeats ((s.departed c).testStop c)
  generalize ((s.departed c).testStop c).runAllBeats = t at *
  have left := State.departure_frame run
  refine ⟨t, s.emitHalfPlan c, State.departureTally (s.emitHalfPlan c), congrArg Host.Outcome.next step, rfl, rfl, ?_, ?_,
    fun requests => ?_, fun none' => ?_, ?_, State.departure_stops run, State.departure_goesOn run,
    fun d => State.departure_others run, ?_⟩
  · rw [left, State.departed_frame, ← State.planFrame_fields]
  · rw [left, State.departed_frame]
    refine congrArg (fun q => (s.putExpectQueue c (s.expectQueue c ++ q)).expectQueues) (List.filterMap_congr fun e _ => ?_)
    unfold Element.entry ElementBody.grant
    cases e.body <;> rfl
  · obtain ⟨opened, counted⟩ := State.departed_opens s c requests
    rw [left]
    exact ⟨opened, counted⟩
  · obtain ⟨offered, counted⟩ := State.departed_offers s c none'
    rw [left]
    exact ⟨offered, counted⟩
  · rw [left, State.departed_frame]
    rfl
  · rw [left, State.departed_frame]

end Sys2Proof.Machine
end

section
/-! SUPPORT. The Plan Store at a deadline: the half of a DIRECTED channel judged at its swap, the charges of a withdrawn plan,
and the withdrawal itself (R13, R124, R130, R131, R136). -/

namespace Sys2Proof.Machine

namespace State

/-! ## The half of a DIRECTED channel at its swap (R136) -/

/-- The half of a DIRECTED channel as it is swapped: the half written if it is ready, and an idle plan if it is not
(R136). -/
def judgedHalf (s : State) (c : ChanNo) : PlanRecord :=
  if (s.buildHalf c).ready then s.readyHalf c (s.buildCondition c != .queued) else s.idlePlan c

/-- What the event leaves for the swap of a DIRECTED half: its request gone from the build queue, if one still waited, and the
half judged (R82, R136). -/
def judged (s : State) (c : ChanNo) : State :=
  { s with
    buildQueue :=
      if s.buildCondition c = .queued then s.buildQueue.filter (fun r => r.channel != c) else s.buildQueue
    planStores := (s.putBuildHalf c (s.judgedHalf c)).planStores
    channelCounters := if (s.buildHalf c).ready then s.channelCounters else (s.count c .idlePlans 1).channelCounters }

/-- The Plan Builder takes the request of a DIRECTED channel off the queue, if one still waits (R82). -/
theorem builderAct_directed {s : State} {c : ChanNo} (directed : (s.params c).sourceMode = .directed)
    (unbegun : s.buildCondition c = .none ∨ s.buildCondition c = .queued) :
    s.builderAct c = s.putBuildQueue (s.judged c).buildQueue := by
  obtain idle | queued := unbegun
  · simp only [builderAct, judged, idle]
    rfl
  · simp only [builderAct, judged, queued, fallBack, directed]
    rfl

/-- The event of the emit time of a DIRECTED channel judges its half and swaps it (R124, R136). -/
theorem emitEvent_directed {s : State} {c : ChanNo} (directed : (s.params c).sourceMode = .directed)
    (unbegun : s.buildCondition c = .none ∨ s.buildCondition c = .queued) : s.emitEvent c = (s.judged c).swap c := by
  have mode : ((s.putBuildQueue (s.judged c).buildQueue).params c).sourceMode = .directed := directed
  refine congrArg (State.swap · c) ?_
  rw [builderAct_directed directed unbegun, judgeHalf, mode]
  by_cases ready : (s.buildHalf c).ready = true
  · refine (if_pos ready).trans ?_
    simp only [judged, judgedHalf, ready, if_true]
    rfl
  · refine (if_neg ready).trans ?_
    simp only [judged, judgedHalf, ready, Bool.false_eq_true, if_false]
    rfl

/-- The swap of whatever the event of an emit time makes of the build half, and beats reached behind it (R8, R124). -/
theorem emitTimeStep_of_event {s w : State} {c : ChanNo} (reached : s.emitTimeReached c = true)
    (event : s.emitEvent c = w.swap c) :
    w.Swapped (s.emitTimeStep c) c (w.buildHalf c) w.buildQueue ∧ w.EmitFrame (s.emitTimeStep c) c ∧
      (s.emitTimeStep c).channelCounters = w.channelCounters ∧ (s.emitTimeStep c).notices = w.notices := by
  obtain ⟨frame, counters, notices⟩ := emitFrame_swap w c
  obtain ⟨swapped', frame', counters', notices'⟩ := swapped_reaches (swapped_swap w c) frame
  rw [emitTimeStep, if_pos reached, event]
  split
  · exact ⟨swapped_swap w c, frame, counters, notices⟩
  · exact ⟨swapped', frame', counters'.trans counters, notices'.trans notices⟩

theorem judged_counter (s : State) (c d : ChanNo) (k : ChannelCounter) :
    (s.judged c).counter d k =
      if d = c ∧ k = .idlePlans ∧ (s.buildHalf c).ready = false then saturate (s.counter d k) 1 else s.counter d k := by
  by_cases ready : (s.buildHalf c).ready = true
  · rw [if_neg (fun idle => by simp [ready] at idle)]
    exact congrArg (fun v => vget (vget v d) k.index) (if_pos ready)
  · have counted : (s.judged c).counter d k = (s.count c .idlePlans 1).counter d k :=
      congrArg (fun v => vget (vget v d) k.index) (if_neg ready)
    simp only [counted, counter_count, ready, and_true]
    split
    · next same => rw [same.1, same.2]
    · rfl

/-- The header of a half that is swapped ready, and the idle plan of one that is not, written out (R136). -/
theorem judgedHalf_eq (s : State) (c : ChanNo) :
    s.judgedHalf c =
      if (s.buildHalf c).ready then
        { s.buildHalf c with
          start := (s.context c).nextStart, requestMark := vget s.requestMarks c
          profileNumber :=
            if s.buildCondition c = .queued then (s.context c).profileNumber else (s.buildHalf c).profileNumber
          backoffStart :=
            if s.buildCondition c = .queued then (s.contentionOf c).backoffStart else (s.buildHalf c).backoffStart
          backoffEnd :=
            if s.buildCondition c = .queued then (s.params c).backoffCeiling else (s.buildHalf c).backoffEnd }
      else
        { start := (s.context c).nextStart, planSequence := none
          profileNumber := (s.context c).profileNumber, requestMark := vget s.requestMarks c
          backoffStart := (s.contentionOf c).backoffStart, backoffEnd := (s.params c).backoffCeiling
          cut := false, fallback := false, idle := true
          elements := [{ offset := 0, length := (s.params c).planLength, body := .idle }], ready := false } := by
  unfold judgedHalf readyHalf
  by_cases queued : s.buildCondition c = .queued
  · simp [queued]
    rfl
  · simp [queued]
    rfl

end State

/-- Settles O9: State.emitEvent_directed says what is swapped, State.judgedHalf_eq its header, and
State.emitTimeStep_of_event what the swap leaves. -/
theorem emitTimeJudgesADirectedHalf : Obligations.EmitTimeJudgesADirectedHalf := by
  intro s c reached directed unbegun
  obtain ⟨swapped, ⟨frame, others⟩, counters, notices⟩ :=
    State.emitTimeStep_of_event reached (State.emitEvent_directed directed unbegun)
  obtain ⟨-, emitHalf, -, -⟩ := State.planStore_putBuildHalf s c (s.judgedHalf c) c
  refine ⟨s.emitTimeStep c, rfl, ?_, ⟨?_, fun d other => ?_⟩, notices, fun d k => ?_⟩
  · rw [← State.judgedHalf_eq, ← State.buildHalf_putBuildHalf s c (s.judgedHalf c)]
    exact State.swapped_agree swapped rfl emitHalf (fun _ => rfl)
  · rw [frame]
    rfl
  · obtain ⟨context, store, condition⟩ := others d other
    exact ⟨context, store.trans ((State.planStore_putBuildHalf s c _ d).2.2.2 other), condition⟩
  · rw [State.counter, counters]
    exact State.judged_counter s c d k

namespace State

/-! ## A charge restored or forfeited (R131) -/

theorem chargeReturns_iff (s : State) (c : ChanNo) (n : StationNo) (f : FlowNo) :
    s.chargeReturns c n f = true ↔
      (s.flow f).state = .active ∧ (s.flow f).station = some n ∧ (s.station n).state = .online ∧
        (s.station n).channel = c := by
  simp [chargeReturns, and_assoc]

/-- The charge of a DATA element is restored or forfeited as its flow and station stand (R131). -/
theorem restoreElement_data (s : State) (c : ChanNo) (n : StationNo) (f : FlowNo) (k o g : Nat) :
    restoreElement c ⟨s, 0, 0⟩ ⟨o, g, .data n f (some k)⟩ =
      if s.chargeReturns c n f then ⟨s.restoreCharge c f k, 1, 0⟩ else ⟨s.count c .chargesForfeited 1, 0, 1⟩ := rfl

/-- A flow with its charge restored, counted, and not yet enlisted (R131). -/
def recharged (s : State) (c : ChanNo) (f : FlowNo) (k : Nat) : State :=
  (s.putFlow f ((s.flow f).restored k)).count c .chargesRestored 1

@[simp] theorem recharged_flow_same (s : State) (c : ChanNo) (f : FlowNo) (k : Nat) :
    (s.recharged c f k).flow f = (s.flow f).restored k := flow_putFlow_same s f _

/-- A charge restored writes BACKLOG and CREDIT of its flow, and LIST LEVEL where the flow then joins a list; no other flow
(R57, R131). -/
theorem restoreCharge_flow (s : State) (c : ChanNo) (f : FlowNo) (k : Nat) :
    (∃ l, (s.restoreCharge c f k).flow f = { (s.flow f).restored k with listLevel := l }) ∧
      ∀ g, g ≠ f → (s.restoreCharge c f k).flow g = s.flow g := by
  have others (g : FlowNo) (other : g ≠ f) : (s.recharged c f k).flow g = s.flow g := flow_putFlow_ne s other _
  show (∃ l, ((s.recharged c f k).enlist f).flow f = _) ∧ ∀ g, g ≠ f → ((s.recharged c f k).enlist f).flow g = _
  obtain ⟨-, e⟩ | ⟨m, -, -, -, e⟩ := enlist_cases (s.recharged c f k) f <;> rw [e]
  · exact ⟨⟨_, recharged_flow_same s c f k⟩, others⟩
  · refine ⟨⟨_, (flow_putFlow_same _ f _).trans (by rw [recharged_flow_same])⟩, fun g other => ?_⟩
    exact (flow_putFlow_ne _ other _).trans (others g other)

/-- A charge restored counts once (R131). -/
theorem restoreCharge_counter (s : State) (c : ChanNo) (f : FlowNo) (k : Nat) (d : ChanNo) (j : ChannelCounter) :
    (s.restoreCharge c f k).counter d j =
      if d = c ∧ j = .chargesRestored then saturate (s.counter d j) 1 else s.counter d j := by
  have counted : (s.restoreCharge c f k).counter d j = (s.recharged c f k).counter d j := by
    show ((s.recharged c f k).enlist f).counter d j = _
    obtain ⟨-, e⟩ | ⟨m, -, -, -, e⟩ := enlist_cases (s.recharged c f k) f <;> rw [e]
    rfl
  rw [counted, recharged, counter_count]
  split
  · next same => rw [same.1, same.2]; rfl
  · rfl

/-- An enlisted flow whose charge is restored stays where it is enlisted (R57). -/
theorem restoreCharge_enlisted {s : State} {f : FlowNo} {l : Level} (enlisted : (s.flow f).listLevel = some l) (c : ChanNo)
    (k : Nat) : (s.restoreCharge c f k).activeLists = s.activeLists := by
  show ((s.recharged c f k).enlist f).activeLists = _
  obtain ⟨-, e⟩ | ⟨m, -, out, -, -⟩ := enlist_cases (s.recharged c f k) f
  · rw [e]
    rfl
  · rw [recharged_flow_same] at out
    exact absurd (enlisted.symm.trans out) nofun

/-- A flow whose charge is restored and that then meets the enlistment law joins the tail of its level (R56, R57). -/
theorem restoreCharge_joins {s : State} {c : ChanNo} {n : StationNo} {f : FlowNo} {k : Nat}
    (returns : s.chargeReturns c n f = true) (out : (s.flow f).listLevel = none) (elastic : (s.flow f).kind = .elastic)
    (backlog : 0 < (s.flow f).backlog + k) :
    ((s.restoreCharge c f k).flow f).listLevel = some (s.classOf f).priority ∧
      (s.restoreCharge c f k).activeLists =
        (s.putActive c (s.classOf f).priority (s.active c (s.classOf f).priority ++ [f])).activeLists := by
  obtain ⟨active, of, online, here⟩ := (chargeReturns_iff s c n f).1 returns
  have station : ((s.recharged c f k).flow f).station = some n := by
    rw [recharged_flow_same]
    exact of
  have cls : (s.recharged c f k).classOf f = s.classOf f := by
    unfold classOf
    rw [recharged_flow_same, show ((s.flow f).restored k).station = some n from of, of]
    rfl
  have meets : ((s.recharged c f k).meetsEnlistment f && ((s.recharged c f k).flow f).listLevel.isNone) = true := by
    have online' : (s.recharged c f k).flowOnline f = true := by
      rw [flowOnline, station]
      exact beq_iff_eq.2 online
    rw [meetsEnlistment, online', recharged_flow_same]
    simp [Flow.restored, active, elastic, out, Config.maxBacklog]
    omega
  show (((s.recharged c f k).enlist f).flow f).listLevel = _ ∧ ((s.recharged c f k).enlist f).activeLists = _
  obtain ⟨no, -⟩ | ⟨m, -, -, of', e⟩ := enlist_cases (s.recharged c f k) f
  · rw [no] at meets
    cases meets
  · obtain rfl := Option.some.inj (station.symm.trans of')
    rw [e, flow_putFlow_same, cls, ← here]
    exact ⟨rfl, rfl⟩

end State

/-- Settles O11: the two outcomes are those of State.restoreElement_data, and what a restored charge leaves is said by the
lemmas on State.restoreCharge. -/
theorem chargesAreRestoredOrForfeited : Obligations.ChargesAreRestoredOrForfeited := by
  intro s c n f k o g t returns
  have outcome := State.restoreElement_data s c n f k o g
  refine ⟨fun back => ?_, fun lost => ?_, rfl⟩
  · have charge := (State.chargeReturns_iff s c n f).2 back
    have left : t = ⟨s.restoreCharge c f k, 1, 0⟩ := outcome.trans (if_pos charge)
    obtain ⟨⟨l, flow⟩, others⟩ := State.restoreCharge_flow s c f k
    have joins := State.restoreCharge_joins (k := k) charge
    rw [left]
    refine ⟨rfl, rfl, ?_, ?_, ?_, ?_, ?_, fun x enlisted => State.restoreCharge_enlisted enlisted c k, joins, others,
      State.restoreCharge_counter s c f k⟩ <;> dsimp only <;> rw [flow] <;> rfl
  · have forfeits : ¬ s.chargeReturns c n f = true := fun charge => lost ((State.chargeReturns_iff s c n f).1 charge)
    have left : t = ⟨s.count c .chargesForfeited 1, 0, 1⟩ := outcome.trans (if_neg forfeits)
    rw [left]
    exact ⟨rfl, rfl, rfl⟩

namespace State

/-! ## The withdrawal of a plan (R13, R130, R131) -/

theorem risen_eq_saturate {v : Nat} (bounded : v ≤ 4294967295) (k : Nat) : risen v k = saturate v k := by
  unfold risen saturate Config.maxCounter
  split <;> omega

/-- The end of a deadline event of a state that differs from `s` in nothing that it reads of the channels and the notices. -/
theorem stopsOrGoesOn_agree {s u t : State} {c : ChanNo} (h : u.StopsOrGoesOn t c) (channels : u.channels = s.channels)
    (notice : u.notice .channelStopped = s.notice .channelStopped) (enable : u.noticeEnable = s.noticeEnable) :
    s.StopsOrGoesOn t c := by
  have context (d : ChanNo) : u.context d = s.context d := congrArg (fun v => vget v d) channels
  unfold StopsOrGoesOn Raised at h ⊢
  simp only [NoticeDetail.kind, context, notice, enable] at h ⊢
  exact h

/-- A channel whose plan has left keeps its build half (R128, R130). -/
theorem vacateEmitHalf_halves (s : State) (c : ChanNo) :
    (s.vacateEmitHalf c).emitHalfPlan c = PlanRecord.empty ∧ (s.vacateEmitHalf c).buildHalf c = s.buildHalf c := by
  unfold emitHalfPlan buildHalf PlanStore.emitPlan PlanStore.buildPlan vacateEmitHalf
  rw [planStore_putPlanStore_same]
  cases half : (s.planStore c).emitHalf <;> simp [PlanStore.putHalf, PlanStore.half, HalfName.other, half]

/-- The charges of the plan that channel `c` withdraws, restored and forfeited (R131). -/
def withdrawnCharges (s : State) (c : ChanNo) : Restoration := s.restoreCharges c (s.emitHalfPlan c).elements

/-- What a withdrawn plan leaves: its charges restored or forfeited, its half empty, itself counted and noticed (R130). -/
theorem withdrawPlan_frame (s : State) (c : ChanNo) :
    s.withdrawPlan c =
      { s with
        flows := (s.withdrawnCharges c).state.flows, activeLists := (s.withdrawnCharges c).state.activeLists
        planStores := (s.vacateEmitHalf c).planStores
        channelCounters := ((s.withdrawnCharges c).state.count c .plansWithdrawn 1).channelCounters
        notices :=
          (s.raise
            (.planWithdrawn c (s.emitHalfPlan c).sequence (s.emitHalfPlan c).start (s.withdrawnCharges c).restored
              (s.withdrawnCharges c).forfeited)).notices } := by
  obtain ⟨frame, -⟩ := restoreCharges_leaves s c (s.emitHalfPlan c).elements
  show ((((s.withdrawnCharges c).state.vacateEmitHalf c).count c .plansWithdrawn 1).raise
    (.planWithdrawn c (s.emitHalfPlan c).sequence (s.emitHalfPlan c).start (s.withdrawnCharges c).restored
      (s.withdrawnCharges c).forfeited)) = _
  change s.ChargeFrame (s.withdrawnCharges c).state at frame
  unfold ChargeFrame at frame
  rw [frame]
  rfl

/-- A withdrawal counts the plan, and each charge as restored or forfeited (R130, R131). -/
theorem withdrawPlan_counters {s : State} (bounded : s.CountersBounded) (c : ChanNo) :
    (s.withdrawPlan c).counter c .plansWithdrawn = saturate (s.counter c .plansWithdrawn) 1 ∧
      (s.withdrawPlan c).counter c .chargesRestored =
        saturate (s.counter c .chargesRestored) (s.withdrawnCharges c).restored ∧
      (s.withdrawPlan c).counter c .chargesForfeited =
        saturate (s.counter c .chargesForfeited) (s.withdrawnCharges c).forfeited ∧
      ∀ d j, ¬ (d = c ∧ (j = .plansWithdrawn ∨ j = .chargesRestored ∨ j = .chargesForfeited)) →
        (s.withdrawPlan c).counter d j = s.counter d j := by
  obtain ⟨-, restored, forfeited, others⟩ := restoreCharges_leaves s c (s.emitHalfPlan c).elements
  have counted (d : ChanNo) (j : ChannelCounter) :
      (s.withdrawPlan c).counter d j =
        if d = c ∧ j = .plansWithdrawn then saturate ((s.withdrawnCharges c).state.counter c .plansWithdrawn) 1
        else (s.withdrawnCharges c).state.counter d j := by
    rw [withdrawPlan_frame]
    exact counter_count (s.withdrawnCharges c).state c d .plansWithdrawn j 1
  rw [risen_eq_saturate (bounded.1 c _)] at restored forfeited
  refine ⟨?_, ?_, ?_, fun d j other => ?_⟩
  · rw [counted, if_pos ⟨rfl, rfl⟩, withdrawnCharges, others c _ (by simp)]
  · rw [counted, if_neg (by simp)]
    exact restored
  · rw [counted, if_neg (by simp)]
    exact forfeited
  · rw [counted, if_neg (fun both => other ⟨both.1, .inl both.2⟩)]
    exact others d j (fun both => other ⟨both.1, .inr both.2⟩)

/-- A withdrawal raises its own notice, and no other (R130). -/
theorem withdrawPlan_notices (s : State) (c : ChanNo) :
    s.Raised (s.withdrawPlan c)
        (.planWithdrawn c (s.emitHalfPlan c).sequence (s.emitHalfPlan c).start (s.withdrawnCharges c).restored
          (s.withdrawnCharges c).forfeited) ∧
      ∀ k, k ≠ .planWithdrawn → (s.withdrawPlan c).notice k = s.notice k := by
  have noticed := congrArg State.notices (withdrawPlan_frame s c)
  refine ⟨raised_notices (raised_raise (s := s) (u := s) _ rfl rfl) noticed, fun k other => ?_⟩
  rw [notice, noticed]
  exact notice_raise_ne s _ other

end State

/-- Settles O10: what the withdrawal leaves is State.withdrawPlan_frame, what it counts and notices
State.withdrawPlan_counters and withdrawPlan_notices, and the end of the event State.testStop_runBeats. -/
theorem withdrawalTakesThePlanBack : Obligations.WithdrawalTakesThePlanBack := by
  intro s c bounded reached
  have step : s.withdrawalStep c = ((s.withdrawPlan c).testStop c).runBeats c := if_pos reached
  have ends := State.testStop_runBeats (s.withdrawPlan c) c
  obtain ⟨frame, quiet⟩ := State.testStop_runBeats_frame (s.withdrawPlan c) c
  generalize ((s.withdrawPlan c).testStop c).runBeats c = t at *
  have withdrawn := State.withdrawPlan_frame s c
  obtain ⟨plans, restored, forfeited, others⟩ := State.withdrawPlan_counters bounded c
  obtain ⟨raised, unraised⟩ := State.withdrawPlan_notices s c
  obtain ⟨emptied, built⟩ := State.vacateEmitHalf_halves s c
  have counter (d : ChanNo) (j : ChannelCounter) : t.counter d j = (s.withdrawPlan c).counter d j := by rw [frame]; rfl
  have stores : t.planStores = (s.vacateEmitHalf c).planStores := by rw [frame, withdrawn]
  have store : t.planStore c = (s.vacateEmitHalf c).planStore c := congrArg (fun v => vget v c) stores
  refine ⟨t, s.withdrawnCharges c, congrArg Host.Outcome.next step, rfl, ?_, ?_,
    (State.restoreElement_counts c (s.emitHalfPlan c).elements ⟨s, 0, 0⟩).trans (Nat.zero_add _), stores,
    (congrArg PlanStore.emitPlan store).trans emptied, (congrArg PlanStore.buildPlan store).trans built,
    (counter c _).trans plans, (counter c _).trans restored, (counter c _).trans forfeited,
    fun d j apart => (counter d j).trans (others d j apart), State.stopsOrGoesOn_agree ends ?_ (unraised _ nofun) ?_,
    (quiet .planWithdrawn nofun).trans raised, fun k apart stop => (quiet k stop).trans (unraised k apart), ?_⟩
  · rw [frame, withdrawn]
  · rw [frame, withdrawn]
  · rw [withdrawn]
  · rw [withdrawn]
  · rw [frame, withdrawn]

end Sys2Proof.Machine
end

section
/-! SUPPORT. The layout of a DIRECTED plan: where its check fails (R134; assumption 23). -/

namespace Sys2Proof.Machine

/-- From beat `o` on, the elements of `timed` follow one another without a gap, and only `holds` are HOLD elements (R134). -/
structure LaidOut (o : Nat) (timed holds : List Element) : Prop where
  ahead : ∀ e ∈ timed, e.isHold = false
  behind : ∀ e ∈ holds, e.isHold = true
  offsets : ∀ (k : Nat) (e : Element), timed[k]? = some e → e.offset = o + beatsOf (timed.take k)

@[simp] theorem beatsOf_nil : beatsOf [] = 0 := rfl

@[simp] theorem beatsOf_cons (e : Element) (q : List Element) : beatsOf (e :: q) = e.length + beatsOf q := by
  simp [beatsOf]

theorem laidOut_cons {o : Nat} {e : Element} {timed holds : List Element} :
    LaidOut o (e :: timed) holds ↔ e.isHold = false ∧ e.offset = o ∧ LaidOut (o + e.length) timed holds := by
  refine ⟨fun h => ⟨h.ahead e List.mem_cons_self, by simpa using h.offsets 0 e rfl, fun x among =>
    h.ahead x (List.mem_cons_of_mem e among), h.behind, fun k x at' => ?_⟩, fun ⟨first, here, later⟩ =>
    ⟨List.forall_mem_cons.2 ⟨first, later.ahead⟩, later.behind, fun k x at' => ?_⟩⟩
  · have offset := h.offsets (k + 1) x at'
    rw [List.take_succ_cons, beatsOf_cons] at offset
    omega
  · cases k with
    | zero =>
      obtain rfl := Option.some.inj at'
      simpa using here
    | succ k =>
      have offset := later.offsets k x at'
      rw [List.take_succ_cons, beatsOf_cons]
      omega

theorem laidOut_zero {timed holds : List Element} :
    LaidOut 0 timed holds ↔
      (∀ e ∈ timed, e.isHold = false) ∧ (∀ e ∈ holds, e.isHold = true) ∧
        ∀ (k : Nat) (e : Element), timed[k]? = some e → e.offset = beatsOf (timed.take k) := by
  refine ⟨fun ⟨ahead, behind, offsets⟩ => ⟨ahead, behind, fun k e at' => ?_⟩, fun ⟨ahead, behind, offsets⟩ =>
    ⟨ahead, behind, fun k e at' => ?_⟩⟩
  · exact (offsets k e at').trans (Nat.zero_add _)
  · exact (offsets k e at').trans (Nat.zero_add _).symm

section LayoutCheck

variable {lp i o last : Nat} {held : Bool} {e : Element} {q : List Element}

/-! ## One element of the check -/

theorem layoutFailure_hold (hold : e.isHold = true) :
    layoutFailure lp i o last held (e :: q) = layoutFailure lp (i + 1) o last true q := by
  rw [layoutFailure, if_pos hold]

theorem layoutFailure_follows (timed : e.isHold = false) (here : e.offset = o) :
    layoutFailure lp i o last false (e :: q) = layoutFailure lp (i + 1) (o + e.length) i false q := by
  simp [layoutFailure, timed, here]

theorem layoutFailure_misplaced (timed : e.isHold = false) (wrong : held = true ∨ e.offset ≠ o) :
    layoutFailure lp i o last held (e :: q) = some i := by
  have fails : (held || e.offset != o) = true := by simpa using wrong
  simp [layoutFailure, timed, fails]

end LayoutCheck

/-! ## The whole check -/

theorem layoutFailure_holds {lp o last : Nat} : ∀ {holds : List Element} (i : Nat) (held : Bool),
    (∀ e ∈ holds, e.isHold = true) →
    layoutFailure lp i o last held holds =
      if o = lp then none else if o < lp then some (i + holds.length) else some last
  | [], _, _, _ => rfl
  | e :: holds, i, held, all => by
    obtain ⟨hold, rest⟩ := List.forall_mem_cons.1 all
    rw [layoutFailure_hold hold, layoutFailure_holds (i + 1) true rest, List.length_cons, Nat.add_right_comm, Nat.add_assoc]

/-- Where the timed elements follow one another ahead of every HOLD, the check fails only by where they end (R134). -/
theorem layoutFailure_laidOut {lp : Nat} {holds : List Element} : ∀ {timed : List Element} {o : Nat} (i last : Nat),
    LaidOut o timed holds →
    layoutFailure lp i o last false (timed ++ holds) =
      if o + beatsOf timed = lp then none
      else if o + beatsOf timed < lp then some (i + (timed ++ holds).length)
      else some (if timed = [] then last else i + timed.length - 1)
  | [], o, i, last, laid => by simpa using layoutFailure_holds i false laid.behind
  | e :: timed, o, i, last, laid => by
    obtain ⟨first, here, later⟩ := laidOut_cons.1 laid
    have index : (if timed = [] then i else i + 1 + timed.length - 1) = i + (timed.length + 1) - 1 := by
      split
      · next none' => rw [none']; rfl
      · omega
    rw [List.cons_append, layoutFailure_follows first here, layoutFailure_laidOut (i + 1) i later, index, beatsOf_cons,
      ← Nat.add_assoc o, List.length_cons, List.length_cons, if_neg (List.cons_ne_nil e timed), Nat.add_right_comm i 1]
    rfl

/-- A check that does not fail has found the timed elements in their places, ahead of every HOLD, up to `lp` (R134). -/
theorem laidOut_of_layoutFailure {lp : Nat} : ∀ {q : List Element} {i o last : Nat} {held : Bool},
    layoutFailure lp i o last held q = none →
    ∃ timed holds, q = timed ++ holds ∧ LaidOut o timed holds ∧ o + beatsOf timed = lp ∧ (held = true → timed = [])
  | [], i, o, last, held, passes => by
    refine ⟨[], [], rfl, ⟨by simp, by simp, by simp⟩, ?_, fun _ => rfl⟩
    rw [layoutFailure] at passes
    split_ifs at passes with whole
    simpa using whole
  | e :: q, i, o, last, held, passes => by
    cases hold : e.isHold with
    | true =>
      rw [layoutFailure_hold hold] at passes
      obtain ⟨timed, holds, rfl, laid, whole, none'⟩ := laidOut_of_layoutFailure passes
      obtain rfl := none' rfl
      exact ⟨[], e :: holds, rfl, ⟨by simp, List.forall_mem_cons.2 ⟨hold, laid.behind⟩, by simp⟩, whole, fun _ => rfl⟩
    | false =>
      by_cases wrong : held = true ∨ e.offset ≠ o
      · rw [layoutFailure_misplaced hold wrong] at passes
        cases passes
      · obtain ⟨unheld, here⟩ := not_or.1 wrong
        obtain rfl : held = false := by simpa using unheld
        have here := not_not.1 here
        rw [layoutFailure_follows hold here] at passes
        obtain ⟨timed, holds, rfl, laid, whole, -⟩ := laidOut_of_layoutFailure passes
        refine ⟨e :: timed, holds, rfl, laidOut_cons.2 ⟨hold, here, laid⟩, ?_, nofun⟩
        rw [beatsOf_cons]
        omega

/-- The layout check passes exactly where the timed elements cover [0, Lp) in order, ahead of every HOLD (R134). -/
theorem layoutFailure_eq_none {lp : Nat} {q : List Element} :
    layoutFailure lp 0 0 0 false q = none ↔
      ∃ timed holds, q = timed ++ holds ∧ LaidOut 0 timed holds ∧ beatsOf timed = lp := by
  refine ⟨fun passes => ?_, ?_⟩
  · obtain ⟨timed, holds, split, laid, whole, -⟩ := laidOut_of_layoutFailure passes
    exact ⟨timed, holds, split, laid, (Nat.zero_add _).symm.trans whole⟩
  · rintro ⟨timed, holds, rfl, laid, whole⟩
    rw [layoutFailure_laidOut 0 0 laid, if_pos ((Nat.zero_add _).trans whole)]

/-- The check names the first timed element that stands behind a HOLD or not where the one before it ends (R134; assumption
23). -/
theorem layoutFailure_names {lp : Nat} : ∀ {q : List Element} {i o last : Nat} {held : Bool} {k : Nat} {e : Element},
    q[k]? = some e → e.isHold = false →
    (held = true ∨ (∃ h ∈ q.take k, h.isHold = true) ∨ e.offset ≠ o + beatsOf (q.take k)) →
    (∀ (j : Nat) (g : Element), j < k → q[j]? = some g → g.isHold = false →
      held = false ∧ (∀ h ∈ q.take j, h.isHold = false) ∧ g.offset = o + beatsOf (q.take j)) →
    layoutFailure lp i o last held q = some (i + k)
  | x :: q, i, o, last, held, 0, e, at', timed, wrong, _ => by
    obtain rfl := Option.some.inj at'
    exact layoutFailure_misplaced timed (by simpa using wrong)
  | x :: q, i, o, last, held, k + 1, e, at', timed, wrong, sound => by
    rw [← Nat.add_assoc, Nat.add_right_comm]
    cases hold : x.isHold with
    | true =>
      rw [layoutFailure_hold hold]
      refine layoutFailure_names at' timed (.inl rfl) fun j g below gAt gTimed => ?_
      obtain ⟨-, unheld, -⟩ := sound (j + 1) g (Nat.succ_lt_succ below) gAt gTimed
      exact absurd (hold.symm.trans (unheld x (by simp))) nofun
    | false =>
      obtain ⟨rfl, -, here⟩ := sound 0 x (Nat.succ_pos k) rfl hold
      rw [layoutFailure_follows hold (by simpa using here)]
      refine layoutFailure_names at' timed (.inr ?_) fun j g below gAt gTimed => ⟨rfl, ?_⟩
      · obtain false' | ⟨h, among, held'⟩ | off := wrong
        · cases false'
        · obtain rfl | later := List.mem_cons.1 among
          · rw [hold] at held'
            cases held'
          · exact .inl ⟨h, later, held'⟩
        · rw [List.take_succ_cons, beatsOf_cons] at off
          exact .inr (by omega)
      · obtain ⟨-, unheld, offset⟩ := sound (j + 1) g (Nat.succ_lt_succ below) gAt gTimed
        rw [List.take_succ_cons, beatsOf_cons] at offset
        exact ⟨fun h among => unheld h (List.mem_cons_of_mem x among), by omega⟩

end Sys2Proof.Machine
end

section
/-! SUPPORT. The operations of management on a DIRECTED half: the checks of R132, and PLAN-WRITE (R132, R133). -/

namespace Sys2Proof.Machine

/-! ## The elements of PLAN-WRITE (R133) -/

theorem asIndex_isSome {k i : Nat} : (asIndex k i).isSome = true ↔ i < k := by
  unfold asIndex
  split
  · next below => exact iff_of_true rfl below
  · next above => exact iff_of_false nofun above

theorem asIndex_lt {k i : Nat} [NeZero k] (h : i < k) : asIndex k i = some (Fin.ofNat k i) := by
  simp [asIndex, h, Fin.ofNat, Nat.mod_eq_of_lt h]

/-- An element that management writes is valid for its kind (R133). -/
abbrev RawElement.Valid (p : Params) (e : RawElement) : Prop :=
  (e.kind = 0 ∧ e.offset < p.planLength ∧ 1 ≤ e.length ∧ e.length ≤ 1023 ∧ e.station < 8192 ∧ e.flow < 16384) ∨
  (e.kind = 1 ∧ e.offset < p.planLength ∧ 1 ≤ e.length ∧ e.length ≤ 255 ∧ e.station < 8192 ∧ e.flow < 16384) ∨
  (e.kind = 2 ∧ e.offset < p.planLength ∧ e.length = p.pollLength ∧ e.station < 8192) ∨
  (e.kind = 3 ∧ e.offset < p.planLength ∧ e.length = p.joinLength) ∨
  (e.kind = 4 ∧ e.offset < p.planLength ∧ p.requestLength ≤ e.length ∧ e.length % p.requestLength = 0) ∨
  (e.kind = 5 ∧ e.offset < p.planLength ∧ 1 ≤ e.length ∧ e.length ≤ p.planLength) ∨
  (e.kind = 6 ∧ e.offset < p.planLength ∧ e.offset = 0 ∧ e.length = 0 ∧ e.station < 8192 ∧ e.flow < 16384)

/-- What a valid element is, by its kind (R133). -/
def RawElement.written (p : Params) (e : RawElement) : Element where
  offset := e.offset
  length := e.length
  body :=
    match e.kind with
    | 0 => .data (Fin.ofNat 8192 e.station) (Fin.ofNat 16384 e.flow) none
    | 1 => .periodic (Fin.ofNat 8192 e.station) (Fin.ofNat 16384 e.flow)
    | 2 => .poll (Fin.ofNat 8192 e.station)
    | 3 => .join
    | 4 => .request (e.length / p.requestLength)
    | 5 => .idle
    | _ => .hold (Fin.ofNat 8192 e.station) (Fin.ofNat 16384 e.flow)

theorem RawElement.target_some {e : RawElement} (station : e.station < 8192) (flow : e.flow < 16384) :
    e.target = some (Fin.ofNat 8192 e.station, Fin.ofNat 16384 e.flow) := by
  rw [RawElement.target, asIndex_lt station, asIndex_lt flow]

theorem RawElement.target_isSome {e : RawElement} (h : e.target.isSome = true) : e.station < 8192 ∧ e.flow < 16384 := by
  unfold RawElement.target at h
  split at h
  · next n f station flow => exact ⟨asIndex_isSome.1 (by rw [station]; rfl), asIndex_isSome.1 (by rw [flow]; rfl)⟩
  · cases h

/-- An element that is valid is taken as its kind says (R133). -/
theorem RawElement.element_of_valid {p : Params} {e : RawElement} (valid : e.Valid p) : e.element p = some (e.written p) := by
  obtain ⟨kind, inside, low, high, station, flow⟩ | ⟨kind, inside, low, high, station, flow⟩ |
    ⟨kind, inside, length, station⟩ | ⟨kind, inside, length⟩ | ⟨kind, inside, low, whole⟩ |
    ⟨kind, inside, low, high⟩ | ⟨kind, inside, offset, length, station, flow⟩ := valid
  · simp [element, body, written, kind, inside, low, high, target_some station flow]
  · simp [element, body, written, kind, inside, low, high, target_some station flow]
  · simp [element, body, written, kind, inside, length, asIndex_lt station]
  · simp [element, body, written, kind, inside, length]
  · simp [element, body, written, kind, inside, low, whole]
  · simp [element, body, written, kind, inside, low, high]
  · simp [element, body, written, kind, inside, ← offset, length, target_some station flow]

theorem isSome_ite_none {α : Type} {P : Prop} [Decidable P] {x : Option α} (h : (if P then x else none).isSome = true) :
    P ∧ x.isSome = true := by
  split at h
  · next holds => exact ⟨holds, h⟩
  · cases h

/-- An element that is taken is valid (R133). -/
theorem RawElement.valid_of_element {p : Params} {e : RawElement} (taken : (e.element p).isSome = true) : e.Valid p := by
  obtain ⟨inside, taken⟩ := isSome_ite_none taken
  rw [Option.isSome_map] at taken
  unfold Valid
  unfold body at taken
  split at taken
  case h_1 kind =>
    obtain ⟨⟨low, high⟩, named⟩ := isSome_ite_none taken
    exact .inl ⟨kind, inside, low, high, target_isSome (by rwa [Option.isSome_map] at named)⟩
  case h_2 kind =>
    obtain ⟨⟨low, high⟩, named⟩ := isSome_ite_none taken
    exact .inr (.inl ⟨kind, inside, low, high, target_isSome (by rwa [Option.isSome_map] at named)⟩)
  case h_3 kind =>
    obtain ⟨length, named⟩ := isSome_ite_none taken
    exact .inr (.inr (.inl ⟨kind, inside, length, asIndex_isSome.1 (by rwa [Option.isSome_map] at named)⟩))
  case h_4 kind =>
    exact .inr (.inr (.inr (.inl ⟨kind, inside, (isSome_ite_none taken).1⟩)))
  case h_5 kind =>
    exact .inr (.inr (.inr (.inr (.inl ⟨kind, inside, (isSome_ite_none taken).1⟩))))
  case h_6 kind =>
    exact .inr (.inr (.inr (.inr (.inr (.inl ⟨kind, inside, (isSome_ite_none taken).1⟩)))))
  case h_7 kind =>
    obtain ⟨⟨offset, length⟩, named⟩ := isSome_ite_none taken
    exact .inr (.inr (.inr (.inr (.inr (.inr
      ⟨kind, inside, offset, length, target_isSome (by rwa [Option.isSome_map] at named)⟩)))))
  case h_8 => cases taken

/-- The elements of PLAN-WRITE are taken together where all are valid (R133). -/
theorem validElements_of_valid {p : Params} : ∀ {es : List RawElement}, (∀ e ∈ es, e.Valid p) →
    validElements p es = some (es.map (fun e => e.written p))
  | [], _ => rfl
  | e :: es, valid => by
    rw [validElements, RawElement.element_of_valid (valid e List.mem_cons_self),
      validElements_of_valid (fun x among => valid x (List.mem_cons_of_mem e among))]
    rfl

/-- One element that is not valid refuses all (R133). -/
theorem validElements_of_invalid {p : Params} : ∀ {es : List RawElement}, ¬ (∀ e ∈ es, e.Valid p) →
    validElements p es = none
  | [], invalid => absurd (by simp) invalid
  | e :: es, invalid => by
    rw [validElements]
    split
    · next x q first rest =>
      refine absurd (List.forall_mem_cons.2 ⟨RawElement.valid_of_element (by rw [first]; rfl), ?_⟩) invalid
      by_contra later
      rw [validElements_of_invalid later] at rest
      cases rest
    · rfl

namespace State

/-! ## Operations on a DIRECTED half (R132) -/

theorem directedWritable_iff (s : State) (c : ChanNo) :
    s.directedWritable c = true ↔
      ((s.context c).state = .running ∨
        ((s.context c).state = .draining ∧ (s.context c).drainMark = .beforeFinalSwap)) ∧
      (s.params c).sourceMode = .directed := by
  simp [directedWritable, emitTimeStands]

@[simp] theorem answer_code (s : State) (code : Code) : (s.answer code).code = code := rfl

theorem onDirectedHalf_val (s : State) (c : ChanNo) (op : ChanNo → Answer) :
    s.onDirectedHalf c.val op = if s.directedWritable c then op c else s.answer .state := by
  rw [onDirectedHalf, asIndex_val]

theorem onDirectedHalf_outside (s : State) {i : Nat} (outside : 8 ≤ i) (op : ChanNo → Answer) :
    s.onDirectedHalf i op = s.answer .badIndex := by
  rw [onDirectedHalf, asIndex_eq_none outside]

/-- The answer `a` to an operation on `s` writes the Plan Stores at most, and nothing where it is a refusal. -/
structure WritesHalf (s : State) (a : Answer) : Prop where
  stores : a.state = { s with planStores := a.state.planStores }
  refused : a.code ≠ .done → a.state = s

theorem writesHalf_done (s : State) (c : ChanNo) (x : PlanRecord) (results : List Byte) :
    s.WritesHalf { state := s.putBuildHalf c x, code := .done, results := results } := ⟨rfl, fun no => absurd rfl no⟩

/-- The answer of an operation on a DIRECTED half is a refusal of R132, or the operation's own on some channel. -/
theorem onDirectedHalf_has (P : Answer → Prop) {s : State} {op : ChanNo → Answer} (refuses : ∀ code, P (s.answer code))
    (writes : ∀ c, P (op c)) (i : Nat) : P (s.onDirectedHalf i op) := by
  unfold onDirectedHalf
  split
  · exact refuses _
  · split
    · exact writes _
    · exact refuses _

theorem writesHalf_refused (s : State) (code : Code) : s.WritesHalf (s.answer code) := ⟨rfl, fun _ => rfl⟩

/-- The whole execution of an operation on a DIRECTED half (R155, R156). -/
theorem WritesHalf.executes {s : State} {f : RawFrame} {q : List RawFrame} {o : Op} {a : Answer}
    (writes : (s.beginFrame q).WritesHalf a) (head : s.Executes f q o)
    (takes : (s.beginFrame q).operate f.tag o = .ends a) :
    ∃ t, s.executeRow (Parsed.row (.op o)) = t ∧ s.Answers t f q a.code a.results ∧
      (a.code ≠ .done → t = s.managed t) ∧ t = { s.managed t with planStores := a.state.planStores } := by
  obtain ⟨stores, refused⟩ := writes
  obtain ⟨answers, frame⟩ := executeFrame_answers head takes (by rw [stores]; rfl) (by rw [stores]; rfl)
    (by rw [stores]; rfl) (by rw [stores])
  have queue := answers.1
  have left : s.executeFrame f q = { s.managed (s.executeFrame f q) with planStores := a.state.planStores } := by
    generalize s.executeFrame f q = t at *
    rw [stores] at frame
    rw [managed, queue]
    exact frame
  refine ⟨_, executeRow_executes head, answers, fun no => left.trans ?_, left⟩
  rw [refused no]
  rfl

/-! ## PLAN-WRITE (R133) -/

/-- The answer to elements that are appended to the build half (R133). -/
def appends (s : State) (c : ChanNo) (es : List RawElement) : Answer where
  state := s.putBuildHalf c
    { s.buildHalf c with elements := (s.buildHalf c).elements ++ es.map (fun e => e.written (s.params c)) }
  code := .done
  results := be 1 ((s.buildHalf c).elements.length + es.length)

/-- The checks of PLAN-WRITE in their order, and the elements appended behind them (R132, R133). -/
theorem planWriteOp_eq (s : State) (c : ChanNo) (es : List RawElement) :
    s.planWriteOp c.val es =
      if ¬ (((s.context c).state = .running ∨
            ((s.context c).state = .draining ∧ (s.context c).drainMark = .beforeFinalSwap)) ∧
          (s.params c).sourceMode = .directed) then s.answer .state
      else if (s.buildHalf c).ready then s.answer .state
      else if es.length < 1 ∨ 16 < es.length then s.answer .badValue
      else if ¬ (∀ e ∈ es, e.Valid (s.params c)) then s.answer .badValue
      else if 240 < (s.buildHalf c).elements.length + es.length then s.answer .full
      else s.appends c es := by
  rw [planWriteOp, onDirectedHalf_val]
  simp only [← directedWritable_iff, ite_not]
  by_cases valid : ∀ e ∈ es, e.Valid (s.params c)
  · rw [if_pos valid, validElements_of_valid valid]
    simp only [appendElements, List.length_map]
    rfl
  · rw [if_neg valid, validElements_of_invalid valid]

/-- PLAN-WRITE writes its build half at most, and returns nothing where it is refused (R133). -/
theorem planWriteOp_writes (s : State) (i : Nat) (es : List RawElement) :
    s.WritesHalf (s.planWriteOp i es) ∧ ((s.planWriteOp i es).code ≠ .done → (s.planWriteOp i es).results = []) := by
  have refuses (code : Code) :
      s.WritesHalf (s.answer code) ∧ ((s.answer code).code ≠ .done → (s.answer code).results = []) :=
    ⟨writesHalf_refused s code, fun _ => rfl⟩
  refine onDirectedHalf_has (fun a => s.WritesHalf a ∧ (a.code ≠ .done → a.results = [])) refuses (fun c => ?_) i
  split_ifs
  iterate 2 exact refuses _
  split
  · exact refuses _
  · unfold appendElements
    split
    · exact refuses _
    · exact ⟨writesHalf_done s c _ _, fun no => absurd rfl no⟩

/-- PLAN-WRITE answers DONE where it has appended the elements (R133). -/
theorem planWriteOp_done {s : State} {c : ChanNo} {es : List RawElement} (done : (s.planWriteOp c.val es).code = .done) :
    s.planWriteOp c.val es = s.appends c es := by
  rw [planWriteOp_eq] at done ⊢
  split_ifs at done ⊢
  any_goals simp at done
  rfl

end State

/-- Settles O49: State.planWriteOp_eq lists the checks in their order and what stands behind them. -/
theorem planWriteAppendsValidElements : Obligations.PlanWriteAppendsValidElements := by
  intro s f q i es head
  obtain ⟨writes, bare⟩ := State.planWriteOp_writes (s.beginFrame q) i es
  obtain ⟨t, run, answers, refused, left⟩ := writes.executes head rfl
  refine ⟨t, _, _, congrArg Host.Outcome.next run, answers, fun outside => ?_, fun no => ⟨bare no, refused no⟩, ?_⟩
  · exact congrArg Answer.code (State.onDirectedHalf_outside _ outside _)
  rintro c rfl
  refine ⟨?_, fun done => ?_⟩
  · rw [State.planWriteOp_eq]
    simp only [apply_ite Answer.code]
    rfl
  · rw [State.planWriteOp_done done] at left ⊢
    exact ⟨rfl, left⟩

end Sys2Proof.Machine
end

section
/-! SUPPORT. PLAN-READY and PLAN-DISCARD, and the statement on them (R132, R134, R135). -/

namespace Sys2Proof.Machine

namespace State

/-! ## PLAN-READY (R134) -/

/-- The answer of PLAN-READY where the layout check names a position, or none (R134). -/
def layoutAnswer (s : State) (c : ChanNo) : Option Nat → Answer
  | some i => { state := s, code := .layout, results := be 1 i }
  | none => (s.putBuildHalf c { s.buildHalf c with ready := true }).answer .done

/-- Where the layout check of a build half fails (R134). -/
def layoutFault (s : State) (c : ChanNo) : Option Nat :=
  layoutFailure (s.params c).planLength 0 0 0 false (s.buildHalf c).elements

/-- PLAN-READY of a half that is ready already changes nothing, and of another it checks the layout (R132, R134). -/
theorem planReadyOp_eq (s : State) (c : ChanNo) :
    s.planReadyOp c.val =
      if s.directedWritable c then
        if (s.buildHalf c).ready then s.answer .done else s.layoutAnswer c (s.layoutFault c)
      else s.answer .state := by
  rw [planReadyOp, onDirectedHalf_val, layoutFault]
  cases layoutFailure (s.params c).planLength 0 0 0 false (s.buildHalf c).elements <;> rfl

/-- PLAN-READY writes its build half at most, and returns a position only with LAYOUT (R134). -/
theorem planReadyOp_writes (s : State) (i : Nat) :
    s.WritesHalf (s.planReadyOp i) ∧ ((s.planReadyOp i).code ≠ .layout → (s.planReadyOp i).results = []) := by
  have refuses (code : Code) :
      s.WritesHalf (s.answer code) ∧ ((s.answer code).code ≠ .layout → (s.answer code).results = []) :=
    ⟨writesHalf_refused s code, fun _ => rfl⟩
  refine onDirectedHalf_has (fun a => s.WritesHalf a ∧ (a.code ≠ .layout → a.results = [])) refuses (fun c => ?_) i
  split
  · exact refuses _
  · split
    · exact ⟨⟨rfl, fun _ => rfl⟩, fun no => absurd rfl no⟩
    · exact ⟨writesHalf_done s c _ _, fun _ => rfl⟩

/-- The layout check of a half passes where its timed elements cover [0, Lp) in order, ahead of every HOLD (R134). -/
theorem layoutFault_eq_none (s : State) (c : ChanNo) :
    s.layoutFault c = none ↔
      ∃ timed holds : List Element, (s.buildHalf c).elements = timed ++ holds ∧
        (∀ e ∈ timed, e.isHold = false) ∧ (∀ e ∈ holds, e.isHold = true) ∧
        (∀ (k : Nat) (e : Element), timed[k]? = some e → e.offset = beatsOf (timed.take k)) ∧
        beatsOf timed = (s.params c).planLength := by
  simp only [layoutFault, layoutFailure_eq_none, laidOut_zero, and_assoc]

/-- PLAN-READY of a half that is not ready is DONE, with READY yes, where the check passes, and LAYOUT elsewhere (R134). -/
theorem layoutAnswer_judges (s : State) (c : ChanNo) :
    ((s.layoutAnswer c (s.layoutFault c)).code = .done ↔ s.layoutFault c = none) ∧
      ((s.layoutAnswer c (s.layoutFault c)).code = .done → s.layoutAnswer c (s.layoutFault c) =
        (s.putBuildHalf c { s.buildHalf c with ready := true }).answer .done) ∧
      ((s.layoutAnswer c (s.layoutFault c)).code ≠ .done → (s.layoutAnswer c (s.layoutFault c)).code = .layout) := by
  cases s.layoutFault c with
  | none => exact ⟨⟨fun _ => rfl, fun _ => rfl⟩, fun _ => rfl, fun no => absurd rfl no⟩
  | some k => exact ⟨⟨nofun, nofun⟩, nofun, fun _ => rfl⟩

theorem layoutAnswer_fault {s : State} {c : ChanNo} {k : Nat} (fault : s.layoutFault c = some k) :
    (s.layoutAnswer c (s.layoutFault c)).code = .layout ∧ (s.layoutAnswer c (s.layoutFault c)).results = be 1 k := by
  rw [fault]
  exact ⟨rfl, rfl⟩

/-- The first timed element behind a HOLD, or not where the one before it ends, is the one named (R134, assumption 23). -/
theorem layoutFault_names {s : State} {c : ChanNo} {k : Nat} {e : Element}
    (at' : (s.buildHalf c).elements[k]? = some e) (timed : e.isHold = false)
    (wrong : (∃ h ∈ (s.buildHalf c).elements.take k, h.isHold = true) ∨
      e.offset ≠ beatsOf ((s.buildHalf c).elements.take k))
    (sound : ∀ (j : Nat) (g : Element), j < k → (s.buildHalf c).elements[j]? = some g → g.isHold = false →
      (∀ h ∈ (s.buildHalf c).elements.take j, h.isHold = false) ∧
        g.offset = beatsOf ((s.buildHalf c).elements.take j)) : s.layoutFault c = some k := by
  refine (layoutFailure_names at' timed (.inr ?_) fun j g below gAt gTimed => ⟨rfl, ?_⟩).trans (by rw [Nat.zero_add])
  · rwa [Nat.zero_add]
  · rw [Nat.zero_add]
    exact sound j g below gAt gTimed

/-- Timed elements in their places that end before Lp give the count of all elements, and ones that run past it the last of
them (R134, assumption 23). -/
theorem layoutFault_ends {s : State} {c : ChanNo} {timed holds : List Element}
    (split : (s.buildHalf c).elements = timed ++ holds) (laid : LaidOut 0 timed holds) :
    (beatsOf timed < (s.params c).planLength → s.layoutFault c = some (s.buildHalf c).elements.length) ∧
      ((s.params c).planLength < beatsOf timed → s.layoutFault c = some (timed.length - 1)) := by
  rw [layoutFault, split, layoutFailure_laidOut 0 0 laid, Nat.zero_add, Nat.zero_add]
  refine ⟨fun short => ?_, fun long => ?_⟩
  · rw [if_neg short.ne, if_pos short]
  · have some' : timed ≠ [] := by
      rintro rfl
      cases long
    rw [if_neg long.ne', if_neg long.not_gt, if_neg some', Nat.zero_add]

/-! ## PLAN-DISCARD (R135) -/

theorem planDiscardOp_eq (s : State) (c : ChanNo) :
    s.planDiscardOp c.val =
      if ((s.context c).state = .running ∨
          ((s.context c).state = .draining ∧ (s.context c).drainMark = .beforeFinalSwap)) ∧
        (s.params c).sourceMode = .directed then
        (s.putBuildHalf c { s.buildHalf c with elements := [], ready := false }).answer .done
      else s.answer .state := by
  simp only [planDiscardOp, onDirectedHalf_val, directedWritable_iff]

/-- PLAN-DISCARD writes its build half at most, and returns nothing (R135). -/
theorem planDiscardOp_writes (s : State) (i : Nat) :
    s.WritesHalf (s.planDiscardOp i) ∧ (s.planDiscardOp i).results = [] :=
  onDirectedHalf_has (fun a => s.WritesHalf a ∧ a.results = []) (fun code => ⟨writesHalf_refused s code, rfl⟩)
    (fun c => ⟨writesHalf_done s c _ _, rfl⟩) i

end State

/-- Settles O50: PLAN-READY is State.planReadyOp_eq, its layout check State.layoutFault_eq_none, layoutFault_names and
layoutFault_ends, and PLAN-DISCARD is State.planDiscardOp_eq. -/
theorem planReadyAndDiscard : Obligations.PlanReadyAndDiscard := by
  intro s f q i
  refine ⟨fun head => ?_, fun head => ?_⟩
  · obtain ⟨writes, bare⟩ := State.planReadyOp_writes (s.beginFrame q) i
    obtain ⟨t, run, answers, refused, left⟩ := writes.executes head rfl
    refine ⟨t, _, _, congrArg Host.Outcome.next run, answers, fun outside => ?_, refused, bare, ?_⟩
    · exact congrArg Answer.code (State.onDirectedHalf_outside _ outside _)
    rintro c writable rfl may
    rw [← State.directedWritable_iff] at may
    have checks := State.planReadyOp_eq (s.beginFrame q) c
    refine ⟨fun no => ?_, fun yes ready => ?_, fun yes unready => ?_⟩
    · rw [checks.trans (if_neg (fun yes => no (may.2 yes)))]
      rfl
    · rw [checks.trans ((if_pos (may.1 yes)).trans (if_pos ready))] at left ⊢
      exact ⟨rfl, left⟩
    · rw [checks.trans ((if_pos (may.1 yes)).trans (if_neg (Bool.eq_false_iff.1 unready)))] at left ⊢
      obtain ⟨passes, marks, fails⟩ := State.layoutAnswer_judges (s.beginFrame q) c
      refine ⟨passes.trans (State.layoutFault_eq_none (s.beginFrame q) c), fun done => ?_, fails,
        fun k e at' timed wrong sound => State.layoutAnswer_fault (State.layoutFault_names at' timed wrong sound),
        fun timed holds split ahead behind offsets => ?_⟩
      · rw [marks done] at left
        exact left
      · obtain ⟨short, long⟩ :=
          State.layoutFault_ends (s := s.beginFrame q) split (laidOut_zero.2 ⟨ahead, behind, offsets⟩)
        exact ⟨fun less => State.layoutAnswer_fault (short less), fun more => State.layoutAnswer_fault (long more)⟩
  · obtain ⟨writes, bare⟩ := State.planDiscardOp_writes (s.beginFrame q) i
    obtain ⟨t, run, answers, refused, left⟩ := writes.executes head rfl
    refine ⟨t, _, congrArg Host.Outcome.next run, bare ▸ answers, fun outside => ?_, refused, ?_⟩
    · exact congrArg Answer.code (State.onDirectedHalf_outside _ outside _)
    rintro c rfl
    have checks := State.planDiscardOp_eq (s.beginFrame q) c
    refine ⟨?_, fun done => ?_⟩
    · rw [checks, apply_ite Answer.code]
      rfl
    · rw [checks] at done left
      split at done
      · next may => rwa [if_pos may] at left
      · cases done

end Sys2Proof.Machine
end

section
/-! SUPPORT. Matching a burst record against an Expect Queue (R141), and the statement on it. -/

namespace Sys2Proof.Machine

/-! ## The position of a record in a REQUEST entry (R141) -/

/-- A record `i` whole openings into a REQUEST entry finds opening `i`, marked or not. -/
theorem judgeOpening_at (e : ExpectEntry) {k i : Nat} {marks : List Mark} {m : Mark} (positive : 1 ≤ k)
    (marked : marks[i]? = some m) :
    judgeOpening e k marks (i * k) = if m = .unreported then .opening e i else .stray .reported := by
  have whole : ¬ (k = 0 ∨ i * k % k ≠ 0) := by
    rw [Nat.mul_mod_left]
    omega
  rw [judgeOpening, if_neg whole, Nat.mul_div_cancel i positive, marked]
  cases m <;> rfl

/-- A record that starts with none of the openings is misaligned. -/
theorem judgeOpening_misaligned (e : ExpectEntry) {k d : Nat} {marks : List Mark} (positive : 1 ≤ k)
    (between : ∀ i, i < marks.length → d ≠ i * k) : judgeOpening e k marks d = .stray .misaligned := by
  by_cases whole : d % k = 0
  · have past : marks.length ≤ d / k :=
      Nat.le_of_not_lt fun inside => between _ inside (Nat.div_mul_cancel (Nat.dvd_of_mod_eq_zero whole)).symm
    rw [judgeOpening, if_neg (by omega), List.getElem?_eq_none past]
  · rw [judgeOpening, if_pos (.inr whole)]

/-! ## The entry whose range holds a beat (R141) -/

theorem findingOf_outside {q : List ExpectEntry} {b : Beat} (outside : ∀ e ∈ q, e.length ≤ (b - e.start).toNat) :
    findingOf q b = .stray .noEntry := by
  have nobody : holdingEntry q b = none := by simpa [holdingEntry] using outside
  rw [findingOf, nobody]

/-- The entry whose range holds a beat is the first of the queue that does. -/
theorem holdingEntry_first {l r : List ExpectEntry} {e : ExpectEntry} {b : Beat}
    (before : ∀ x ∈ l, x.length ≤ (b - x.start).toNat) (inside : (b - e.start).toNat < e.length) :
    holdingEntry (l ++ e :: r) b = some e :=
  (State.first_of_list (fun x : ExpectEntry => decide ((b - x.start).toNat < x.length)) id (by simpa using inside) r l
    (by simpa using before)).1

/-- An entry of one burst takes a record at its START alone. -/
theorem findingOf_entry {q : List ExpectEntry} {e : ExpectEntry} {b : Beat} (holds : holdingEntry q b = some e)
    (single : ∀ k marks p, e.grant ≠ .request k marks p) :
    findingOf q b = if e.start = b then .entry e else .stray .misaligned := by
  simp only [findingOf, holds]
  cases grant : e.grant with
  | request k marks p => exact absurd grant (single k marks p)
  | data | periodic | poll | join => rfl

theorem findingOf_request {q : List ExpectEntry} {e : ExpectEntry} {b : Beat} {k : Nat} {marks : List Mark} {p : PlanSeq}
    (holds : holdingEntry q b = some e) (request : e.grant = .request k marks p) :
    findingOf q b = judgeOpening e k marks (b - e.start).toNat := by
  rw [findingOf, holds]
  simp only [request]

/-- Settles O28: the entry is the one of holdingEntry_first, and a REQUEST entry is judged by judgeOpening_at and
judgeOpening_misaligned. -/
theorem recordsMatchTheEntryThatHoldsTheirStart : Obligations.RecordsMatchTheEntryThatHoldsTheirStart := by
  refine fun q b => ⟨findingOf_outside, fun e l r split before inside => ?_⟩
  have holds : holdingEntry q b = some e := split ▸ holdingEntry_first before inside
  refine ⟨findingOf_entry holds, fun k marks p request positive => ⟨fun i m at' marked => ?_, fun between => ?_⟩⟩
  · rw [findingOf_request holds request, at', judgeOpening_at e positive marked]
  · rw [findingOf_request holds request, judgeOpening_misaligned e positive between]

end Sys2Proof.Machine
end

section
/-! SUPPORT. A record on the Burst Link that is sound, and the ring and notice of one that is not taken (R142, R150). -/

namespace Sys2Proof.Machine

namespace State

/-- A sound record, with nothing due, is taken whole (R140). -/
theorem exec_burstRecord_sound {s : State} {f : RawFrame} {r : BurstRecord} (quiet : s.Quiet)
    (sound : f.burstRecord = some r) : exec (.burstRecord f) s = .next (s.takeRecord r) := by
  show Host.Outcome.next (s.settle.takeBurstFrame f) = _
  rw [settle_quiet quiet, takeBurstFrame, sound]

theorem takeRecord_stray {s : State} {r : BurstRecord} {cause : StrayCause}
    (found : findingOf (s.expectQueue r.channel) r.start = .stray cause) : s.takeRecord r = s.strayRecord r cause := by
  rw [takeRecord, found]

theorem takeRecord_opening {s : State} {r : BurstRecord} {e : ExpectEntry} {i : Nat}
    (found : findingOf (s.expectQueue r.channel) r.start = .opening e i) :
    s.takeRecord r = (s.openingRecord r e i).testStop r.channel := by
  rw [takeRecord, found]

theorem takeRecord_misplaced {s : State} {r : BurstRecord} {e : ExpectEntry}
    (found : findingOf (s.expectQueue r.channel) r.start = .entry e) (wrong : misplaces r e = true) :
    s.takeRecord r = (s.misplacedRecord r e).testStop r.channel := by
  simp only [takeRecord, found, wrong, if_true]

/-- A decoded record that names a station other than the one the entry expects is misplaced (R142). -/
theorem misplaces_of_other {r : BurstRecord} {e : ExpectEntry} {n : StationNo} {x : NamedStation}
    (decoded : r.outcome.decoded = true) (expects : e.grant.station = some n) (named : r.station = some x)
    (other : x.toNat ≠ n.val) : misplaces r e = true := by
  simp [misplaces, decoded, expects, named, names, other]

theorem decoded_of_clean {o : BurstOutcome} (clean : o = .clean ∨ o = .repaired) : o.decoded = true := by
  rcases clean with rfl | rfl <;> rfl

/-! ## Strays (R150) -/

theorem strayWritten_pushStray (s : State) (x : StrayEntry) : s.StrayWritten (s.pushStray x) x := by
  obtain ⟨room, e⟩ | ⟨full, e⟩ := pushStray_cases s x <;> rw [e]
  · have room : s.strayRing.length < 64 := room
    exact ⟨(if_pos room).symm, (if_pos room).symm⟩
  · have full : ¬ s.strayRing.length < 64 := Nat.not_lt.2 full
    exact ⟨(if_neg full).symm, (if_neg full).symm⟩

theorem pushStray_frame (s : State) (x : StrayEntry) :
    s.pushStray x = { s with strayRing := (s.pushStray x).strayRing, overwrites := (s.pushStray x).overwrites } := by
  obtain ⟨-, e⟩ | ⟨-, e⟩ := pushStray_cases s x <;> rw [e] <;> rfl

/-- A record that is not taken writes the ring and raises STRAY BURST, and nothing else. -/
theorem recordStray_frame (s : State) (r : BurstRecord) (expected : Option StationNo) (cause : StrayCause) :
    s.recordStray r expected cause =
      { s with
        strayRing := (s.recordStray r expected cause).strayRing
        overwrites := (s.recordStray r expected cause).overwrites
        notices := (s.raise (.strayBurst r.channel r.start r.outcome r.station cause)).notices } := by
  unfold recordStray
  rw [pushStray_frame]
  rfl

theorem strayWritten_recordStray (s : State) (r : BurstRecord) (expected : Option StationNo) (cause : StrayCause) :
    s.StrayWritten (s.recordStray r expected cause)
      { channel := r.channel, start := r.start, outcome := r.outcome, stationNamed := r.station
        stationExpected := expected, cause := cause, units := r.units.length } :=
  strayWritten_pushStray s _

end State

/-- Settles O29: a stray record is counted, and State.recordStray does the rest. -/
theorem strayRecordsAreRecordedOnly : Obligations.StrayRecordsAreRecordedOnly := by
  intro s f r cause quiet sound found
  refine ⟨_, State.exec_burstRecord_sound quiet sound, ?_⟩
  rw [State.takeRecord_stray found]
  exact ⟨State.strayWritten_recordStray (s.count r.channel .stray 1) r none cause,
    State.recordStray_frame (s.count r.channel .stray 1) r none cause⟩

end Sys2Proof.Machine
end

section
/-! SUPPORT. A miss and an absence behind the removal of an entry: what they write and what they leave alone (R118, R142,
R148). -/

namespace Sys2Proof.Machine

namespace State

/-- Only what a miss writes differs between `s` and `t` (R33, R118), and of the notices only that of a loss. -/
structure MissFrame (s t : State) : Prop where
  frame : t = { s with
    stations := t.stations, flows := t.flows, activeLists := t.activeLists, calendars := t.calendars
    engine := t.engine, pollQueues := t.pollQueues, adjustQueue := t.adjustQueue
    channelCounters := t.channelCounters, notices := t.notices }
  notice : ∀ k, k ≠ .stationLost → t.notice k = s.notice k

namespace MissFrame

theorem refl (s : State) : s.MissFrame s := ⟨rfl, fun _ _ => rfl⟩

theorem trans {s t u : State} (h : s.MissFrame t) (k : t.MissFrame u) : s.MissFrame u where
  frame := by
    rw [k.frame, h.frame]
  notice j other := (k.notice j other).trans (h.notice j other)

theorem count (s : State) (c : ChanNo) (k : ChannelCounter) (j : Nat) : s.MissFrame (s.count c k j) :=
  ⟨rfl, fun _ _ => rfl⟩

theorem pollEnqueue (s : State) (n : StationNo) : s.MissFrame (s.pollEnqueue n) := by
  rw [pollEnqueue_frame]
  exact ⟨rfl, fun _ _ => rfl⟩

theorem lose (s : State) (n : StationNo) : s.MissFrame (s.lose n) := by
  unfold State.lose adjustRemove pollRemove
  dsimp only
  rw [mapFlows_frame, listFrame_takenOffline]
  exact ⟨rfl, fun k other => notice_raise_ne _ (.stationLost _ _ _) other⟩

theorem missAdmitted (s : State) (n : StationNo) (c : ChanNo) : s.MissFrame (s.missAdmitted n c) := by
  have counted : s.MissFrame (s.missCounted n c) := ⟨rfl, fun _ _ => rfl⟩
  rw [missAdmitted_eq]
  split
  · exact (counted.trans (lose _ n)).trans (count _ c .stationsLost 1)
  · exact counted.trans (pollEnqueue _ n)

theorem miss (s : State) (n : StationNo) (c : ChanNo) : s.MissFrame (s.miss n c) := by
  unfold State.miss
  split
  · exact missAdmitted s n c
  · exact refl s

/-- An expected station treated as absent: a count of NO-SHOW, or a miss (R142, R148). -/
theorem absent (s : State) (c : ChanNo) (g : Grant) : s.MissFrame (s.absent c g) := by
  cases g with
  | data | periodic => exact count s c .noShow 1
  | poll n => exact miss s n c
  | join | request => exact refl s

end MissFrame

/-! ## A miss, admitted or set aside (R29, R118) -/

theorem miss_setAside {s : State} {n : StationNo} {c : ChanNo} (no : ¬ s.Reaches n c) : s.miss n c = s :=
  if_neg (mt (resultReaches_iff s n c).1 no)

theorem miss_lastMeasurement (s : State) (n : StationNo) (c : ChanNo) :
    ((s.miss n c).station n).lastMeasurement = (s.station n).lastMeasurement := by
  unfold miss
  split
  · exact missAdmitted_lastMeasurement s n c
  · rfl

/-- A miss counts its own three counters of its channel, and no other. -/
theorem miss_counter {s : State} {n : StationNo} {c d : ChanNo} {k : ChannelCounter}
    (other : ¬ (d = c ∧ (k = .misses ∨ k = .stationsLost ∨ k = .pollQueueFull))) :
    (s.miss n c).counter d k = s.counter d k := by
  by_cases reaches : s.Reaches n c
  · rw [miss_reaches reaches]
    by_cases own : k ∈ [ChannelCounter.misses, .stationsLost, .pollQueueFull]
    · have elsewhere : d ≠ c := fun here => other ⟨here, by simpa using own⟩
      have counted : (s.missCounted n c).counter d k = s.counter d k := by
        rw [missCounted, counter_count, if_neg (fun x => elsewhere x.1)]
        rfl
      have on : ((s.missCounted n c).station n).channel = c := by
        rw [missCounted, count_station, station_putStation_same, reaches.2]
      rw [missAdmitted_eq]
      split
      · rw [counter_count, if_neg (fun x => elsewhere x.1), counter, (lose_leaves _ n).2.2.2.2.2.2.1]
        exact counted
      · rw [pollEnqueue_counter, on, if_neg (fun x => elsewhere x.1.1), counted]
    · exact missAdmitted_counter s n c d own
  · rw [miss_setAside reaches]

/-- A miss taken behind the removal of an entry leaves what State.Missed says of the state before. -/
theorem missed_miss {s u : State} {n : StationNo} {c : ChanNo}
    (frame : u = { s with expectQueues := u.expectQueues, channelCounters := u.channelCounters })
    (counters : ∀ k ∈ [ChannelCounter.misses, .stationsLost, .pollQueueFull], u.counter c k = s.counter c k) :
    s.Missed (u.miss n c) c n := by
  have stations (m : StationNo) : u.station m = s.station m := by rw [frame]; rfl
  have same : u.Reaches n c ↔ s.Reaches n c := by rw [Reaches, Reaches, stations]
  by_cases reaches : s.Reaches n c
  · rw [miss_reaches (same.2 reaches)]
    refine missed_missAdmitted ⟨?_, fun m _ => stations m, by rw [stations], counters⟩ reaches
    rw [frame]
  · rw [miss_setAside (mt same.1 reaches)]
    exact ⟨fun _ => ⟨by rw [frame], by rw [frame], by rw [frame], by rw [frame], by rw [frame], by rw [frame],
      by rw [frame], by rw [frame]; rfl, counters⟩, fun yes => absurd yes reaches⟩

/-- A miss touches no other station. -/
theorem Missed.others {s t : State} {c : ChanNo} {n : StationNo} (h : s.Missed t c n) {m : StationNo} (other : m ≠ n) :
    t.station m = s.station m := by
  by_cases reaches : s.Reaches n c
  · exact (h.2 reaches).2.1 m other
  · rw [station, (h.1 reaches).1, station]

/-- A miss is read neither from the channels nor from the stray ring, and of the notices only from that of a loss. -/
theorem Missed.leaves {s t v : State} {c : ChanNo} {n : StationNo} (h : s.Missed t c n)
    (frame : v = { t with
      channels := v.channels, strayRing := v.strayRing, overwrites := v.overwrites, notices := v.notices })
    (lost : v.notice .stationLost = t.notice .stationLost) : s.Missed v c n := by
  obtain ⟨channels, ring, overwrites, notices, e⟩ : ∃ channels ring overwrites notices,
      v = { t with channels := channels, strayRing := ring, overwrites := overwrites, notices := notices } :=
    ⟨_, _, _, _, frame⟩
  subst e
  simp only [Missed, Raised, NoticeDetail.kind, lost]
  exact h

end State

end Sys2Proof.Machine
end

section
/-! SUPPORT. A misplaced record (R142), and the statement on it. -/

namespace Sys2Proof.Machine

namespace State

namespace StopKept

theorem absent (s : State) (c : ChanNo) (g : Grant) : s.StopKept (s.absent c g) := by
  cases g with
  | data | periodic => exact count s c .noShow 1
  | poll n => exact miss s n c
  | join | request => exact refl s

theorem recordStray (s : State) (r : BurstRecord) (n : Option StationNo) (cause : StrayCause) :
    s.StopKept (s.recordStray r n cause) := by
  have pushed : s.StopKept (s.pushStray
      { channel := r.channel, start := r.start, outcome := r.outcome, stationNamed := r.station
        stationExpected := n, cause := cause, units := r.units.length }) := by
    rw [pushStray_frame]
    exact ⟨rfl, rfl, rfl, rfl, rfl⟩
  exact pushed.trans (raise _ (.strayBurst _ _ _ _ _) nofun)

end StopKept

/-- The state in which the expected station of a misplaced record is treated as absent: the entry has left and MISPLACED has
counted (R142). -/
def misplacedCounted (s : State) (r : BurstRecord) (e : ExpectEntry) : State :=
  (s.removeEntry r.channel e).count r.channel .misplaced 1

theorem misplacedRecord_eq (s : State) (r : BurstRecord) (e : ExpectEntry) :
    s.misplacedRecord r e =
      ((s.misplacedCounted r e).absent r.channel e.grant).recordStray r e.grant.station .misplaced := rfl

theorem misplacedCounted_counter (s : State) (r : BurstRecord) (e : ExpectEntry) (d : ChanNo) (k : ChannelCounter) :
    (s.misplacedCounted r e).counter d k =
      if d = r.channel ∧ k = .misplaced then saturate (s.counter r.channel .misplaced) 1 else s.counter d k :=
  counter_count (s.removeEntry r.channel e) r.channel d .misplaced k 1

/-- An absence counts NO-SHOW or what a miss counts, and no other. -/
theorem absent_counter (s : State) (c : ChanNo) (g : Grant) {d : ChanNo} {k : ChannelCounter}
    (other : ¬ (d = c ∧ (k = .noShow ∨ k = .misses ∨ k = .stationsLost ∨ k = .pollQueueFull))) :
    (s.absent c g).counter d k = s.counter d k := by
  cases g with
  | data | periodic => exact (counter_count s c d .noShow k 1).trans (if_neg fun x => other ⟨x.1, .inl x.2⟩)
  | poll n => exact miss_counter fun x => other ⟨x.1, .inr x.2⟩
  | join | request => rfl

/-- A record that is not taken behind an absence, and the test of R13: what they leave of a state `u` whose ring and whose
notice of a stray stand as in `s`. -/
theorem recordStray_tested {s u : State} (ring : u.strayRing = s.strayRing) (overwritten : u.overwrites = s.overwrites)
    (enable : u.noticeEnable = s.noticeEnable) (notice : u.notice .strayBurst = s.notice .strayBurst) {r : BurstRecord}
    {n : Option StationNo} {cause : StrayCause} {c : ChanNo} {t : State}
    (left : (u.recordStray r n cause).testStop c = t) :
    s.StrayWritten t
      { channel := r.channel, start := r.start, outcome := r.outcome, stationNamed := r.station
        stationExpected := n, cause := cause, units := r.units.length } ∧
    s.Raised t (.strayBurst r.channel r.start r.outcome r.station cause) ∧
    t = { u with
      channels := t.channels, strayRing := t.strayRing, overwrites := t.overwrites, notices := t.notices } ∧
    ∀ k, k ≠ .strayBurst → k ≠ .channelStopped → t.notice k = u.notice k := by
  have written := strayWritten_recordStray u r n cause
  have recorded := recordStray_frame u r n cause
  have raised : s.Raised (u.recordStray r n cause) (.strayBurst r.channel r.start r.outcome r.station cause) := by
    refine raised_raise (.strayBurst _ _ _ _ _) ?_ ?_ <;> rw [pushStray_frame]
    exacts [notice, enable]
  have passed (k : NoticeKind) (other : k ≠ .strayBurst) : (u.recordStray r n cause).notice k = u.notice k := by
    refine (notice_raise_ne _ (.strayBurst _ _ _ _ _) other).trans ?_
    rw [pushStray_frame]
    rfl
  obtain ⟨frame, notices⟩ := testStop_frame (u.recordStray r n cause) c
  rw [left] at frame notices
  simp only [StrayWritten, ring, overwritten] at written
  refine ⟨?_, ?_, ?_, fun k other stop => (notices k stop).trans (passed k other)⟩
  · rw [frame]
    exact written
  · rw [Raised, notices _ (by simp [NoticeDetail.kind])]
    exact raised
  · rw [frame, recorded]

end State

/-- Settles O30: the expected station is absent behind the removal of the entry (State.MissFrame.absent, State.missed_miss),
and State.recordStray_tested says what the record itself leaves. -/
theorem misplacedRecordsCountAgainstTheExpectedStation :
    Obligations.MisplacedRecordsCountAgainstTheExpectedStation := by
  intro s f r e n x quiet sound found clean expects named other
  have wrong := State.misplaces_of_other (State.decoded_of_clean clean) expects named other
  obtain ⟨u, absent⟩ : ∃ u, u = (s.misplacedCounted r e).absent r.channel e.grant := ⟨_, rfl⟩
  have left : s.misplacedRecord r e = u.recordStray r (some n) .misplaced := by
    rw [State.misplacedRecord_eq, expects, absent]
  have missed : (s.misplacedCounted r e).MissFrame u := absent ▸ State.MissFrame.absent _ _ _
  have uFrame := missed.frame
  have kept : (s.misplacedCounted r e).StopKept (s.misplacedRecord r e) :=
    left ▸ (absent ▸ State.StopKept.absent _ _ _).trans (State.StopKept.recordStray u r _ _)
  have stopped : s.StopTested ((s.misplacedRecord r e).testStop r.channel) r.channel :=
    State.stopTested_testStop kept.channels kept.planStores kept.noticeEnable kept.notice
  have queues := (State.testStop_expectQueues (s.misplacedRecord r e) r.channel).trans kept.expectQueues
  obtain ⟨written, raised, frame, notices⟩ := State.recordStray_tested (s := s) (u := u) (by rw [uFrame]; rfl)
    (by rw [uFrame]; rfl) (by rw [uFrame]; rfl) (missed.notice _ (by simp))
    (congrArg (fun v : State => v.testStop r.channel) left).symm
  refine ⟨_, (State.exec_burstRecord_sound quiet sound).trans
    (congrArg Host.Outcome.next (State.takeRecord_misplaced found wrong)), queues, ?_⟩
  generalize (s.misplacedRecord r e).testStop r.channel = t at *
  have counter (d : ChanNo) (k : ChannelCounter) : t.counter d k = u.counter d k := by rw [frame]; rfl
  refine ⟨?_, written, raised, stopped, ?_, ?_, fun m g turn => ?_, fun poll => ?_⟩
  · rw [counter, absent, State.absent_counter _ _ _ (by simp), State.misplacedCounted_counter, if_pos ⟨rfl, rfl⟩]
  · rw [frame, uFrame]
    rfl
  · rw [frame, uFrame]
    rfl
  · have counted : u = (s.misplacedCounted r e).count r.channel .noShow 1 := by
      rw [absent]
      rcases turn with h | h <;> rw [h] <;> rfl
    rw [frame, counted]
    rfl
  · have miss : u = (s.misplacedCounted r e).miss n r.channel := by rw [absent, poll]; rfl
    have taken : s.Missed u r.channel n :=
      miss ▸ State.missed_miss rfl fun k own => by
        rw [State.misplacedCounted_counter, if_neg (by rintro ⟨-, rfl⟩; simp at own)]
    have station : t.station n = u.station n := by rw [frame]; rfl
    refine ⟨taken.leaves frame (notices _ (by simp) (by simp)), ?_, fun d j out => ?_, fun k lost stray stop => ?_, ?_⟩
    · rw [station, miss, State.miss_lastMeasurement]
      rfl
    · rw [counter, miss, State.miss_counter (fun x => out ⟨x.1, .inr x.2⟩), State.misplacedCounted_counter,
        if_neg (fun x => out ⟨x.1, .inl x.2⟩)]
    · rw [notices k stray stop]
      exact missed.notice k lost
    · rw [frame, uFrame]
      rfl

end Sys2Proof.Machine
end

section
/-! SUPPORT. An entry closed at its EXPIRY (R148), and the statement on it. -/

namespace Sys2Proof.Machine

namespace State

/-! ## A tally report behind the removal of an entry (R99) -/

/-- A report writes the tallies and the counters alone, and so leaves what the test of R13 reads. -/
theorem StopKept.reportTally (s : State) (c : ChanNo) (p : PlanSeq) (e w k : Nat) :
    s.StopKept (s.reportTally c p e w k) := by
  have frame := tallyFrame_reportTally s c p e w k
  unfold TallyFrame at frame
  rw [frame]
  exact ⟨rfl, rfl, rfl, rfl, rfl⟩

/-- A report is read from the tallies and the counters alone. -/
theorem TallyReported.leaves {s t v : State} {c : ChanNo} {p : PlanSeq} {e w k : Nat}
    (h : s.TallyReported t c p e w k) (contention : v.contention = t.contention)
    (counters : v.channelCounters = t.channelCounters) : s.TallyReported v c p e w k := by
  have counter (d : ChanNo) (j : ChannelCounter) : v.counter d j = t.counter d j := by rw [counter, counters, counter]
  unfold TallyReported
  simp only [counter, contention]
  exact h

theorem reportTally_notices (s : State) (c : ChanNo) (p : PlanSeq) (e w k : Nat) :
    (s.reportTally c p e w k).notices = s.notices := by
  have frame := tallyFrame_reportTally s c p e w k
  unfold TallyFrame at frame
  rw [frame]

/-- A report behind the removal of an entry is a report of the state before, and writes its queue, tallies and counters. -/
theorem reportTally_removed (s : State) (c : ChanNo) (x : ExpectEntry) (p : PlanSeq) (e w k : Nat) :
    s.TallyReported ((s.removeEntry c x).reportTally c p e w k) c p e w k ∧
    (s.removeEntry c x).reportTally c p e w k =
      { s with
        expectQueues := (s.putExpectQueue c ((s.expectQueue c).erase x)).expectQueues
        contention := ((s.removeEntry c x).reportTally c p e w k).contention
        channelCounters := ((s.removeEntry c x).reportTally c p e w k).channelCounters } :=
  ⟨reportTally_reports (s.removeEntry c x) c p e w k, tallyFrame_reportTally (s.removeEntry c x) c p e w k⟩

/-! ## What the closing of an entry leaves (R148) -/

theorem closeExpired_turn {s : State} {c : ChanNo} {g : Grant} {n : StationNo} {f : FlowNo}
    (turn : g = .data n f ∨ g = .periodic n f) : s.closeExpired c g = s.count c .noShow 1 := by
  rcases turn with rfl | rfl <;> rfl

theorem StopKept.closeExpired (s : State) (c : ChanNo) (g : Grant) : s.StopKept (s.closeExpired c g) := by
  cases g with
  | data | periodic => exact count s c .noShow 1
  | poll n => exact miss s n c
  | join => exact count s c .joinEmpty 1
  | request => exact reportTally s c _ _ _ _

/-- Only a miss raises a notice (R33, R118). -/
theorem closeExpired_notices {s : State} {c : ChanNo} {g : Grant} (other : ∀ n, g ≠ .poll n) :
    (s.closeExpired c g).notices = s.notices := by
  cases g with
  | poll n => exact absurd rfl (other n)
  | data | periodic | join => rfl
  | request => exact reportTally_notices s c _ _ _ _

theorem expiryStep_expiring {s : State} {c : ChanNo} {e : ExpectEntry} (expiring : s.expiringEntry c = some e) :
    s.expiryStep c = (((s.removeEntry c e).closeExpired c e.grant).testStop c).runBeats c := by
  rw [expiryStep, expiring]

end State

/-- Settles O12: the closing of the entry is State.closeExpired by its KIND (State.missed_miss for a poll,
State.reportTally_reports for a REQUEST entry), and the end of the event State.testStop_runBeats. -/
theorem expiryClosesTheEntry : Obligations.ExpiryClosesTheEntry := by
  intro s c e expiring
  obtain ⟨u, closed⟩ : ∃ u, u = (s.removeEntry c e).closeExpired c e.grant := ⟨_, rfl⟩
  have step : s.expiryStep c = (u.testStop c).runBeats c := closed ▸ State.expiryStep_expiring expiring
  have kept : (s.removeEntry c e).StopKept u := closed ▸ State.StopKept.closeExpired _ c _
  have ends := State.testStop_runBeats u c
  obtain ⟨frame, quiet⟩ := State.testStop_runBeats_frame u c
  generalize (u.testStop c).runBeats c = t at *
  have counter (d : ChanNo) (j : ChannelCounter) : t.counter d j = u.counter d j := by rw [frame]; rfl
  refine ⟨t, congrArg Host.Outcome.next step, ?_,
    State.stopsOrGoesOn_agree ends kept.channels kept.notice kept.noticeEnable, fun other k stop => ?_, fun n f turn => ?_,
    fun join => ?_, fun n poll => ?_, fun g marks p request => ?_⟩
  · rw [frame]
    exact kept.expectQueues
  · rw [quiet k stop, closed, State.notice, State.closeExpired_notices other]
    rfl
  · rw [frame, closed, State.closeExpired_turn turn]
    rfl
  · rw [frame, closed, join]
    rfl
  · have miss : u = (s.removeEntry c e).miss n c := by rw [closed, poll]; rfl
    have missed := State.MissFrame.miss (s.removeEntry c e) n c
    rw [← miss] at missed
    have uFrame := missed.frame
    have taken : s.Missed u c n := miss ▸ State.missed_miss rfl fun _ _ => rfl
    have taken' : s.Missed t c n := by
      refine taken.leaves ?_ (quiet _ (by simp))
      rw [frame]
    refine ⟨taken', ?_, fun m other => taken'.others other, fun d j other => ?_, fun k lost stop => ?_, fun no => ?_, ?_⟩
    · have same : t.station n = u.station n := by rw [frame]; rfl
      rw [same, miss, State.miss_lastMeasurement]
      rfl
    · rw [counter, miss, State.miss_counter other]
      rfl
    · rw [quiet k stop, missed.notice k lost]
      rfl
    · have aside : u = s.removeEntry c e := miss.trans (State.miss_setAside no)
      refine ⟨?_, ?_⟩
      · rw [frame, aside]
        rfl
      · rw [quiet _ (by simp), aside]
        rfl
    · rw [frame, uFrame]
      rfl
  · have report : u = (s.removeEntry c e).reportTally c p (marks.count .empty + marks.count .unreported)
        (marks.count .success) (marks.count .collided) := by rw [closed, request]; rfl
    obtain ⟨taken, uFrame⟩ := State.reportTally_removed s c e p (marks.count .empty + marks.count .unreported)
      (marks.count .success) (marks.count .collided)
    rw [← report] at taken uFrame
    refine ⟨taken.leaves (by rw [frame]) (by rw [frame]), ?_⟩
    rw [frame, uFrame]

end Sys2Proof.Machine
end

section
/-! SUPPORT. The units of a record, dispatched one at a time, and a request handoff (R49 to R52, R57, R92, R147, R152). -/

namespace Sys2Proof.Machine

namespace State

/-! ## A request handoff (R49 to R52) -/

/-- The flow of an accepted request, its BACKLOG raised and clamped and FRESH yes (R51). -/
def requestedFlow (x : Flow) (amount : Nat) : Flow :=
  { x with backlog := min 1048575 (x.backlog + amount), fresh := true }

/-- An accepted request taken into backlog, its flow not yet enlisted (R51, R52). -/
def requested (s : State) (c : ChanNo) (start : Beat) (f : FlowNo) (amount : Nat) : State :=
  { s with
    flows := (s.putFlow f (requestedFlow (s.flow f) amount)).flows
    requestMarks := (s.putRequestMark c (some start)).requestMarks
    channelCounters :=
      if 1048575 < (s.flow f).backlog + amount then (s.count c .requestClamp 1).channelCounters else s.channelCounters }

theorem acceptRequest_eq (s : State) (c : ChanNo) (start : Beat) (f : FlowNo) (amount : Nat) :
    s.acceptRequest c start f amount = (s.requested c start f amount).enlist f := by
  have clamp : Config.maxBacklog = 1048575 := rfl
  unfold acceptRequest requested
  rw [clamp]
  split <;> rfl

theorem requested_flow (s : State) (c : ChanNo) (start : Beat) (f : FlowNo) (amount : Nat) (g : FlowNo) :
    (s.requested c start f amount).flow g = if g = f then requestedFlow (s.flow f) amount else s.flow g :=
  flow_putFlow s f g _

section Accepted

variable {s : State} {f : FlowNo} {n : StationNo} {amount : Nat} (of : (s.flow f).station = some n)
include of

theorem requested_classOf (c : ChanNo) (start : Beat) : (s.requested c start f amount).classOf f = s.classOf f := by
  unfold classOf
  rw [requested_flow, if_pos rfl]
  simp only [requestedFlow, of]
  rfl

/-- A flow that was not enlisted is enlisted behind a request when it is ACTIVE and ELASTIC and its station ONLINE: its
BACKLOG is then above 0 (R56). -/
theorem requested_enlists (positive : 0 < amount) (c : ChanNo) (start : Beat) :
    ((s.requested c start f amount).meetsEnlistment f && ((s.requested c start f amount).flow f).listLevel.isNone) = true ↔
      (s.flow f).listLevel.isNone = true ∧ (s.flow f).state = .active ∧ (s.flow f).kind = .elastic ∧
        (s.station n).state = .online := by
  have backlog : 0 < min 1048575 ((s.flow f).backlog + amount) := by omega
  have station : (s.requested c start f amount).station n = s.station n := rfl
  simp only [meetsEnlistment, flowOnline, requested_flow, if_true, requestedFlow, of, station, backlog, decide_true,
    Bool.and_eq_true, beq_iff_eq, and_true]
  tauto

/-- An accepted request whose flow now meets the enlistment law puts it at the tail of its level (R57). -/
theorem acceptRequest_joins (positive : 0 < amount)
    (meets : (s.flow f).listLevel.isNone = true ∧ (s.flow f).state = .active ∧ (s.flow f).kind = .elastic ∧
      (s.station n).state = .online) (c : ChanNo) (start : Beat) :
    s.acceptRequest c start f amount =
      ((s.requested c start f amount).putActive (s.station n).channel (s.classOf f).priority
        (s.active (s.station n).channel (s.classOf f).priority ++ [f])).putFlow f
        { requestedFlow (s.flow f) amount with listLevel := some (s.classOf f).priority } := by
  have enlists := (requested_enlists of positive c start).2 meets
  have class' := requested_classOf (amount := amount) of c start
  have flow := requested_flow s c start f amount f
  rw [acceptRequest_eq]
  obtain ⟨no, -⟩ | ⟨m, -, -, of', e⟩ := enlist_cases (s.requested c start f amount) f
  · rw [enlists] at no
    cases no
  · rw [flow, if_pos rfl] at of' e
    obtain rfl : m = n := Option.some.inj (of'.symm.trans of)
    rw [e, class']
    rfl

theorem acceptRequest_stays (positive : 0 < amount)
    (fails : ¬ ((s.flow f).listLevel.isNone = true ∧ (s.flow f).state = .active ∧ (s.flow f).kind = .elastic ∧
      (s.station n).state = .online)) (c : ChanNo) (start : Beat) :
    s.acceptRequest c start f amount = s.requested c start f amount := by
  have enlists := mt (requested_enlists of positive c start).1 fails
  rw [acceptRequest_eq, enlist, if_neg enlists]

end Accepted

theorem requestReaches_iff (s : State) (f : FlowNo) :
    s.requestReaches f = true ↔
      (s.flow f).state ≠ .idle ∧
        ∃ n, (s.flow f).station = some n ∧
          ((s.station n).state = .aligning ∨ (s.station n).state = .parked ∨ (s.station n).state = .online) := by
  unfold requestReaches stationTakes
  cases of : (s.flow f).station <;> simp [or_assoc]

theorem requestNames_iff {s : State} {f : FlowNo} {n : StationNo} (of : (s.flow f).station = some n)
    (x : Option NamedStation) : s.requestNames f x = true ↔ ∀ y, x = some y → y.toNat = n.val := by
  unfold requestNames
  rw [of]
  cases x <;> simp [names]

theorem requestHandoff_ignored {s : State} {f : FlowNo} (no : s.requestReaches f ≠ true) {amount : Nat}
    (positive : 0 < amount) (c : ChanNo) (start : Beat) (x : Option NamedStation) :
    s.requestHandoff c start f amount x = s.count c .requestIgnored 1 := by
  simp [requestHandoff, Nat.ne_of_gt positive, no]

theorem requestHandoff_mismatch {s : State} {f : FlowNo} {x : Option NamedStation} (reaches : s.requestReaches f = true)
    (no : s.requestNames f x ≠ true) {amount : Nat} (positive : 0 < amount) (c : ChanNo) (start : Beat) :
    s.requestHandoff c start f amount x = s.count c .requestMismatch 1 := by
  simp [requestHandoff, Nat.ne_of_gt positive, reaches, no]

theorem requestHandoff_accepted {s : State} {f : FlowNo} {x : Option NamedStation} (reaches : s.requestReaches f = true)
    (named : s.requestNames f x = true) {amount : Nat} (positive : 0 < amount) (c : ChanNo) (start : Beat) :
    s.requestHandoff c start f amount x = s.acceptRequest c start f amount := by
  simp [requestHandoff, Nat.ne_of_gt positive, reaches, named]

/-! ## Units (R147) -/

theorem forwarded_forward (s : State) (u : ForwardUnit) : s.Forwarded (s.forward u) u := by
  unfold Forwarded
  obtain ⟨room, e⟩ | ⟨full, e⟩ := forward_cases s u
  · have room : s.forwardBuffer.length < 256 := room
    rw [if_pos room, e]
  · have full : ¬ s.forwardBuffer.length < 256 := Nat.not_lt.2 full
    rw [if_neg full, e]

/-- A unit is dispatched by its kind and by the entry its record is matched to. -/
theorem unitTaken_dispatchUnit (s : State) (r : BurstRecord) (g : Grant) (u : BurstUnit) :
    UnitTaken r g s u (s.dispatchUnit r g u) := by
  cases u with
  | data d =>
    cases g with
    | data | periodic | poll => exact forwarded_forward s _
    | join | request => rfl
  | request f amount x => cases g <;> rfl
  | join h => cases g <;> rfl
  | behind =>
    cases g with
    | periodic n f =>
      have stands := inCalendar_iff s r.channel f
      refine ⟨fun here => if_pos (stands.2 here), fun notWaiting notTimed => if_neg (mt stands.1 ?_)⟩
      exact not_or.2 ⟨notWaiting, notTimed⟩
    | data | poll | join | request => rfl

theorem unitsTaken_foldl (r : BurstRecord) (g : Grant) : ∀ (us : List BurstUnit) (s : State),
    UnitsTaken r g s us (us.foldl (fun t u => t.dispatchUnit r g u) s)
  | [], _ => rfl
  | u :: us, s => ⟨_, unitTaken_dispatchUnit s r g u, unitsTaken_foldl r g us _⟩

/-- The units left to dispatch: for a JOIN entry, all but the first join unit (R146). -/
theorem unitsToDispatch_eq {g : Grant} {units us : List BurstUnit}
    (whole : g ≠ .join ∨ (∀ h, .join h ∉ units) → us = units)
    (rest : ∀ l h q, g = .join → units = l ++ .join h :: q → (∀ j, .join j ∉ l) → us = l ++ q) :
    unitsToDispatch g units = us := by
  cases g with
  | join =>
    show units.eraseP BurstUnit.isJoin = us
    obtain no | ⟨l, h, q, split, first⟩ := firstJoin_cases units
    · rw [(firstJoin_none no).2, whole (.inr no)]
    · rw [rest l h q rfl split first, split, (firstJoin_some first).2]
  | data | periodic | poll | request => exact (whole (.inl nofun)).symm

/-- What settles an entry of one burst, but for a JOIN entry, does not look at the units. -/
theorem settleEntry_units (s : State) (r : BurstRecord) {g : Grant} (other : g ≠ .join) :
    s.settleEntry r g = s.settleEntry { r with units := [] } g := by
  cases g with
  | join => exact absurd rfl other
  | data | periodic | poll | request => rfl

theorem matchedRecord_dispatches {s : State} {r : BurstRecord} (decoded : r.outcome.decoded = true) (e : ExpectEntry) :
    s.matchedRecord r e = ((s.removeEntry r.channel e).settleEntry r e.grant).dispatchUnits r e.grant := if_pos decoded

theorem openingRecord_dispatches {s : State} {r : BurstRecord} (decoded : r.outcome.decoded = true) (e : ExpectEntry)
    (i : Nat) : s.openingRecord r e i = (s.markOpening r e i).dispatchUnits r e.grant := if_pos decoded

theorem unitsTaken_dispatchUnits {s : State} {r : BurstRecord} {g : Grant} {us : List BurstUnit}
    (left : unitsToDispatch g r.units = us) : UnitsTaken r g s us (s.dispatchUnits r g) :=
  left ▸ unitsTaken_foldl r g _ s

end State

/-- Settles O35: the checks are State.requestReaches_iff and State.requestNames_iff, an accepted request
State.acceptRequest_joins or State.acceptRequest_stays, and the units State.unitsTaken_dispatchUnits. -/
theorem requestHandoffsAreCheckedAndTaken : Obligations.RequestHandoffsAreCheckedAndTaken := by
  refine ⟨fun s c start f amount x =>
      ⟨fun zero => if_pos zero, fun positive => ⟨fun no => ?_, fun n busy of takes => ?_⟩⟩,
    fun s r e i => ⟨State.settleEntry_units s r, rfl⟩, fun s f r e us quiet sound clean whole rest => ?_⟩
  · exact State.requestHandoff_ignored (mt (State.requestReaches_iff s f).1 no) positive c start x
  · have reaches := (State.requestReaches_iff s f).2 ⟨busy, n, of, takes⟩
    refine ⟨fun y named other => ?_, fun named => ?_⟩
    · exact State.requestHandoff_mismatch reaches (mt (State.requestNames_iff of x).1 fun all => other (all y named))
        positive c start
    refine ⟨_, State.requestHandoff_accepted reaches ((State.requestNames_iff of x).2 named) positive c start, ?_⟩
    have flow := State.requested_flow s c start f amount
    by_cases meets : (s.flow f).listLevel.isNone = true ∧ (s.flow f).state = .active ∧ (s.flow f).kind = .elastic ∧
        (s.station n).state = .online
    · rw [State.acceptRequest_joins of positive meets c start]
      refine ⟨rfl, rfl, fun g other => ?_, fun _ => ⟨State.flow_putFlow_same _ _ _, rfl⟩,
        fun no => absurd meets no, rfl⟩
      rw [State.flow_putFlow_ne _ other]
      exact (flow g).trans (if_neg other)
    · rw [State.acceptRequest_stays of positive meets c start]
      exact ⟨rfl, rfl, fun g other => (flow g).trans (if_neg other), fun yes => absurd yes meets,
        fun _ => ⟨(flow f).trans (if_pos rfl), rfl⟩, rfl⟩
  · have decoded := State.decoded_of_clean clean
    have units := State.unitsToDispatch_eq whole rest
    refine ⟨fun found placed => ⟨_, _, State.exec_burstRecord_matched quiet sound found placed, ?_,
      State.stopTested_testStop rfl rfl rfl rfl, (State.testStop_frame _ _).1⟩, fun i found => ⟨_, _,
      (State.exec_burstRecord_sound quiet sound).trans (congrArg Host.Outcome.next (State.takeRecord_opening found)), ?_,
      State.stopTested_testStop rfl rfl rfl rfl, (State.testStop_frame _ _).1⟩⟩
    · rw [State.matchedRecord_dispatches decoded e]
      exact State.unitsTaken_dispatchUnits units
    · rw [State.openingRecord_dispatches decoded e i]
      exact State.unitsTaken_dispatchUnits units

end Sys2Proof.Machine
end

section
/-! SUPPORT. A record matched to a turn: the maintenance measurement, the data units forwarded, and the statement on it (R119,
R143, R147, R152). -/

namespace Sys2Proof.Machine

namespace State

/-! ## A maintenance measurement (R119) -/

/-- A maintenance measurement writes station records, the poll queues and the counters alone. -/
theorem maintenance_frame (s : State) (n : StationNo) (c : ChanNo) (b : Beat) (m : Measurement) :
    s.maintenance n c b m =
      { s with
        stations := (s.maintenance n c b m).stations, pollQueues := (s.maintenance n c b m).pollQueues
        channelCounters := (s.maintenance n c b m).channelCounters } := by
  unfold maintenance
  split
  · dsimp only
    split
    · rfl
    · rw [pollEnqueue_frame]
      rfl
  · rfl

theorem maintenance_setAside {s : State} {n : StationNo} {c : ChanNo}
    (no : ¬ ((s.station n).state = .online ∧ (s.station n).channel = c)) (b : Beat) (m : Measurement) :
    s.maintenance n c b m = s := if_neg no

/-- A measurement within both tolerances maintains its station. -/
theorem maintenance_within {s : State} {n : StationNo} {c : ChanNo} {m : Measurement}
    (reaches : (s.station n).state = .online ∧ (s.station n).channel = c) (within : (s.params c).within m = true)
    (b : Beat) :
    s.maintenance n c b m =
      ((s.putMeasurement n m).putStation n
        { s.station n with lastMeasurement := some m, missCount := 0, lastGood := some b }).count c .maintained 1 := by
  simp only [maintenance, if_pos reaches, within, if_true, putMeasurement_station]

/-- A measurement outside a tolerance asks its station onto the poll queue. -/
theorem maintenance_outside {s : State} {n : StationNo} {c : ChanNo} {m : Measurement}
    (reaches : (s.station n).state = .online ∧ (s.station n).channel = c) (outside : ¬ (s.params c).within m = true)
    (b : Beat) :
    s.maintenance n c b m = ((s.putMeasurement n m).pollEnqueue n).count c .maintenanceFlagged 1 := by
  simp only [maintenance, if_pos reaches, if_neg outside]

/-- A maintenance measurement counts three counters, and no other. -/
theorem maintenance_counter (s : State) (n : StationNo) (c d : ChanNo) (b : Beat) (m : Measurement) {k : ChannelCounter}
    (other : k ∉ [ChannelCounter.maintained, .maintenanceFlagged, .pollQueueFull]) :
    (s.maintenance n c b m).counter d k = s.counter d k := by
  simp only [List.mem_cons, List.not_mem_nil, or_false, not_or] at other
  obtain ⟨good, flagged, full⟩ := other
  unfold maintenance
  split
  · dsimp only
    split
    · exact (counter_count _ c d .maintained k 1).trans (if_neg fun x => good x.2)
    · rw [counter_count, if_neg (fun x => flagged x.2), pollEnqueue_counter, if_neg (fun x => full x.1.2)]
      rfl
  · rfl

/-- What a maintenance measurement within both tolerances leaves (R119). -/
theorem maintained {s : State} {n : StationNo} {c : ChanNo} {m : Measurement}
    (reaches : (s.station n).state = .online ∧ (s.station n).channel = c) (within : (s.params c).within m = true)
    (b : Beat) :
    (s.maintenance n c b m).station n =
      { s.station n with lastMeasurement := some m, missCount := 0, lastGood := some b } ∧
    (s.maintenance n c b m).counter c .maintained = saturate (s.counter c .maintained) 1 := by
  rw [maintenance_within reaches within]
  exact ⟨station_putStation_same _ n _, (counter_count _ c c .maintained .maintained 1).trans (if_pos ⟨rfl, rfl⟩)⟩

/-- What a maintenance measurement outside a tolerance leaves (R110, R119). -/
theorem maintenanceFlagged {s : State} {n : StationNo} {c : ChanNo} {m : Measurement}
    (reaches : (s.station n).state = .online ∧ (s.station n).channel = c) (outside : ¬ (s.params c).within m = true)
    (b : Beat) :
    (s.maintenance n c b m).station n =
      { s.station n with
        lastMeasurement := some m
        inPollQueue := (s.station n).inPollQueue || decide ((s.pollQueue c).length < 256) } ∧
    (s.maintenance n c b m).counter c .maintenanceFlagged = saturate (s.counter c .maintenanceFlagged) 1 := by
  have record := putMeasurement_station s n m
  have queue : (s.putMeasurement n m).pollQueue c = s.pollQueue c := rfl
  rw [maintenance_outside reaches outside]
  refine ⟨?_, ?_⟩
  · rw [count_station, pollEnqueue_station, if_pos rfl, record]
    simp only [reaches.2, queue]
  · rw [counter_count, if_pos ⟨rfl, rfl⟩, pollEnqueue_counter, if_neg (by simp)]
    rfl

theorem StopKept.maintenance (s : State) (n : StationNo) (c : ChanNo) (b : Beat) (m : Measurement) :
    s.StopKept (s.maintenance n c b m) := by
  rw [maintenance_frame]
  exact ⟨rfl, rfl, rfl, rfl, rfl⟩

/-! ## Data units forwarded (R152) -/

theorem risen_eq (v k : Nat) : risen v k = if k = 0 then v else saturate v k := rfl

/-- Units forwarded one after another fill the buffer as far as it has room, and the rest are dropped and counted. -/
theorem forwards_leave : ∀ (q : List ForwardUnit) (s : State),
    q.foldl forward s =
      { s with
        forwardBuffer := s.forwardBuffer ++ q.take (256 - s.forwardBuffer.length)
        deviceCounters := (q.foldl forward s).deviceCounters, notices := (q.foldl forward s).notices } ∧
    (q.foldl forward s).deviceCounter .forwardDrop =
      risen (s.deviceCounter .forwardDrop) (q.length - (256 - s.forwardBuffer.length))
  | [], s => by simp [risen]
  | u :: q, s => by
    obtain ⟨frame, dropped⟩ := forwards_leave q (s.forward u)
    rw [List.foldl_cons]
    obtain ⟨room, e⟩ | ⟨full, e⟩ := forward_cases s u
    · have room : s.forwardBuffer.length < 256 := room
      have more : 256 - s.forwardBuffer.length = (256 - (s.forwardBuffer.length + 1)) + 1 := by omega
      have buffer : (s.forward u).forwardBuffer = s.forwardBuffer ++ [u] := by rw [e]; rfl
      have drops : (s.forward u).deviceCounter .forwardDrop = s.deviceCounter .forwardDrop := by rw [e]; rfl
      rw [buffer, List.length_append, List.length_singleton] at frame dropped
      rw [more, List.take_succ_cons, List.length_cons, Nat.add_sub_add_right, dropped, drops]
      refine ⟨?_, rfl⟩
      rw [frame, e]
      simp
    · have full : 256 ≤ s.forwardBuffer.length := full
      have none' : 256 - s.forwardBuffer.length = 0 := Nat.sub_eq_zero_of_le full
      have buffer : (s.forward u).forwardBuffer = s.forwardBuffer := by rw [e]; rfl
      have drops : (s.forward u).deviceCounter .forwardDrop = saturate (s.deviceCounter .forwardDrop) 1 := by
        rw [e]
        exact (deviceCounter_countDevice s .forwardDrop .forwardDrop 1).trans (if_pos rfl)
      rw [buffer, none', Nat.sub_zero] at dropped
      rw [buffer, none', List.take_zero, List.append_nil] at frame
      rw [none', List.take_zero, List.append_nil, Nat.sub_zero, List.length_cons, dropped, drops, risen_saturate]
      refine ⟨?_, rfl⟩
      rw [frame, e]
      rfl

/-! ## A turn (R143) -/

/-- The data unit of a turn as the forward buffer takes it (R152). -/
def turnUnit (r : BurstRecord) (n : StationNo) (f : FlowNo) (d : List Byte) : ForwardUnit :=
  { channel := r.channel, start := r.start, station := n, flow := some f, data := d }

theorem dispatchUnits_turn {s : State} {r : BurstRecord} {g : Grant} {n : StationNo} {f : FlowNo} {us : List (List Byte)}
    (turn : g = .data n f ∨ g = .periodic n f) (units : r.units = us.map BurstUnit.data) :
    s.dispatchUnits r g = (us.map (turnUnit r n f)).foldl forward s := by
  unfold dispatchUnits
  rcases turn with rfl | rfl <;> simp only [unitsToDispatch, units, List.foldl_map] <;> rfl

theorem settleTurn_decoded {r : BurstRecord} {m : Measurement} (decoded : r.outcome.decoded = true)
    (measured : r.measurement = some m) (s : State) (n : StationNo) :
    s.settleTurn r n = (s.count r.channel .turnsAnswered 1).maintenance n r.channel r.start m := by
  unfold settleTurn
  cases outcome : r.outcome <;> simp_all [BurstOutcome.decoded]

theorem settleTurn_damaged {r : BurstRecord} (failed : r.outcome = .collided ∨ r.outcome = .damaged) (s : State)
    (n : StationNo) : s.settleTurn r n = s.count r.channel .turnsDamaged 1 := by
  unfold settleTurn
  rcases failed with h | h <;> rw [h]

theorem settleTurn_empty {r : BurstRecord} (empty : r.outcome = .empty) (s : State) (n : StationNo) :
    s.settleTurn r n = s.count r.channel .noShow 1 := by
  unfold settleTurn
  rw [empty]

theorem settleEntry_turn {g : Grant} {n : StationNo} {f : FlowNo} (turn : g = .data n f ∨ g = .periodic n f) (s : State)
    (r : BurstRecord) : s.settleEntry r g = s.settleTurn r n := by
  rcases turn with rfl | rfl <;> rfl

theorem StopKept.settleTurn (s : State) (r : BurstRecord) (n : StationNo) : s.StopKept (s.settleTurn r n) := by
  unfold State.settleTurn
  split
  · split
    · exact (count s _ _ _).trans (maintenance _ n _ _ _)
    · exact count s _ _ _
  · split
    · exact (count s _ _ _).trans (maintenance _ n _ _ _)
    · exact count s _ _ _
  all_goals exact count s _ _ _

theorem matchedRecord_undecoded {s : State} {r : BurstRecord} (undecoded : r.outcome.decoded = false) (e : ExpectEntry) :
    s.matchedRecord r e = (s.removeEntry r.channel e).settleEntry r e.grant :=
  if_neg (Bool.eq_false_iff.1 undecoded)

theorem stopKept_matchedTurn {s : State} {r : BurstRecord} {e : ExpectEntry} {n : StationNo} {f : FlowNo}
    (turn : e.grant = .data n f ∨ e.grant = .periodic n f) :
    (s.removeEntry r.channel e).StopKept (s.matchedRecord r e) := by
  have settled : (s.removeEntry r.channel e).StopKept ((s.removeEntry r.channel e).settleEntry r e.grant) := by
    rw [settleEntry_turn turn]
    exact StopKept.settleTurn _ r n
  unfold matchedRecord
  dsimp only
  split
  · exact settled.trans (StopKept.dispatchUnits _ r _)
  · exact settled

/-- A turn that carries nothing is counted once, and the stopping conditions are tested. -/
theorem turnRecord_counted {s : State} {r : BurstRecord} {e : ExpectEntry} {k : ChannelCounter}
    (settled : s.matchedRecord r e = (s.removeEntry r.channel e).count r.channel k 1) :
    (s.matchedRecord r e).testStop r.channel =
      { s with
        channels := ((s.matchedRecord r e).testStop r.channel).channels
        expectQueues := ((s.matchedRecord r e).testStop r.channel).expectQueues
        notices := ((s.matchedRecord r e).testStop r.channel).notices
        channelCounters := (s.count r.channel k 1).channelCounters } := by
  rw [(testStop_frame _ r.channel).1, settled]
  rfl

/-- The state in which the measurement of a decoded turn is taken: its entry has left and TURNS ANSWERED has counted. -/
def answered (s : State) (r : BurstRecord) (e : ExpectEntry) : State :=
  (s.removeEntry r.channel e).count r.channel .turnsAnswered 1

theorem answered_counter (s : State) (r : BurstRecord) (e : ExpectEntry) (k : ChannelCounter) :
    (s.answered r e).counter r.channel k =
      if k = .turnsAnswered then saturate (s.counter r.channel .turnsAnswered) 1 else s.counter r.channel k :=
  (counter_count (s.removeEntry r.channel e) r.channel r.channel .turnsAnswered k 1).trans
    (by simp only [true_and]; rfl)

/-- A decoded turn of data units alone: its measurement, and behind it its units. -/
theorem matchedRecord_answered {s : State} {r : BurstRecord} {e : ExpectEntry} {n : StationNo} {f : FlowNo}
    {m : Measurement} {us : List (List Byte)} (turn : e.grant = .data n f ∨ e.grant = .periodic n f)
    (decoded : r.outcome.decoded = true) (measured : r.measurement = some m) (units : r.units = us.map BurstUnit.data) :
    s.matchedRecord r e =
      (us.map (turnUnit r n f)).foldl forward ((s.answered r e).maintenance n r.channel r.start m) := by
  rw [matchedRecord_dispatches decoded, settleEntry_turn turn, settleTurn_decoded decoded measured,
    dispatchUnits_turn turn units]
  rfl

end State

/-- Settles O31: a turn that carries nothing is State.turnRecord_counted; of an answered one the measurement is
State.maintained or State.maintenanceFlagged, and the units State.forwards_leave. -/
theorem turnRecordsAreSettledByOutcome : Obligations.TurnRecordsAreSettledByOutcome := by
  intro s f r e n g quiet sound found turn placed
  have kept := State.stopKept_matchedTurn (s := s) (r := r) turn
  obtain ⟨frame, notices⟩ := State.testStop_frame (s.matchedRecord r e) r.channel
  have failed (undecoded : r.outcome.decoded = false) :
      s.matchedRecord r e = (s.removeEntry r.channel e).settleTurn r n :=
    (State.matchedRecord_undecoded undecoded e).trans (State.settleEntry_turn turn _ r)
  have damaged (h : r.outcome = .collided ∨ r.outcome = .damaged) :
      s.matchedRecord r e = (s.removeEntry r.channel e).count r.channel .turnsDamaged 1 :=
    (failed (by rcases h with h | h <;> rw [h] <;> rfl)).trans (State.settleTurn_damaged h _ n)
  have empty (h : r.outcome = .empty) : s.matchedRecord r e = (s.removeEntry r.channel e).count r.channel .noShow 1 :=
    (failed (by rw [h]; rfl)).trans (State.settleTurn_empty h _ n)
  refine ⟨_, State.exec_burstRecord_matched quiet sound found placed,
    (State.testStop_expectQueues _ _).trans kept.expectQueues,
    State.stopTested_testStop kept.channels kept.planStores kept.noticeEnable kept.notice, fun h k stop => ?_,
    fun h => State.turnRecord_counted (damaged h), fun h => State.turnRecord_counted (empty h),
    fun m us clean measured units => ?_⟩
  · rw [notices k stop]
    obtain h | h | h := h
    · rw [damaged (.inl h)]
      rfl
    · rw [damaged (.inr h)]
      rfl
    · rw [empty h]
      rfl
  have answers := State.matchedRecord_answered (s := s) turn (State.decoded_of_clean clean) measured units
  obtain ⟨v, judged⟩ : ∃ v, v = (s.answered r e).maintenance n r.channel r.start m := ⟨_, rfl⟩
  rw [← judged] at answers
  have vFrame := State.maintenance_frame (s.answered r e) n r.channel r.start m
  obtain ⟨wFrame, dropped⟩ := State.forwards_leave (us.map (State.turnUnit r n g)) v
  rw [← answers] at wFrame dropped
  rw [← judged] at vFrame
  have buffer : v.forwardBuffer = s.forwardBuffer := by rw [vFrame]; rfl
  have drops : v.deviceCounter .forwardDrop = s.deviceCounter .forwardDrop := by rw [vFrame]; rfl
  rw [buffer] at wFrame dropped
  generalize (s.matchedRecord r e).testStop r.channel = t at *
  have station (x : StationNo) : t.station x = v.station x := by rw [frame, wFrame]; rfl
  have counter (d : ChanNo) (k : ChannelCounter) : t.counter d k = v.counter d k := by rw [frame, wFrame]; rfl
  have within := (s.params r.channel).within_iff m
  refine ⟨?_, ?_, ?_, ?_, ?_, fun no => ?_, fun online on => ?_⟩
  · rw [counter, judged, State.maintenance_counter _ _ _ _ _ _ (by simp), State.answered_counter, if_pos rfl]
  · rw [frame, wFrame, ← List.map_take]
    rfl
  · have count : t.deviceCounter .forwardDrop = (s.matchedRecord r e).deviceCounter .forwardDrop := by rw [frame]; rfl
    rw [count, dropped, drops, State.risen_eq, List.length_map]
    simp only [Nat.sub_eq_zero_iff_le]
  · rw [frame, wFrame, vFrame]
    rfl
  · rw [frame, wFrame, vFrame]
    rfl
  · have aside : v = s.answered r e := judged.trans (State.maintenance_setAside (s := s.answered r e) no _ m)
    rw [frame, wFrame, aside]
    rfl
  by_cases fine : m.timing.natAbs ≤ (s.params r.channel).timingTolerance ∧
      m.power.natAbs ≤ (s.params r.channel).powerTolerance
  · obtain ⟨record, counted⟩ := State.maintained (s := s.answered r e) ⟨online, on⟩ (within.2 fine) r.start
    rw [← judged, State.answered_counter, if_neg nofun] at counted
    rw [← judged] at record
    rw [station, record, counter, counted]
    exact ⟨rfl, online, rfl, rfl, fun _ => ⟨rfl, rfl, rfl⟩, fun no => absurd fine no⟩
  · obtain ⟨record, counted⟩ := State.maintenanceFlagged (s := s.answered r e) ⟨online, on⟩ (mt within.1 fine) r.start
    rw [← judged, State.answered_counter, if_neg nofun] at counted
    rw [← judged] at record
    rw [station, record, counter, counter, counted]
    refine ⟨rfl, online, rfl, rfl, fun yes => absurd yes fine, fun _ => ⟨rfl, rfl, fun room => ?_, rfl⟩⟩
    exact Bool.or_eq_true_iff.2 (.inr (decide_eq_true room))

end Sys2Proof.Machine
end

section
/-! SUPPORT. A record matched to an opening of a REQUEST entry (R98, R99, R145), and the statement on it. -/

namespace Sys2Proof.Machine

namespace State

/-- A record without units is the mark of its opening alone. -/
theorem openingRecord_bare {s : State} {r : BurstRecord} {e : ExpectEntry} {k : Nat} {marks : List Mark} {p : PlanSeq}
    (request : e.grant = .request k marks p) (bare : r.units = []) (i : Nat) :
    s.openingRecord r e i = s.markOpening r e i := by
  have none' (t : State) : t.dispatchUnits r (.request k marks p) = t := by
    simp only [dispatchUnits, unitsToDispatch, bare, List.foldl_nil]
  simp only [openingRecord, request, none', ite_self]

/-- An entry with an opening still unreported stays, marked (R145). -/
theorem markOpening_marks {s : State} {r : BurstRecord} {e : ExpectEntry} {k i : Nat} {marks ms : List Mark} {p : PlanSeq}
    (request : e.grant = .request k marks p) (marked : marks.set i r.outcome.mark = ms) (left : Mark.unreported ∈ ms) :
    s.markOpening r e i =
      s.putExpectQueue r.channel
        (replaceFirst (fun x => x == e) (fun x => { x with grant := .request k ms p }) (s.expectQueue r.channel)) := by
  simp only [markOpening, request, marked, List.contains_iff_mem.2 left, if_true]

/-- An entry with no opening unreported leaves, and reports its openings (R99, R145). -/
theorem markOpening_reports {s : State} {r : BurstRecord} {e : ExpectEntry} {k i : Nat} {marks ms : List Mark}
    {p : PlanSeq} (request : e.grant = .request k marks p) (marked : marks.set i r.outcome.mark = ms)
    (last : Mark.unreported ∉ ms) :
    s.markOpening r e i =
      (s.removeEntry r.channel e).reportTally r.channel p (ms.count .empty) (ms.count .success) (ms.count .collided) := by
  simp only [markOpening, request, marked, markReport, List.contains_iff_mem, last, if_false,
    List.count_eq_zero_of_not_mem last, Nat.add_zero]

end State

/-- Settles O34: the mark is State.markOpening_marks or State.markOpening_reports, and the report State.reportTally_removed. -/
theorem openingRecordsMarkAndFinalize : Obligations.OpeningRecordsMarkAndFinalize := by
  intro s f r e i k marks ms p quiet sound found request bare result
  have marked : marks.set i r.outcome.mark = ms := by
    rw [result]
    cases r.outcome <;> rfl
  have opening : s.takeRecord r = (s.markOpening r e i).testStop r.channel := by
    rw [State.takeRecord_opening found, State.openingRecord_bare request bare]
  obtain ⟨frame, -⟩ := State.testStop_frame (s.markOpening r e i) r.channel
  refine ⟨_, (State.exec_burstRecord_sound quiet sound).trans (congrArg Host.Outcome.next opening), ?_, fun left => ?_,
    fun last => ?_⟩
  · by_cases left : Mark.unreported ∈ ms
    · rw [State.markOpening_marks request marked left]
      exact State.stopTested_testStop rfl rfl rfl rfl
    · have kept := State.StopKept.reportTally (s.removeEntry r.channel e) r.channel p (ms.count .empty) (ms.count .success)
        (ms.count .collided)
      rw [State.markOpening_reports request marked left]
      exact State.stopTested_testStop kept.channels kept.planStores kept.noticeEnable kept.notice
  · rw [frame, State.markOpening_marks request marked left]
    rfl
  · obtain ⟨taken, wrote⟩ := State.reportTally_removed s r.channel e p (ms.count .empty) (ms.count .success)
      (ms.count .collided)
    rw [← State.markOpening_reports request marked last] at taken wrote
    obtain ⟨empty, success, collided, known, unknown, others⟩ :=
      taken.leaves (v := (s.markOpening r e i).testStop r.channel) (by rw [frame]) (by rw [frame])
    refine ⟨empty, success, collided, fun l q x z split of first added => ?_, fun nobody => ?_, fun d j apart => ?_, ?_⟩
    · obtain ⟨goesOn, ends⟩ := known l q x z split of first added
      refine ⟨fun more => ?_, fun done => ?_⟩
      · obtain ⟨contention, counters⟩ := goesOn more
        exact ⟨contention, by simpa using counters⟩
      · obtain ⟨contention, counters⟩ := ends done
        exact ⟨contention, fun j own => counters j (by simpa using own)⟩
    · obtain ⟨contention, counters⟩ := unknown nobody
      exact ⟨contention, by simpa using counters⟩
    · exact others d j fun ⟨here, own⟩ => apart.elim (fun elsewhere => elsewhere here) fun out => out (by simpa using own)
    · rw [frame, wrote]

end Sys2Proof.Machine
end

section
/-! SUPPORT. The arbiter of the outbound System Link (R153, R155, R167), and the statement on it. -/

namespace Sys2Proof.Machine

theorem NoticeKind.mem_all (k : NoticeKind) : k ∈ NoticeKind.all := by cases k <;> decide

theorem NoticeKind.all_sorted : NoticeKind.all.Pairwise (fun j k => j.index < k.index) := by decide

/-- The kinds in order of priority, those ahead of `k` and those behind it. -/
theorem NoticeKind.all_split (k : NoticeKind) :
    ∃ l r, NoticeKind.all = l ++ k :: r ∧ ∀ j ∈ l, j.index < k.index := by
  obtain ⟨l, r, split⟩ := List.append_of_mem k.mem_all
  have sorted := NoticeKind.all_sorted
  rw [split] at sorted
  exact ⟨l, r, split, fun j among => (List.pairwise_append.1 sorted).2.2 j among k List.mem_cons_self⟩

namespace State

/-- A kind is passed over when it is DISABLED or has no pending record (R167). -/
theorem notOffered {s : State} {j : NoticeKind} (idle : vget s.noticeEnable j.index = false ∨ s.notice j = none) :
    (vget s.noticeEnable j.index && (s.notice j).isSome) = false := by
  rcases idle with h | h <;> simp [h]

/-- The notice slot offers the pending kind of the highest priority (R167). -/
theorem offeredNotice_first {s : State} {k : NoticeKind} {p : PendingNotice} (enabled : vget s.noticeEnable k.index = true)
    (pending : s.notice k = some p)
    (ahead : ∀ j, j.index < k.index → vget s.noticeEnable j.index = false ∨ s.notice j = none) :
    s.offeredNotice = some k := by
  obtain ⟨l, r, split, higher⟩ := k.all_split
  rw [offeredNotice, split]
  exact (first_of_list (fun j => vget s.noticeEnable j.index && (s.notice j).isSome) id (x := k)
    (by simp [enabled, pending]) r l fun j among => notOffered (ahead j (higher j among))).1

theorem offeredNotice_none {s : State} (idle : ∀ j, vget s.noticeEnable j.index = false ∨ s.notice j = none) :
    s.offeredNotice = none :=
  List.find?_eq_none.2 fun j _ => Bool.eq_false_iff.1 (notOffered (idle j))

/-! ## The three departures -/

section Departures

variable {s : State}

theorem departures_sending (sending : s.systemLink.sending.isSome = true) :
    s.responseDepartureStep = s ∧ s.noticeDepartureStep = s ∧ s.forwardDepartureStep = s := by
  have busy : s.systemLinkAccepts = false := by
    obtain ⟨f, h⟩ := Option.isSome_iff_exists.1 sending
    rw [systemLinkAccepts, h]
    rfl
  simp [responseDepartureStep, noticeDepartureStep, noticeChosen, forwardDepartureStep, unitChosen, busy]

theorem accepts_idle (idle : s.systemLink.sending = none) : s.systemLinkAccepts = true := by
  rw [systemLinkAccepts, idle]
  rfl

/-- A response goes ahead of every other source (R153). -/
theorem departures_response {r : Response} {q : List Response} (idle : s.systemLink.sending = none)
    (queue : s.responseQueue = r :: q) :
    s.responseDepartureStep = s.popResponse.sendSystemLink (responseFrame r) ∧ s.noticeDepartureStep = s ∧
      s.forwardDepartureStep = s := by
  simp [responseDepartureStep, noticeDepartureStep, noticeChosen, forwardDepartureStep, unitChosen, accepts_idle idle, queue]

/-- With no response, the notice that is offered goes ahead of the data units (R153, R167). -/
theorem departures_notice {k : NoticeKind} {p : PendingNotice} (idle : s.systemLink.sending = none)
    (empty : s.responseQueue = []) (offered : s.offeredNotice = some k) (pending : s.notice k = some p) :
    s.noticeDepartureStep = ((s.dropNotice k).countDevice .noticesSent 1).sendSystemLink (noticeFrame p) ∧
      s.forwardDepartureStep = s := by
  simp [noticeDepartureStep, noticeChosen, forwardDepartureStep, unitChosen, accepts_idle idle, empty, offered, pending]

/-- With neither, the head of the forward buffer is sent (R152, R153). -/
theorem departures_forward {u : ForwardUnit} {q : List ForwardUnit} (idle : s.systemLink.sending = none)
    (empty : s.responseQueue = []) (offered : s.offeredNotice = none) (buffer : s.forwardBuffer = u :: q) :
    s.forwardDepartureStep =
      ((s.putForwardBuffer q).countDevice .unitsForwarded 1).sendSystemLink (forwardFrame u) ∧
      s.noticeDepartureStep = s := by
  simp [noticeDepartureStep, noticeChosen, forwardDepartureStep, unitChosen, accepts_idle idle, empty, offered, buffer]

end Departures

end State

/-- Settles O37: the choices are State.departures_response, State.departures_notice and State.departures_forward, and the
frames State.responseFrame_fields, State.noticeFrame_fields and State.forwardFrame_fields. -/
theorem systemLinkSendsByPriority : Obligations.SystemLinkSendsByPriority := by
  refine fun s => ⟨fun sending => ?_, fun idle => ⟨fun r q queue => ?_, fun k p empty enabled pending ahead => ?_,
    fun u q empty unoffered buffer => ?_⟩⟩
  · obtain ⟨response, notice, forward⟩ := State.departures_sending sending
    exact ⟨congrArg Host.Outcome.next response, congrArg Host.Outcome.next notice, congrArg Host.Outcome.next forward⟩
  · obtain ⟨response, notice, forward⟩ := State.departures_response idle queue
    refine ⟨congrArg Host.Outcome.next notice, congrArg Host.Outcome.next forward,
      congrArg Host.Outcome.next (response.trans ?_)⟩
    rw [State.responseFrame_fields, State.popResponse, queue]
    rfl
  · obtain ⟨notice, forward⟩ :=
      State.departures_notice idle empty (State.offeredNotice_first enabled pending ahead) pending
    refine ⟨congrArg Host.Outcome.next forward, congrArg Host.Outcome.next (notice.trans ?_)⟩
    rw [State.noticeFrame_fields]
    rfl
  · obtain ⟨forward, notice⟩ := State.departures_forward idle empty (State.offeredNotice_none unoffered) buffer
    refine ⟨congrArg Host.Outcome.next notice, congrArg Host.Outcome.next (forward.trans ?_)⟩
    rw [State.forwardFrame_fields]
    rfl

end Sys2Proof.Machine
end

section
/-! SUPPORT. Frames that arrive and frames that are refused as they stand, COUNTERS, CLEAR and the two resets (R154 to R156, R164,
R168, R169, R173, R174). -/

namespace Sys2Proof.Machine

namespace State

/-! ## A control frame that arrives (R154) -/

/-- A frame that the sender may still send is queued or refused; under INBOUND HOLD it is the one whose transfer had begun
(R155). -/
theorem takeControlFrame_taken {s : State} (f : RawFrame) (may : s.inboundHold = false ∨ s.heldArrival = false) :
    s.takeControlFrame f =
      { s.queueFrame f with heldArrival := if s.inboundHold then true else s.heldArrival } := by
  unfold takeControlFrame
  cases hold : s.inboundHold with
  | true =>
    obtain h | held := may
    · cases hold.symm.trans h
    · simp [held]
  | false =>
    obtain ⟨-, e⟩ | ⟨-, e⟩ := queueFrame_cases s f <;> rw [e] <;> rfl

/-! ## Frames refused as they stand (R156, R173) -/

theorem inboundHold_begin {s : State} (may : s.executionMayBegin = true) : s.inboundHold = false := by
  simp only [executionMayBegin, Bool.and_eq_true, Bool.not_eq_true'] at may
  exact may.1.2

/-- A frame refused before its operation is looked at leaves nothing but what every execution does. -/
theorem finish_refused {s : State} {f : RawFrame} {q : List RawFrame} {code : Code}
    (may : s.executionMayBegin = true) (refused : code ≠ .done) :
    s.Answers ((s.beginFrame q).finish f.tag f.operation code []) f q code [] ∧
      (s.beginFrame q).finish f.tag f.operation code [] =
        s.managed ((s.beginFrame q).finish f.tag f.operation code []) := by
  have hold := inboundHold_begin may
  obtain ⟨done, -⟩ | ⟨-, e⟩ := (s.beginFrame q).finish_cases f.tag f.operation code []
  · exact absurd done refused
  · rw [e]
    refine ⟨⟨rfl, rfl, ?_, fun k => ?_⟩, rfl⟩
    · show (s.inboundHold || decide (30 ≤ s.responseQueue.length + 1)) = _
      rw [hold, Bool.false_or]
    · simp only [deviceCounter, countDevice, pushResponse, beginFrame, putControlQueue, vget_vput]
      cases k <;> simp [DeviceCounter.index, refused]

end State

theorem parsed_malformed {f : RawFrame}
    (fails : f.close = .frameAbort ∨ f.bytes.head? ≠ some 7#8 ∨ f.checkHolds = false ∨ f.declared ≠ f.body.length ∨
        f.body.length < 3 ∨ 1024 < f.body.length ∨
        (1 ≤ f.operation.toNat ∧ f.operation.toNat ≤ 18 ∧ readOperands f.operation.toNat (f.body.drop 3) = none)) :
    f.parsed = .malformed := by
  unfold RawFrame.parsed
  split
  · next holds =>
    simp only [RawFrame.formatHolds, Bool.and_eq_true, beq_iff_eq, decide_eq_true_eq, Config.maxControlBody] at holds
    obtain ⟨⟨⟨⟨⟨close, type⟩, check⟩, length⟩, least⟩, most⟩ := holds
    obtain h | h | h | h | h | h | ⟨low, high, none⟩ := fails
    · cases close.symm.trans h
    · exact absurd type h
    · cases check.symm.trans h
    · exact absurd length h
    · exact absurd least (Nat.not_le.2 h)
    · exact absurd (of_decide_eq_true most) (Nat.not_le.2 h)
    · rw [if_pos ⟨low, high⟩, none]
  · rfl

theorem formatHolds_sound {f : RawFrame} (close : f.close = .frameEnd) (type : f.bytes.head? = some 7#8)
    (check : f.checkHolds = true) (length : f.declared = f.body.length) (least : 3 ≤ f.body.length)
    (most : f.body.length ≤ 1024) : f.formatHolds = true := by
  simp [RawFrame.formatHolds, close, type, check, length, least, most, Config.maxControlBody]

/-- Settles O36, by State.takeControlFrame_taken: what is due has been done, so the frame finds the queues as they stand. -/
theorem controlFramesAreQueuedOrRefused : Obligations.ControlFramesAreQueuedOrRefused := by
  intro s f quiet
  have run : exec (.controlFrame f) s = .next (s.takeControlFrame f) := by
    show Host.Outcome.next (s.settle.takeControlFrame f) = _
    rw [State.settle_quiet quiet]
  rw [run]
  refine ⟨fun hold held => ?_, fun may => ⟨fun room => ?_, fun full => ?_⟩⟩
  · simp [State.takeControlFrame, hold, held]
  · obtain ⟨-, e⟩ | ⟨more, -⟩ := State.queueFrame_cases s f
    · rw [State.takeControlFrame_taken f may, e]
      rfl
    · exact absurd room (Nat.not_lt.2 more)
  · obtain ⟨less, -⟩ | ⟨-, e⟩ := State.queueFrame_cases s f
    · exact absurd full (Nat.not_le.2 less)
    · rw [State.takeControlFrame_taken f may, e]
      rfl

/-- Settles O38: such a frame is parsed as none of the operations, and State.finish_refused says what is left. -/
theorem unknownOpRefusesTheHeadFrame : Obligations.UnknownOpRefusesTheHeadFrame := by
  intro s f q may queue
  have run (row : f.parsed.row = .unknownOp) : exec .unknownOp s = .next (s.executeFrame f q) := by
    rw [← State.executeRow_head may queue, row]
    rfl
  refine ⟨fun fails => ?_, fun close type check length least most outside => ?_⟩
  · have malformed := parsed_malformed fails
    have left : s.executeFrame f q = (s.beginFrame q).finish f.tag f.operation .malformed [] := by
      simp only [State.executeFrame, malformed]
    exact ⟨_, left ▸ run (by rw [malformed]; rfl), State.finish_refused may nofun⟩
  · have unknown : f.parsed = .unknown := by
      rw [RawFrame.parsed, if_pos (formatHolds_sound close type check length least most), if_neg (by omega)]
    have left : s.executeFrame f q = (s.beginFrame q).finish f.tag f.operation .unknownOp [] := by
      simp only [State.executeFrame, unknown]
    exact ⟨_, left ▸ run (by rw [unknown]; rfl), State.finish_refused may nofun⟩

/-! ## COUNTERS (R164) -/

theorem countersOp_channel (s : State) (c : ChanNo) {x : Nat} (value : x ≤ 1) :
    s.countersOp c.val x =
      { state :=
          { s with
            channelCounters :=
              if x = 1 then vput s.channelCounters c (Vector.replicate 48 0) else s.channelCounters }
        code := .done
        results := (vget s.channelCounters c).toList.flatMap (fun n => be 4 n) } := by
  unfold State.countersOp
  rw [if_neg (Nat.not_lt.2 (Nat.le_of_lt c.isLt)), if_neg (Nat.not_lt.2 value), asIndex_val]
  dsimp only
  split <;> rfl

theorem countersOp_device (s : State) {x : Nat} (value : x ≤ 1) :
    s.countersOp 8 x =
      { state :=
          { s with deviceCounters := if x = 1 then Vector.replicate 11 0 else s.deviceCounters }
        code := .done
        results := s.deviceCounters.toList.flatMap (fun n => be 4 n) } := by
  unfold State.countersOp
  rw [if_neg (Nat.lt_irrefl 8), if_neg (Nat.not_lt.2 value), asIndex_eq_none (Nat.le_refl 8)]
  dsimp only
  split <;> rfl

/-- Settles O54, by the cases of the operands. -/
theorem countersReturnsAndClears : Obligations.CountersReturnsAndClears := by
  intro s f q i x head
  have hold := State.inboundHold_begin head.1
  refine ⟨s.executeFrame f q, congrArg Host.Outcome.next (State.executeRow_executes head), fun index => ?_,
    fun index value => ?_, fun c own value => ?_, fun device value => ?_⟩
  · exact State.executeFrame_refused head (by simp [State.operate, State.countersOp, index])
  · exact State.executeFrame_refused head (by simp [State.operate, State.countersOp, Nat.not_lt.2 index, value])
  · subst own
    have ends := congrArg Taken.ends (countersOp_channel (s.beginFrame q) c value)
    obtain ⟨answers, frame⟩ := State.executeFrame_answers head ends rfl rfl rfl rfl
    refine ⟨answers, frame.trans ?_⟩
    rw [State.managed, answers.1]
    rfl
  · subst device
    have ends := State.executeFrame_ends head.2.2 (congrArg Taken.ends (countersOp_device (s.beginFrame q) value))
    rw [ends]
    exact ⟨rfl, rfl, rfl, rfl⟩

/-! ## CLEAR (R169) -/

/-- Settles O55: the execution is written out by State.executeFrame_ends. -/
theorem clearKeepsTheConfiguration : Obligations.ClearKeepsTheConfiguration := by
  intro s f q head
  have left : s.executeFrame f q = (s.beginFrame q).cleared.pushResponse (State.responseTo f .done []) :=
    State.executeFrame_ends head.2.2 rfl
  have hold : (s.beginFrame q).cleared.inboundHold = false := State.inboundHold_begin (s := s) head.1
  refine ⟨_, congrArg Host.Outcome.next ((State.executeRow_executes head).trans left), fun c => ?_, ?_⟩
  · show vget (s.channels.map clearedContext) c = clearedContext (s.context c)
    rw [vget_map, State.context]
  · rw [State.pushResponse, hold, Bool.false_or]
    simp only [State.cleared, State.beginFrame, State.putControlQueue, State.countDevice, Config.inboundHoldAt]
    congr

/-! ## The resets (R168, R174) -/

/-- A reset closes the frame that a link is sending, at least one byte of its BODY and CHECK short. -/
theorem brokenOff_abortLink (l : OutLink) (k : Nat) : l.BrokenOff (State.abortLink l k) := by
  unfold State.abortLink OutLink.BrokenOff
  cases sending : l.sending with
  | none => exact ⟨sending, fun _ => rfl, nofun⟩
  | some f =>
    refine ⟨rfl, nofun, fun g same => ?_⟩
    cases same
    refine ⟨_, rfl, List.take_prefix _ _, fun long => ?_⟩
    rw [List.length_take]
    omega

/-- Settles O3: both resets are State.afterReset. -/
theorem resetsGiveTheResetState : Obligations.ResetsGiveTheResetState := fun s hold =>
  ⟨s.afterReset hold, rfl, rfl, rfl, brokenOff_abortLink _ _, brokenOff_abortLink _ _⟩

end Sys2Proof.Machine
end

section
/-! SUPPORT. The record images field by field (section 11.1), a TABLE that names none of the nine (R158), and READ (R159). -/

namespace Sys2Proof.Machine

namespace State

/-! ## The images are their fields (section 11.1) -/

theorem bitsLow_cons (b : Bool) (q : List Bool) : bitsLow (b :: q) = bit b + 2 * bitsLow q := rfl

theorem bitsLow_nil : bitsLow [] = 0 := rfl

theorem fieldBytes_map {α : Type} (g : α → Nat × Nat) (q : List α) :
    fieldBytes (q.map g) = q.flatMap (fun x => be (g x).1 (g x).2) := by
  rw [fieldBytes, List.flatMap_map]

/-- Bits, the first at weight `2 ^ i`, for kinds that stand at `i` and on. -/
theorem bitsLow_kinds (p : NoticeKind → Bool) :
    ∀ (q : List NoticeKind) (i : Nat), q.map (fun k => k.index.val) = List.range' i q.length →
      2 ^ i * bitsLow (q.map p) = (q.map (fun k => if p k then 2 ^ k.index.val else 0)).sum
  | [], _, _ => Nat.mul_zero _
  | k :: q, i, places => by
    simp only [List.map_cons, List.length_cons, List.range'_succ, List.cons.injEq] at places
    obtain ⟨here, places⟩ := places
    have rest := bitsLow_kinds p q (i + 1) places
    simp only [List.map_cons, List.sum_cons, bitsLow_cons, ← rest, here, bit]
    split <;> ring

/-- An absent field is sent as 0. -/
theorem beOpt_map {α : Type} (n : Nat) {g : α → Nat} {d : α} (absent : g d = 0) (x : Option α) :
    beOpt n (x.map g) = be n (g (x.getD d)) := by
  cases x with
  | none => rw [beOpt, Option.map_none, Option.getD_none, Option.getD_none, absent]
  | some a => rfl

theorem measurement_bytes (x : Option Measurement) :
    (x.map Measurement.bytes).getD (be 4 0) =
      be 2 (twos 2 (x.getD ⟨0, 0, 0⟩).timing) ++
        (be 1 (twos 1 (x.getD ⟨0, 0, 0⟩).power) ++ be 1 (x.getD ⟨0, 0, 0⟩).quality) := by
  cases x with
  | none => rfl
  | some m => simp only [Option.map_some, Option.getD_some, Measurement.bytes, beInt_twos, List.append_assoc]

theorem stationImage_fields (n : StationNo) (x : Station) : stationImage n x = fieldBytes (stationFields n x) := by
  have id (h : Option HwId) := beOpt_map 6 (g := fun h => h.toNat) (d := 0) rfl h
  have beat (b : Option Beat) := beOpt_map 4 (g := fun b => b.toNat) (d := 0) rfl b
  simp only [stationImage, stationFields, bitsLow_cons, bitsLow_nil, fieldBytes_append, fieldBytes_cons, fieldBytes_nil,
    fieldBytes_map, boolCode_bit, beInt_twos, measurement_bytes, id, beat, List.append_assoc, List.append_nil]
  refine congrArg₂ (· ++ ·) (congrArg (be 1) (by ring)) ?_
  cases x.state <;> cases x.policySelect <;> simp only [StationState.code, PolicySelect.code]

theorem flowImage_fields (f : FlowNo) (x : Flow) : flowImage f x = fieldBytes (flowFields f x) := by
  have beat (b : Option Beat) := beOpt_map 4 (g := fun b => b.toNat) (d := 0) rfl b
  unfold flowImage flowFields
  simp only [bitsLow_cons, bitsLow_nil, fieldBytes_cons, fieldBytes_nil, boolCode_bit, beat,
    List.append_assoc, List.append_nil]
  refine congrArg₂ (· ++ ·) (congrArg (be 1) (by ring)) ?_
  cases x.state <;> cases x.kind <;> simp only [FlowState.code, FlowKind.code, beOpt]

theorem classImage_fields (x : PolicyClass) : classImage x = fieldBytes (classFields x) := by
  simp only [classImage, classFields, fieldBytes_cons, fieldBytes_nil, boolCode_bit, List.append_assoc, List.append_nil]

theorem pageImage_fields (x : Page) : pageImage x = fieldBytes (pageFields x) := by
  unfold pageImage pageFields
  simp only [fieldBytes_cons, fieldBytes_nil, boolCode_bit, List.append_assoc, List.append_nil]
  cases x.params.sourceMode <;> simp only [SourceMode.code]

theorem tally_bytes (x : Option LatestTally) :
    (x.map LatestTally.bytes).getD (be 11 0) =
      fieldBytes (match x with
        | none => [(11, 0)]
        | some t =>
          [(2, t.planSequence.toNat), (2, t.n), (2, t.empty), (2, t.success), (2, t.collided), (1, bit t.used)]) := by
  cases x with
  | none => rfl
  | some t =>
    simp only [Option.map_some, Option.getD_some, LatestTally.bytes, fieldBytes_cons, fieldBytes_nil, boolCode_bit,
      List.append_assoc, List.append_nil]

theorem channelImage_fields (x : ChannelContext) (k : Contention) :
    channelImage x k = fieldBytes (channelFields x k) := by
  unfold channelImage channelFields
  simp only [tally_bytes, pageImage_fields, bitsLow_cons, bitsLow_nil, fieldBytes_append, fieldBytes_cons, boolCode_bit,
    beBeat_be, List.append_assoc, Nat.mul_zero, Nat.add_zero]
  cases x.state <;> cases x.drainMark <;> simp only [ChannelState.code, DrainMark.code] <;> rfl

theorem strayImage_fields (x : StrayEntry) : strayImage x = fieldBytes (strayFields x) := by
  simp only [strayImage, strayFields, bitsLow_cons, bitsLow_nil, fieldBytes_cons, fieldBytes_nil, beBeat_be,
    List.append_assoc, List.append_nil, Nat.mul_zero, Nat.add_zero]
  cases x.outcome <;> cases x.cause <;> cases x.stationNamed <;> cases x.stationExpected <;> rfl

theorem deviceImage_fields (s : State) : deviceImage s = fieldBytes s.deviceFields := by
  have pending := bitsLow_kinds (fun k => (s.notice k).isSome) NoticeKind.all 0 (by decide)
  rw [Nat.pow_zero, Nat.one_mul] at pending
  simp only [deviceImage, deviceFields, pending, fieldBytes_append, fieldBytes_cons, fieldBytes_nil, fieldBytes_map,
    boolCode_bit, beOpt, List.append_assoc, List.append_nil]

end State

end Sys2Proof.Machine
end

section
/-! SUPPORT. A TABLE that names none of the nine (R158), and the statement on READ (R159). -/

namespace Sys2Proof.Machine

theorem tableOf_none {i : Nat} (beyond : 9 ≤ i) : tableOf i = none := by
  obtain ⟨k, rfl⟩ := Nat.exists_eq_add_of_le' beyond
  rfl

theorem readRead_noTable {b : Byte} (unknown : tableOf b.toNat = none) (r : List Byte) :
    readRead (b :: r) = some (.noTable .read) := by
  unfold readRead
  simp only [unknown]

theorem readWrite_noTable {b : Byte} (unknown : tableOf b.toNat = none) (r : List Byte) :
    readWrite (b :: r) = some (.noTable .write) := by
  unfold readWrite
  simp only [unknown]

theorem readFill_noTable {b : Byte} (unknown : tableOf b.toNat = none) (r : List Byte) :
    readFill (b :: r) = some (.noTable .fill) := by
  unfold readFill
  simp only [unknown]

namespace State

/-! ## A TABLE that names none of the nine (R158; assumption 25) -/

/-- A READ, WRITE or FILL whose TABLE names none of the nine is that, whatever follows it. -/
theorem executes_noTable {s : State} {f : RawFrame} {q : List RawFrame} {i : Nat} {o : TableOp}
    (operands : ∀ (b : Byte) (r : List Byte), tableOf b.toNat = none → readOperands i (b :: r) = some (.noTable o))
    (least : 1 ≤ i) (most : i ≤ 18) (names : s.NamesNoTable f q i) : s.Executes f q (.noTable o) := by
  obtain ⟨may, queue, close, type, check, length, short, operation, b, table, beyond⟩ := names
  obtain ⟨inside, at3⟩ := List.getElem?_eq_some_iff.1 table
  refine ⟨may, queue, ?_⟩
  rw [RawFrame.parsed, if_pos (formatHolds_sound close type check length (Nat.le_of_lt inside) short), operation,
    if_pos ⟨least, most⟩, List.drop_eq_getElem_cons inside, at3, operands b _ (tableOf_none beyond)]

/-- It is answered BAD-TABLE. -/
theorem noTable_refused {s : State} {f : RawFrame} {q : List RawFrame} {o : TableOp} (head : s.Executes f q (.noTable o)) :
    s.Answers (s.executeFrame f q) f q .badTable [] ∧ s.executeFrame f q = s.managed (s.executeFrame f q) :=
  executeFrame_refused head rfl

/-! ## READ (R159) -/

theorem readCheck_begin (s : State) (q : List RawFrame) (k : TableId) (i n : Nat) :
    (s.beginFrame q).readCheck k i n = s.readCheck k i n := by
  cases k <;> rfl

theorem readOp_refused {s : State} {k : TableId} {i n : Nat} (tag : BitVec 16) (refused : s.readCheck k i n ≠ .done) :
    s.readOp tag k i n = .ends (s.answer (s.readCheck k i n)) := by
  unfold readOp
  split
  · next passed => exact absurd passed refused
  · rfl

theorem readOp_one {s : State} {k : TableId} {i : Nat} (tag : BitVec 16) (passed : s.readCheck k i 1 = .done) :
    s.readOp tag k i 1 =
      .ends { state := s, code := .done, results := s.readOpening k ++ s.recordImage s.strayRing k i } := by
  simp [readOp, passed]

theorem readOp_several {s : State} {k : TableId} {i n : Nat} (tag : BitVec 16) (passed : s.readCheck k i n = .done)
    (several : 1 < n) :
    s.readOp tag k i n =
      .goesOn (.reading
        { tag := tag, table := k, next := i, remaining := n, results := s.readOpening k
          ring := if k = .stray then s.strayRing else [] }) := by
  simp [readOp, passed, Nat.ne_of_gt several]

/-- An operation that is reached record by record: the frame has left the queue and is the execution under way (R156). -/
theorem executeFrame_goesOn {s : State} {f : RawFrame} {q : List RawFrame} {o : Op} {e : Execution}
    (head : s.Executes f q o) (goes : (s.beginFrame q).operate f.tag o = .goesOn e) :
    s.executeFrame f q = (s.beginFrame q).putExecution (some e) := by
  simp only [executeFrame, head.2.2, goes]

/-- The checks of a READ and what it begins. -/
theorem read_taken {s : State} {f : RawFrame} {q : List RawFrame} {k : TableId} {i n : Nat}
    (head : s.Executes f q (.read k i n)) :
    (s.readCheck k i n ≠ .done → s.Answers (s.executeFrame f q) f q (s.readCheck k i n) [] ∧
      s.executeFrame f q = s.managed (s.executeFrame f q)) ∧
    (s.readCheck k i n = .done → n = 1 →
      s.Answers (s.executeFrame f q) f q .done
        (s.readOpening k ++ { s with controlQueue := q }.recordImage s.strayRing k i) ∧
      s.executeFrame f q = s.managed (s.executeFrame f q)) ∧
    (s.readCheck k i n = .done → 1 < n →
      s.executeFrame f q =
        { s with
          controlQueue := q, deviceCounters := (s.countDevice .framesTaken 1).deviceCounters
          execution :=
            some
              (.reading
                { tag := f.tag, table := k, next := i, remaining := n, results := s.readOpening k
                  ring := if k = .stray then s.strayRing else [] }) }) := by
  rw [← readCheck_begin s q k i n]
  refine ⟨fun refused => executeFrame_refused head (readOp_refused f.tag refused), fun passed one => ?_,
    fun passed several => ?_⟩
  · subst one
    obtain ⟨answers, frame⟩ := executeFrame_answers head (readOp_one f.tag passed) rfl rfl rfl rfl
    refine ⟨?_, ?_⟩
    · cases k <;> exact answers
    · rw [managed, answers.1]
      exact frame
  · rw [executeFrame_goesOn head (readOp_several f.tag passed several)]
    cases k <;> rfl

theorem readIdentityOp_eq (s : State) (h : HwId) (n : Nat) :
    s.readIdentityOp h n =
      if n = 1 then { state := s, code := .done, results := s.identityResults h } else s.answer .badValue := by
  unfold readIdentityOp
  split <;> simp_all

/-- The images are those of section 11.1, and STRAY alone has something ahead of them. -/
theorem recordImage_fields (s : State) (ring : List StrayEntry) :
    (∀ n : StationNo, s.recordImage ring .station n.val = fieldBytes (stationFields n (s.station n))) ∧
    (∀ g : FlowNo, s.recordImage ring .flow g.val = fieldBytes (flowFields g (s.flow g))) ∧
    (∀ k : ClassNo,
      s.recordImage ring .policyA k.val = fieldBytes (classFields (s.policyClass .a k)) ∧
      s.recordImage ring .policyB k.val = fieldBytes (classFields (s.policyClass .b k))) ∧
    (∀ c : ChanNo,
      s.recordImage ring .channelActive c.val = fieldBytes (channelFields (s.context c) (s.contentionOf c)) ∧
      s.recordImage ring .channelPending c.val = fieldBytes (pageFields (s.context c).pendingPage)) ∧
    (∀ (k : Nat) (x : StrayEntry), ring[k]? = some x → s.recordImage ring .stray k = fieldBytes (strayFields x)) ∧
    s.recordImage ring .device 0 = fieldBytes s.deviceFields := by
  refine ⟨fun n => ?_, fun g => ?_, fun k => ?_, fun c => ?_, fun k x entry => ?_, deviceImage_fields s⟩
  · rw [recordImage, Fin.ofNat_val_eq_self, stationImage_fields]
  · rw [recordImage, Fin.ofNat_val_eq_self, flowImage_fields]
  · rw [recordImage, recordImage, Fin.ofNat_val_eq_self, classImage_fields, classImage_fields]
    exact ⟨rfl, rfl⟩
  · rw [recordImage, recordImage, Fin.ofNat_val_eq_self, channelImage_fields, pageImage_fields]
    exact ⟨rfl, rfl⟩
  · rw [recordImage, entry, Option.map_some, Option.getD_some, strayImage_fields]

theorem readOpening_fields (s : State) :
    s.readOpening .stray = fieldBytes [(1, s.strayRing.length), (4, s.overwrites)] ∧
      ∀ k : TableId, k ≠ .stray → s.readOpening k = [] := by
  refine ⟨?_, fun k other => ?_⟩
  · simp only [readOpening, fieldBytes_cons, fieldBytes_nil, List.append_nil]
  · unfold readOpening
    split
    · exact absurd rfl other
    · rfl

end State

/-- Settles O51: the checks by State.read_taken, the images by State.recordImage_fields, and each further record by
State.readNext. -/
theorem readReturnsRecordImages : Obligations.ReadReturnsRecordImages := by
  refine ⟨fun s f q k i n head => ?_, fun s f q h n head => ?_, fun s f q names => ?_, fun s ring => ?_,
    fun s j quiet reading => ?_⟩
  · exact ⟨s.executeFrame f q, s.readCheck k i n, congrArg Host.Outcome.next (State.executeRow_executes head), rfl,
      State.read_taken head⟩
  · refine ⟨s.executeFrame f q, congrArg Host.Outcome.next (State.executeRow_executes head), ?_⟩
    have op := congrArg Taken.ends (State.readIdentityOp_eq (s.beginFrame q) h n)
    by_cases one : n = 1
    · rw [if_pos one] at op
      obtain ⟨answers, frame⟩ := State.executeFrame_answers head op rfl rfl rfl rfl
      refine ⟨?_, fun other => absurd one other, fun _ => answers⟩
      rw [State.managed, answers.1]
      exact frame
    · rw [if_neg one] at op
      obtain ⟨answers, managed⟩ := State.executeFrame_refused head op
      exact ⟨managed, fun _ => answers, fun same => absurd same one⟩
  · have head : s.Executes f q (.noTable .read) :=
      State.executes_noTable (i := 14) (fun b r unknown => readRead_noTable unknown r) (by decide) (by decide) names
    exact ⟨_, congrArg Host.Outcome.next (State.executeRow_executes head), State.noTable_refused head⟩
  · obtain ⟨station, flow, cls, channel, stray, device⟩ := State.recordImage_fields s ring
    exact ⟨station, flow, cls, channel, stray, device, State.readOpening_fields s⟩
  · have run : exec .readRecord s = .next (s.readNext j) := by
      show Host.Outcome.next s.settle.readRecordStep = _
      rw [State.settle_quiet quiet, State.readRecordStep, reading]
    refine ⟨_, run, fun more => ?_, fun last => ?_⟩
    · rw [State.readNext, if_neg (Nat.not_le.2 more)]
      rfl
    · rw [State.readNext, if_pos last]
      rfl

end Sys2Proof.Machine
end

section
/-! SUPPORT. The checks of WRITE and FILL and what they ask (R158, R160, R161), and the statement on FILL. -/

namespace Sys2Proof.Machine

/-! ## The checks of the masked fields and values (R160) -/

theorem fieldsOpen_iff (k : TableId) (vs : List (Nat × Nat)) :
    fieldsOpen k vs = true ↔ ∀ v ∈ vs, ((k.fields[v.1]?).bind (fun x => x.range)).isSome = true := by
  rw [fieldsOpen, List.all_eq_true]
  refine forall₂_congr fun v _ => ?_
  cases k.fields[v.1]? <;> simp

/-- Where every field can be written, the values lie in the ranges of their fields. -/
theorem valuesInRange_iff {k : TableId} {vs : List (Nat × Nat)} (opened : fieldsOpen k vs = true) :
    valuesInRange k vs = true ↔
      ∀ v ∈ vs,
        (((k.fields[v.1]?).bind (fun x => x.range)).map (fun r => decide (r.1 ≤ v.2 ∧ v.2 ≤ r.2))).getD true = true := by
  rw [fieldsOpen_iff] at opened
  rw [valuesInRange, List.all_eq_true]
  refine forall₂_congr fun v among => ?_
  obtain ⟨r, range⟩ := Option.isSome_iff_exists.1 (opened v among)
  simp [range]

/-- KIND and the periodic fields of R38, by their places. -/
theorem heldFlowField_iff (i : Nat) : heldFlowField i = true ↔ i ∈ [3, 14, 15, 16, 17] := by
  simp only [heldFlowField, Bool.or_eq_true, beq_iff_eq, Bool.and_eq_true, decide_eq_true_eq, List.mem_cons,
    List.not_mem_nil, or_false]
  omega

theorem takesFill_iff (k : TableId) :
    (!k.takesFill) = true ↔ k = .channelActive ∨ k = .identity ∨ k = .stray ∨ k = .device := by
  cases k <;> decide

theorem takesWrite_iff (k : TableId) :
    (!k.takesWrite) = true ↔ k = .channelActive ∨ k = .identity ∨ k = .stray := by
  cases k <;> decide

namespace State

/-- The state of a record that forbids a write (R35, R45). -/
theorem stateAllows_iff (s : State) (k : TableId) (i : Nat) (vs : List (Nat × Nat)) :
    s.stateAllows k i vs = false ↔
      (k = .station ∧ (s.station (Fin.ofNat 8192 i)).state = .free) ∨
        (k = .flow ∧ (∃ v ∈ vs, v.1 ∈ [3, 14, 15, 16, 17]) ∧ (s.flow (Fin.ofNat 16384 i)).state = .active) := by
  have held : vs.any (fun v => heldFlowField v.1) = true ↔ ∃ v ∈ vs, v.1 ∈ [3, 14, 15, 16, 17] := by
    rw [List.any_eq_true]
    exact exists_congr fun v => and_congr_right fun _ => heldFlowField_iff v.1
  cases k
  case flow =>
    simp only [stateAllows, Bool.or_eq_false_iff, Bool.not_eq_false', held, bne_eq_false_iff_eq, reduceCtorEq, false_and,
      false_or, true_and]
  all_goals simp [stateAllows]

/-- A WRITE whose MASK names no field passes that check (R160). -/
theorem writeAllows_iff (s : State) (k : TableId) (i : Nat) (vs : List (Nat × Nat)) :
    (!s.writeAllows k i vs) = true ↔
      (k = .station ∧ vs ≠ [] ∧ (s.station (Fin.ofNat 8192 i)).state = .free) ∨
        (k = .flow ∧ (∃ v ∈ vs, v.1 ∈ [3, 14, 15, 16, 17]) ∧ (s.flow (Fin.ofNat 16384 i)).state = .active) := by
  rw [Bool.not_eq_true', writeAllows, Bool.or_eq_false_iff, stateAllows_iff]
  cases vs <;> simp

/-- What a write of a record leaves to the execution around it. -/
theorem writeRecord_kept (s : State) (k : TableId) (i : Nat) (vs : List (Nat × Nat)) :
    s.ManagementKept (s.writeRecord k i vs) := by
  have notices : ∀ (vs : List (Nat × Nat)) (s : State), s.ManagementKept (vs.foldl setNoticeField s) := by
    intro vs
    induction vs with
    | nil => exact fun s => ⟨rfl, rfl, rfl, rfl⟩
    | cons v vs ih =>
      intro s
      obtain ⟨control, responses, hold, counters⟩ := ih (s.setNoticeField v)
      rw [List.foldl_cons, ManagementKept, control, responses, hold, counters, setNoticeField]
      split <;> exact ⟨rfl, rfl, rfl, rfl⟩
  cases k
  case device => exact notices vs s
  all_goals exact ⟨rfl, rfl, rfl, rfl⟩

end State

/-- The checks of FILL, each as its rule says it. -/
theorem fillCheck_eq (k : TableId) (i n : Nat) (vs : List (Nat × Nat)) :
    fillCheck k i n vs =
      (if k = .channelActive ∨ k = .identity ∨ k = .stray ∨ k = .device then .badTable
      else if k.size ≤ i then .badIndex
      else if n < 1 then .badValue
      else if k.size < i + n then .badIndex
      else if ¬ (∀ v ∈ vs, ((k.fields[v.1]?).bind (fun x => x.range)).isSome = true) then .badField
      else if ¬ (∀ v ∈ vs,
          (((k.fields[v.1]?).bind (fun x => x.range)).map (fun r => decide (r.1 ≤ v.2 ∧ v.2 ≤ r.2))).getD
            true = true) then .badValue
      else .done) := by
  have opened := fieldsOpen_iff k vs
  have ranges (h : fieldsOpen k vs = true) := valuesInRange_iff h
  unfold fillCheck
  refine if_congr (takesFill_iff k) rfl (if_congr .rfl rfl (if_congr .rfl rfl (if_congr .rfl rfl ?_)))
  refine ite_congr (propext ?_) (fun _ => rfl) fun passed => if_congr ?_ rfl rfl
  · rw [← opened, Bool.not_eq_true', Bool.not_eq_true]
  · rw [← opened, not_not] at passed
    rw [← ranges passed, Bool.not_eq_true', Bool.not_eq_true]

/-- The checks of WRITE, each as its rule says it. -/
theorem writeCheck_eq (s : State) {k : TableId} (takes : ¬ (k = .channelActive ∨ k = .identity ∨ k = .stray)) (i : Nat)
    (vs : List (Nat × Nat)) :
    s.writeCheck k i vs =
      (if k.size ≤ i then .badIndex
      else if ¬ (∀ v ∈ vs, ((k.fields[v.1]?).bind (fun x => x.range)).isSome = true) then .badField
      else if ¬ (∀ v ∈ vs,
          (((k.fields[v.1]?).bind (fun x => x.range)).map (fun r => decide (r.1 ≤ v.2 ∧ v.2 ≤ r.2))).getD
            true = true) then .badValue
      else if (k = .station ∧ vs ≠ [] ∧ (s.station (Fin.ofNat 8192 i)).state = .free) ∨
          (k = .flow ∧ (∃ v ∈ vs, v.1 ∈ [3, 14, 15, 16, 17]) ∧
            (s.flow (Fin.ofNat 16384 i)).state = .active) then .state
      else .done) := by
  have opened := fieldsOpen_iff k vs
  have ranges (h : fieldsOpen k vs = true) := valuesInRange_iff h
  unfold State.writeCheck
  rw [if_neg (mt (takesWrite_iff k).1 takes)]
  refine if_congr .rfl rfl ?_
  refine ite_congr (propext ?_) (fun _ => rfl) fun passed => if_congr ?_ rfl (if_congr (s.writeAllows_iff k i vs) rfl rfl)
  · rw [← opened, Bool.not_eq_true', Bool.not_eq_true]
  · rw [← opened, not_not] at passed
    rw [← ranges passed, Bool.not_eq_true', Bool.not_eq_true]

namespace State

theorem fillOp_refused {s : State} {k : TableId} {i n : Nat} {vs : List (Nat × Nat)} (tag : BitVec 16)
    (refused : fillCheck k i n vs ≠ .done) : s.fillOp tag k i n vs = .ends (s.answer (fillCheck k i n vs)) := by
  unfold fillOp
  split
  · next passed => exact absurd passed refused
  · rfl

theorem fillOp_begins {s : State} {k : TableId} {i n : Nat} {vs : List (Nat × Nat)} (tag : BitVec 16)
    (passed : fillCheck k i n vs = .done) :
    s.fillOp tag k i n vs =
      .goesOn (.filling
        { tag := tag, table := k, next := i, remaining := n, writes := vs, written := 0, skipped := 0 }) := by
  unfold fillOp
  rw [passed]

/-- The record a FILL reaches is written and counted in WRITTEN, or left as it is and counted in SKIPPED. -/
theorem fillNext_eq (s : State) (j : FillJob) :
    ∃ (u : State) (w x : Nat),
      (s.stateAllows j.table j.next j.writes = false → w = j.written ∧ x = j.skipped + 1 ∧ u = s) ∧
      (s.stateAllows j.table j.next j.writes = true →
        w = j.written + 1 ∧ x = j.skipped ∧ u = s.writeRecord j.table j.next j.writes) ∧
      s.ManagementKept u ∧
      s.fillNext j =
        if j.remaining ≤ 1 then (u.putExecution none).finish j.tag 16 .done (be 2 w ++ be 2 x)
        else
          u.putExecution
            (some (.filling { j with next := j.next + 1, remaining := j.remaining - 1, written := w, skipped := x })) := by
  cases allows : s.stateAllows j.table j.next j.writes with
  | false =>
    refine ⟨s, j.written, j.skipped + 1, fun _ => ⟨rfl, rfl, rfl⟩, nofun, ⟨rfl, rfl, rfl, rfl⟩, ?_⟩
    simp only [fillNext, fillReached, allows, Bool.false_eq_true, if_false]
  | true =>
    refine ⟨_, j.written + 1, j.skipped, nofun, fun _ => ⟨rfl, rfl, rfl⟩, s.writeRecord_kept j.table j.next j.writes, ?_⟩
    simp only [fillNext, fillReached, allows, if_true]

end State

/-- Settles O53: the checks by fillCheck_eq, and the record reached by State.fillNext_eq. -/
theorem fillWritesRecordByRecord : Obligations.FillWritesRecordByRecord := by
  refine ⟨fun s f q names => ?_, fun s f q k i n vs head => ?_, fun s j quiet filling => ?_⟩
  · have head : s.Executes f q (.noTable .fill) :=
      State.executes_noTable (i := 16) (fun b r unknown => readFill_noTable unknown r) (by decide) (by decide) names
    exact ⟨_, congrArg Host.Outcome.next (State.executeRow_executes head), State.noTable_refused head⟩
  · refine ⟨s.executeFrame f q, fillCheck k i n vs, congrArg Host.Outcome.next (State.executeRow_executes head),
      fillCheck_eq k i n vs, fun refused => ?_, fun passed => ?_⟩
    · exact State.executeFrame_refused head (State.fillOp_refused f.tag refused)
    · rw [State.executeFrame_goesOn head (State.fillOp_begins f.tag passed)]
      rfl
  · obtain ⟨u, w, x, skips, writes, ⟨-, responses, hold, -⟩, next⟩ := s.fillNext_eq j
    have run : exec .fillRecord s = .next (s.fillNext j) := by
      show Host.Outcome.next s.settle.fillRecordStep = _
      rw [State.settle_quiet quiet, State.fillRecordStep, filling]
    refine ⟨s.fillNext j, u, w, x, run, fun forbidden => skips ((State.stateAllows_iff s _ _ _).2 forbidden),
      fun allowed => writes (Bool.eq_true_of_not_eq_false (mt (State.stateAllows_iff s _ _ _).1 allowed)),
      fun more => ?_, fun last => ?_⟩
    · rw [next, if_neg (Nat.not_le.2 more)]
      rfl
    · rw [next, if_pos last, ← responses, ← hold]
      rfl

end Sys2Proof.Machine
end

section
/-! SUPPORT. What a write sets in each table (R160), and the statement on WRITE. -/

namespace Sys2Proof.Machine

/-- A PENDING page with all its 29 fields written (R3, R5). -/
theorem setPageFields_all (x : Page) (v : Fin 29 → Nat) :
    ((List.finRange 29).map (fun j => (j.val, v j))).foldl setPageField x =
      { params :=
          { beatLength := v 0, planLength := v 1, lead := v 2, settle := v 3, flightMargin := v 4
            sourceMode := if v 5 = 0 then .automatic else .directed, quantum := v 6, maxBurst := v 7
            requestLength := v 8, joinLength := v 9, joinCadence := v 10, pollLength := v 11
            pollLimit := v 12, maintenancePeriod := v 13, missLimit := v 14, nmin := v 15
            nmax := v 16, backoffFloor := v 17, backoffCeiling := v 18, timingTolerance := v 19
            powerTolerance := v 20, maxPowerStep := v 21 }
        profile :=
          { symbolsPerBeat := v 22, bitsPerSymbol := v 23, infoBytes := v 24, parityBytes := v 25
            shortenedAllowed := decide (v 26 = 0), preambleSymbols := v 27
            guardSymbols := v 28 } } := rfl

/-- RATE alone: a bucket is given, taken away, or kept (R46). -/
theorem writeFlow_rate (x : Flow) (v : Nat) :
    writeFlow x [(5, v)] =
      if x.rate = 0 ∧ v ≠ 0 then { x with rate := v, credit := some x.depth, residue := 0, fillAnchor := none }
      else if x.rate ≠ 0 ∧ v = 0 then { x with rate := 0, credit := none, residue := 0, fillAnchor := none }
      else { x with rate := v } := by
  show x.rateChange v = _
  unfold Flow.rateChange
  by_cases bare : x.rate = 0 <;> by_cases zero : v = 0 <;> simp only [bare, zero, ne_eq, not_true_eq_false,
    not_false_eq_true, and_true, and_false, if_true, if_false]
  cases x
  subst bare zero
  rfl

/-- RATE and DEPTH: a new bucket takes the new DEPTH (R46). -/
theorem writeFlow_rate_depth {x : Flow} {v w : Nat} (bare : x.rate = 0) (given : v ≠ 0) :
    writeFlow x [(5, v), (6, w)] =
      { x with rate := v, depth := w, credit := some w, residue := 0, fillAnchor := none } := by
  show (x.depthChange w).rateChange v = _
  rw [Flow.rateChange, if_pos (show (x.depthChange w).rate = 0 from bare), if_neg given]
  rfl

/-- KIND, CLASS and the periodic fields (R45). -/
theorem writeFlow_held (x : Flow) (a b d e h p : Nat) :
    writeFlow x [(3, a), (4, b), (14, d), (15, e), (16, h), (17, p)] =
      { x with
        kind := if a = 0 then .elastic else .periodic, cls := Fin.ofNat 8 b, turnBeats := d, period := e, jitter := h
        phase := p } := rfl

theorem NoticeKind.all_index (n : NoticeKind) : NoticeKind.all[n.index.val]? = some n := by
  cases n <;> rfl

namespace State

theorem writeOp_refused {s : State} {k : TableId} {i : Nat} {vs : List (Nat × Nat)} (refused : s.writeCheck k i vs ≠ .done) :
    s.writeOp k i vs = s.answer (s.writeCheck k i vs) := by
  unfold writeOp
  split
  · next passed => exact absurd passed refused
  · rfl

theorem writeOp_done {s : State} {k : TableId} {i : Nat} {vs : List (Nat × Nat)} (passed : s.writeCheck k i vs = .done) :
    s.writeOp k i vs = (s.writeRecord k i vs).answer .done := by
  unfold writeOp
  rw [passed]

/-- A DEVICE write of one NOTICE ENABLE (R162, R166). -/
theorem writeRecord_notice (s : State) (i : Nat) (n : NoticeKind) (v : Nat) :
    s.writeRecord .device i [(n.index.val, v)] =
      { s with
        noticeEnable := vput s.noticeEnable n.index (decide (v = 0))
        notices := if v = 0 then s.notices else vput s.notices n.index none } := by
  simp only [writeRecord, List.foldl_cons, List.foldl_nil, setNoticeField, NoticeKind.all_index, putNoticeEnable,
    beq_iff_eq]
  congr

/-- A WRITE of no field sets none (R160). -/
theorem writeRecord_nil (s : State) (k : TableId) (i : Nat) :
    (∀ n, (s.writeRecord k i []).station n = s.station n) ∧ (∀ g, (s.writeRecord k i []).flow g = s.flow g) ∧
      s.writeRecord k i [] =
        { s with stations := (s.writeRecord k i []).stations, flows := (s.writeRecord k i []).flows } := by
  cases k
  case station =>
    refine ⟨fun n => ?_, fun _ => rfl, rfl⟩
    show (s.putStation _ _).station n = _
    rw [station_putStation]
    split
    · next same => rw [same]; rfl
    · rfl
  case flow =>
    refine ⟨fun _ => rfl, fun g => ?_, rfl⟩
    show (s.putFlow _ _).flow g = _
    rw [flow_putFlow]
    split
    · next same => rw [same]; rfl
    · rfl
  case policyA =>
    have same : s.writeRecord .policyA i [] = s := by
      show { s with policyA := vput s.policyA _ (vget s.policyA _) } = s
      rw [vput_vget]
    rw [same]
    exact ⟨fun _ => rfl, fun _ => rfl, rfl⟩
  case policyB =>
    have same : s.writeRecord .policyB i [] = s := by
      show { s with policyB := vput s.policyB _ (vget s.policyB _) } = s
      rw [vput_vget]
    rw [same]
    exact ⟨fun _ => rfl, fun _ => rfl, rfl⟩
  case channelPending =>
    have same : s.writeRecord .channelPending i [] = s := by
      show { s with channels := vput s.channels _ (vget s.channels _) } = s
      rw [vput_vget]
    rw [same]
    exact ⟨fun _ => rfl, fun _ => rfl, rfl⟩
  all_goals exact ⟨fun _ => rfl, fun _ => rfl, rfl⟩

/-- A WRITE that passes its checks: the record is written, and nothing else but what every execution does. -/
theorem write_done {s : State} {f : RawFrame} {q : List RawFrame} {k : TableId} {i : Nat} {vs : List (Nat × Nat)}
    (head : s.Executes f q (.write k i vs)) (passed : (s.beginFrame q).writeCheck k i vs = .done) :
    s.executeFrame f q = ((s.beginFrame q).writeRecord k i vs).pushResponse (responseTo f .done []) ∧
      s.Answers (s.executeFrame f q) f q .done [] := by
  obtain ⟨left, answers⟩ :=
    executeFrame_done head (congrArg Taken.ends (writeOp_done passed)) ((s.beginFrame q).writeRecord_kept k i vs)
  exact ⟨left, left ▸ answers⟩

end State

/-- Settles O52: the checks by writeCheck_eq, the effect by State.write_done and what each table's write sets. -/
theorem writeChecksAndSetsMaskedFields : Obligations.WriteChecksAndSetsMaskedFields := by
  refine ⟨fun s f q names => ?_, fun s f q k i vs head => ?_⟩
  · have head : s.Executes f q (.noTable .write) :=
      State.executes_noTable (i := 15) (fun b r unknown => readWrite_noTable unknown r) (by decide) (by decide) names
    exact ⟨_, congrArg Host.Outcome.next (State.executeRow_executes head), State.noTable_refused head⟩
  have run : exec .write s = .next (s.executeFrame f q) := congrArg Host.Outcome.next (State.executeRow_executes head)
  have refused (code : (s.beginFrame q).writeCheck k i vs ≠ .done) :=
    State.executeFrame_refused head (congrArg Taken.ends (State.writeOp_refused code))
  have done (code : (s.beginFrame q).writeCheck k i vs = .done) := State.write_done head code
  refine ⟨s.executeFrame f q, (s.beginFrame q).writeCheck k i vs, run, ?_, fun code => (refused code).2, ?_, ?_, ?_⟩
  · by_cases code : (s.beginFrame q).writeCheck k i vs = .done
    · rw [code]
      exact (done code).2
    · exact (refused code).1
  · intro none
    rw [State.writeCheck, if_pos ((takesWrite_iff k).2 none)]
  · exact fun takes => writeCheck_eq (s.beginFrame q) takes i vs
  intro code
  obtain ⟨left, -⟩ := done code
  rw [left]
  refine ⟨?_, ?_, ?_, ?_, ?_, ?_, ?_, ?_, ?_, ?_, ?_⟩
  · rintro n v rfl rfl rfl
    rw [State.writeRecord, Fin.ofNat_val_eq_self]
    rfl
  · rintro g v rfl rfl rfl
    rw [State.writeRecord, Fin.ofNat_val_eq_self, writeFlow_rate]
    rfl
  · rintro g v rfl rfl rfl
    rw [State.writeRecord, Fin.ofNat_val_eq_self]
    rfl
  · rintro g v w rfl rfl rfl bare given
    rw [State.writeRecord, Fin.ofNat_val_eq_self, writeFlow_rate_depth (x := (s.beginFrame q).flow g) bare given]
    rfl
  · rintro c a b g h e rfl rfl rfl
    rw [State.writeRecord, Fin.ofNat_val_eq_self]
    rfl
  · rintro c v rfl rfl rfl
    rw [State.writeRecord, Fin.ofNat_val_eq_self]
    rfl
  · rintro c v rfl rfl rfl
    rw [State.writeRecord, Fin.ofNat_val_eq_self]
    rfl
  · rintro g a b d e h p rfl rfl rfl
    rw [State.writeRecord, Fin.ofNat_val_eq_self, writeFlow_held]
    rfl
  · rintro c v rfl rfl rfl
    rw [State.writeRecord, Fin.ofNat_val_eq_self, setPageFields_all]
    rfl
  · rintro n v rfl rfl
    rw [State.writeRecord_notice]
    rfl
  · rintro rfl
    obtain ⟨stations, flows, frame⟩ := (s.beginFrame q).writeRecord_nil k i
    refine ⟨stations, flows, ?_⟩
    generalize (s.beginFrame q).writeRecord k i [] = u at frame
    rw [frame]
    rfl

end Sys2Proof.Machine
end

section
/-! SUPPORT. What every event keeps: the bounds of counters, collections, tables and flows, the queues of the Management Unit, and
the laws of the records; and that each update of one piece keeps them. -/

namespace Sys2Proof.Machine

/-- The fields of a flow record lie within their bounds (R38, R53). -/
def Flow.Bounded (x : Flow) : Prop :=
  x.backlog ≤ 1048575 ∧ (∀ k, x.credit = some k → k ≤ x.depth) ∧ x.deficit ≤ 1023 ∧ x.extrasOwed ≤ 3

/-- The flows a calendar holds, in both parts. -/
def Calendar.size (x : Calendar) : Nat := x.waiting.length + x.timed.length

namespace State

/-- The bounds that hold of `s` hold of `t`. -/
structure BoundsKept (s t : State) : Prop where
  counters : s.CountersBounded → t.CountersBounded
  collections : s.CollectionsBounded → t.CollectionsBounded
  tables : s.TablesInForm → t.TablesInForm
  flows : s.FlowsBounded → t.FlowsBounded

theorem BoundsKept.trans {s t u : State} (h : s.BoundsKept t) (k : t.BoundsKept u) : s.BoundsKept u :=
  ⟨k.counters ∘ h.counters, k.collections ∘ h.collections, k.tables ∘ h.tables, k.flows ∘ h.flows⟩

/-- The queues of the Management Unit are in `t` as in `s`, and `t` executes nothing that `s` does not (R154 to R156). -/
structure UnitKept (s t : State) : Prop where
  controlQueue : t.controlQueue = s.controlQueue
  inboundHold : t.inboundHold = s.inboundHold
  heldArrival : t.heldArrival = s.heldArrival
  responseQueue : t.responseQueue = s.responseQueue
  execution : t.execution = s.execution ∨ t.execution = none

/-- A piece of an event keeps the bounds and the Management Unit. The laws of the records may fail between two pieces. -/
structure PartKept (s t : State) : Prop extends BoundsKept s t, UnitKept s t

/-- An event, or a piece that can stand alone, keeps the laws of the records too. -/
structure LawKept (s t : State) : Prop extends PartKept s t where
  records : s.TablesInForm → s.RecordsLawful → t.RecordsLawful

/-- What the laws of the records are read from. -/
def records (s : State) :=
  (s.stations, s.freeList, s.identity, s.flows, s.activeLists, s.calendars, s.pollQueues)

theorem recordsLawful_congr {s t : State} (same : t.records = s.records) (h : s.RecordsLawful) : t.RecordsLawful := by
  cases s
  cases t
  simp only [records, Prod.mk.injEq] at same
  obtain ⟨rfl, rfl, rfl, rfl, rfl, rfl, rfl⟩ := same
  exact h

namespace PartKept

theorem refl (s : State) : s.PartKept s := ⟨⟨id, id, id, id⟩, ⟨rfl, rfl, rfl, rfl, .inl rfl⟩⟩

theorem trans {s t u : State} (h : s.PartKept t) (k : t.PartKept u) : s.PartKept u where
  toBoundsKept := h.toBoundsKept.trans k.toBoundsKept
  controlQueue := k.controlQueue.trans h.controlQueue
  inboundHold := k.inboundHold.trans h.inboundHold
  heldArrival := k.heldArrival.trans h.heldArrival
  responseQueue := k.responseQueue.trans h.responseQueue
  execution := k.execution.elim (fun e => h.execution.imp e.trans e.trans) .inr

/-- The pieces of a list, taken one after another. -/
theorem foldl {α : Type} {step : State → α → State} (each : ∀ (s : State) (x : α), s.PartKept (step s x)) :
    ∀ (q : List α) (s : State), s.PartKept (q.foldl step s)
  | [], s => refl s
  | x :: q, s => (each s x).trans (foldl each q _)

theorem putStation (s : State) (n : StationNo) (x : Station) : s.PartKept (s.putStation n x) :=
  ⟨⟨id, id, fun h => ⟨Table.canonical_put h.1 _ _, h.2⟩, id⟩, ⟨rfl, rfl, rfl, rfl, .inl rfl⟩⟩

theorem putFlow (s : State) (f : FlowNo) {x : Flow} (bounded : (s.flow f).Bounded → x.Bounded) :
    s.PartKept (s.putFlow f x) := by
  refine ⟨⟨id, id, fun h => ⟨h.1, Table.canonical_put h.2 _ _⟩, fun h => ⟨fun g => ?_, h.2⟩⟩,
    ⟨rfl, rfl, rfl, rfl, .inl rfl⟩⟩
  rw [flow_putFlow]
  split
  · exact bounded (h.1 f)
  · exact h.1 g

theorem putFreeList (s : State) (q : List StationNo) : s.PartKept (s.putFreeList q) :=
  ⟨⟨id, id, id, id⟩, ⟨rfl, rfl, rfl, rfl, .inl rfl⟩⟩

theorem putIdentity (s : State) (m : List (HwId × StationNo)) : s.PartKept (s.putIdentity m) :=
  ⟨⟨id, id, id, id⟩, ⟨rfl, rfl, rfl, rfl, .inl rfl⟩⟩

theorem putActive (s : State) (c : ChanNo) (l : Level) (q : List FlowNo) : s.PartKept (s.putActive c l q) :=
  ⟨⟨id, id, id, id⟩, ⟨rfl, rfl, rfl, rfl, .inl rfl⟩⟩

theorem putCalendar (s : State) (c : ChanNo) {x : Calendar} (short : (s.calendar c).size ≤ 1024 → x.size ≤ 1024) :
    s.PartKept (s.putCalendar c x) := by
  refine ⟨⟨id, id, id, fun h => ⟨h.1, fun d => ?_⟩⟩, ⟨rfl, rfl, rfl, rfl, .inl rfl⟩⟩
  by_cases here : d = c
  · subst here
    rw [calendar_putCalendar_same]
    exact short (h.2 d)
  · rw [calendar_putCalendar_ne s here]
    exact h.2 d

theorem putPollQueue (s : State) (c : ChanNo) {q : List StationNo}
    (short : (s.pollQueue c).length ≤ 256 → q.length ≤ 256) : s.PartKept (s.putPollQueue c q) := by
  refine ⟨⟨id, fun h => ?_, id, id⟩, ⟨rfl, rfl, rfl, rfl, .inl rfl⟩⟩
  obtain ⟨stray, units, adjusts, polls, notices⟩ := h
  refine ⟨stray, units, adjusts, fun d => ?_, notices⟩
  by_cases here : d = c
  · subst here
    rw [pollQueue_putPollQueue_same]
    exact short (polls d)
  · rw [pollQueue_putPollQueue_ne s here]
    exact polls d

end PartKept

namespace LawKept

theorem refl (s : State) : s.LawKept s := ⟨PartKept.refl s, fun _ => id⟩

theorem trans {s t u : State} (h : s.LawKept t) (k : t.LawKept u) : s.LawKept u :=
  ⟨h.toPartKept.trans k.toPartKept, fun form law => k.records (h.tables form) (h.records form law)⟩

theorem foldl {α : Type} {step : State → α → State} (each : ∀ (s : State) (x : α), s.LawKept (step s x)) :
    ∀ (q : List α) (s : State), s.LawKept (q.foldl step s)
  | [], s => refl s
  | x :: q, s => (each s x).trans (foldl each q _)

/-! ## Updates that no bound and no law is read from -/

theorem putContext (s : State) (c : ChanNo) (x : ChannelContext) : s.LawKept (s.putContext c x) :=
  ⟨⟨⟨id, id, id, id⟩, ⟨rfl, rfl, rfl, rfl, .inl rfl⟩⟩, fun _ => id⟩

theorem putPolicyClass (s : State) (p : PolicySelect) (k : ClassNo) (x : PolicyClass) :
    s.LawKept (s.putPolicyClass p k x) :=
  ⟨⟨⟨id, id, id, id⟩, ⟨rfl, rfl, rfl, rfl, .inl rfl⟩⟩, fun _ => id⟩

theorem putRequestMark (s : State) (c : ChanNo) (m : Option Beat) : s.LawKept (s.putRequestMark c m) :=
  ⟨⟨⟨id, id, id, id⟩, ⟨rfl, rfl, rfl, rfl, .inl rfl⟩⟩, fun _ => id⟩

theorem putContention (s : State) (c : ChanNo) (x : Contention) : s.LawKept (s.putContention c x) :=
  ⟨⟨⟨id, id, id, id⟩, ⟨rfl, rfl, rfl, rfl, .inl rfl⟩⟩, fun _ => id⟩

theorem putSweepPointer (s : State) (c : ChanNo) (n : StationNo) : s.LawKept (s.putSweepPointer c n) :=
  ⟨⟨⟨id, id, id, id⟩, ⟨rfl, rfl, rfl, rfl, .inl rfl⟩⟩, fun _ => id⟩

theorem putEngine (s : State) (e : Option BuildContext) : s.LawKept (s.putEngine e) :=
  ⟨⟨⟨id, id, id, id⟩, ⟨rfl, rfl, rfl, rfl, .inl rfl⟩⟩, fun _ => id⟩

theorem putBuildCondition (s : State) (c : ChanNo) (x : BuildCondition) : s.LawKept (s.putBuildCondition c x) :=
  ⟨⟨⟨id, id, id, id⟩, ⟨rfl, rfl, rfl, rfl, .inl rfl⟩⟩, fun _ => id⟩

theorem putBuildQueue (s : State) (q : List BuildRequest) : s.LawKept (s.putBuildQueue q) :=
  ⟨⟨⟨id, id, id, id⟩, ⟨rfl, rfl, rfl, rfl, .inl rfl⟩⟩, fun _ => id⟩

theorem putPlanStore (s : State) (c : ChanNo) (x : PlanStore) : s.LawKept (s.putPlanStore c x) :=
  ⟨⟨⟨id, id, id, id⟩, ⟨rfl, rfl, rfl, rfl, .inl rfl⟩⟩, fun _ => id⟩

theorem putPlanLinkHold (s : State) (h : Bool) : s.LawKept (s.putPlanLinkHold h) :=
  ⟨⟨⟨id, id, id, id⟩, ⟨rfl, rfl, rfl, rfl, .inl rfl⟩⟩, fun _ => id⟩

theorem putPlanLink (s : State) (l : OutLink) : s.LawKept (s.putPlanLink l) :=
  ⟨⟨⟨id, id, id, id⟩, ⟨rfl, rfl, rfl, rfl, .inl rfl⟩⟩, fun _ => id⟩

theorem putExpectQueue (s : State) (c : ChanNo) (q : List ExpectEntry) : s.LawKept (s.putExpectQueue c q) :=
  ⟨⟨⟨id, id, id, id⟩, ⟨rfl, rfl, rfl, rfl, .inl rfl⟩⟩, fun _ => id⟩

theorem putSystemLink (s : State) (l : OutLink) : s.LawKept (s.putSystemLink l) :=
  ⟨⟨⟨id, id, id, id⟩, ⟨rfl, rfl, rfl, rfl, .inl rfl⟩⟩, fun _ => id⟩

theorem drawn (s : State) : s.LawKept s.drawn :=
  ⟨⟨⟨id, id, id, id⟩, ⟨rfl, rfl, rfl, rfl, .inl rfl⟩⟩, fun _ => id⟩

theorem putReference (s : State) (r : RefCount) (seen : Bool) :
    s.LawKept { s with lastReference := r, referenceSeen := seen } :=
  ⟨⟨⟨id, id, id, id⟩, ⟨rfl, rfl, rfl, rfl, .inl rfl⟩⟩, fun _ => id⟩

/-! ## Counters, notices and the collections of a fixed capacity -/

theorem count (s : State) (c : ChanNo) (k : ChannelCounter) (j : Nat) : s.LawKept (s.count c k j) := by
  refine ⟨⟨⟨fun h => ⟨fun d i => ?_, h.2⟩, id, id, id⟩, ⟨rfl, rfl, rfl, rfl, .inl rfl⟩⟩, fun _ => id⟩
  rw [counter_count]
  split
  · exact saturate_le _ _
  · exact h.1 d i

theorem countDevice (s : State) (k : DeviceCounter) (j : Nat) : s.LawKept (s.countDevice k j) := by
  refine ⟨⟨⟨fun h => ⟨h.1, fun i => ?_, h.2.2⟩, id, id, id⟩, ⟨rfl, rfl, rfl, rfl, .inl rfl⟩⟩, fun _ => id⟩
  rw [deviceCounter_countDevice]
  split
  · exact saturate_le _ _
  · exact h.2.1 i

/-- What writes the notices alone, each with a COUNT in its range, stands alone. -/
theorem of_notices {s t : State} {enable : Vector Bool 11} (frame : t = { s with noticeEnable := enable, notices := t.notices })
    (counts : ∀ k p, t.notice k = some p → s.notice k = some p ∨ (1 ≤ p.count ∧ p.count ≤ 65535) ∨
      ∃ r, s.notice k = some r ∧ p.count = min 65535 (r.count + 1)) : s.LawKept t := by
  have collections : s.CollectionsBounded → t.CollectionsBounded := by
    rintro ⟨stray, units, adjusts, polls, notices⟩
    rw [frame] at counts ⊢
    refine ⟨stray, units, adjusts, polls, fun k p raised => ?_⟩
    obtain same | fresh | ⟨r, stood, more⟩ := counts k p raised
    · exact notices k p same
    · exact fresh
    · have := notices k r stood
      omega
  rw [frame] at collections ⊢
  exact ⟨⟨⟨id, collections, id, id⟩, ⟨rfl, rfl, rfl, rfl, .inl rfl⟩⟩, fun _ => id⟩

theorem raise (s : State) (d : NoticeDetail) : s.LawKept (s.raise d) := by
  cases enabled : vget s.noticeEnable d.kind.index with
  | false =>
    rw [notice_raise_disabled s d enabled]
    exact refl s
  | true =>
    refine of_notices rfl fun k p raised => ?_
    by_cases own : k = d.kind
    · subst own
      rw [notice_raise_enabled s d enabled, Option.some.injEq] at raised
      subst raised
      cases stood : s.notice d.kind with
      | none => exact .inr (.inl ⟨le_rfl, (by decide : 1 ≤ 65535)⟩)
      | some r => exact .inr (.inr ⟨r, rfl, rfl⟩)
    · rw [notice_raise_ne s d own] at raised
      exact .inl raised

theorem dropNotice (s : State) (k : NoticeKind) : s.LawKept (s.dropNotice k) := by
  refine of_notices rfl fun j p raised => .inl ?_
  simp only [notice, State.dropNotice, vget_vput] at raised
  split at raised
  · cases raised
  · exact raised

theorem putNoticeEnable (s : State) (k : NoticeKind) (enabled : Bool) : s.LawKept (s.putNoticeEnable k enabled) := by
  refine of_notices rfl fun j p raised => .inl ?_
  cases enabled with
  | true => exact raised
  | false =>
    simp only [notice, State.putNoticeEnable] at raised
    simp only [Bool.false_eq_true, if_false, vget_vput] at raised
    split at raised
    · cases raised
    · exact raised

theorem putAdjustQueue (s : State) {q : List AdjustEntry} (short : s.adjustQueue.length ≤ 64 → q.length ≤ 64) :
    s.LawKept (s.putAdjustQueue q) :=
  ⟨⟨⟨id, fun h => ⟨h.1, h.2.1, short h.2.2.1, h.2.2.2⟩, id, id⟩, ⟨rfl, rfl, rfl, rfl, .inl rfl⟩⟩, fun _ => id⟩

theorem putForwardBuffer (s : State) {q : List ForwardUnit} (short : s.forwardBuffer.length ≤ 256 → q.length ≤ 256) :
    s.LawKept (s.putForwardBuffer q) :=
  ⟨⟨⟨id, fun h => ⟨h.1, short h.2.1, h.2.2⟩, id, id⟩, ⟨rfl, rfl, rfl, rfl, .inl rfl⟩⟩, fun _ => id⟩

theorem putStrayRing (s : State) {q : List StrayEntry} {n : Nat} (short : s.strayRing.length ≤ 64 → q.length ≤ 64)
    (few : s.overwrites ≤ 4294967295 → n ≤ 4294967295) : s.LawKept (s.putStrayRing q n) :=
  ⟨⟨⟨fun h => ⟨h.1, h.2.1, few h.2.2⟩, fun h => ⟨short h.1, h.2⟩, id, id⟩,
    ⟨rfl, rfl, rfl, rfl, .inl rfl⟩⟩, fun _ => id⟩

end LawKept

end State

end Sys2Proof.Machine
end

section
/-! SUPPORT. The laws of the records one by one: what each is read from, and how a change of one record or one list keeps it. -/

namespace Sys2Proof.Machine

/-- The station `y` stands to the laws of the records as `x` does, but for its place in a poll queue: it has the same hardware ID
and flows, and its STATE says the same of them. -/
structure Station.Peer (x y : Station) : Prop where
  hardwareId : y.hardwareId = x.hardwareId
  channel : y.channel = x.channel
  flowList : y.flowList = x.flowList
  online : y.state = .online ↔ x.state = .online
  free : y.state = .free ↔ x.state = .free
  blank : x.state = .free → y = x

/-- The station `y` stands to all laws of the records as `x` does. -/
structure Station.Alike (x y : Station) : Prop extends Station.Peer x y where
  inPollQueue : y.inPollQueue = x.inPollQueue
  takes : x.state = .aligning ∨ x.state = .parked ∨ x.state = .online →
    y.state = .aligning ∨ y.state = .parked ∨ y.state = .online

theorem Station.Alike.refl (x : Station) : x.Alike x := ⟨⟨rfl, rfl, rfl, .rfl, .rfl, fun _ => rfl⟩, rfl, id⟩

/-- A record in use that keeps its STATE, its hardware ID and its place in the lists. -/
theorem Station.Peer.of_used {x y : Station} (used : x.state ≠ .free) (state : y.state = x.state)
    (hardwareId : y.hardwareId = x.hardwareId) (channel : y.channel = x.channel) (flowList : y.flowList = x.flowList) :
    x.Peer y :=
  ⟨hardwareId, channel, flowList, by rw [state], by rw [state], fun free => absurd free used⟩

theorem Station.Alike.of_used {x y : Station} (used : x.state ≠ .free) (state : y.state = x.state)
    (hardwareId : y.hardwareId = x.hardwareId) (channel : y.channel = x.channel) (flowList : y.flowList = x.flowList)
    (inPollQueue : y.inPollQueue = x.inPollQueue) : x.Alike y :=
  ⟨.of_used used state hardwareId channel flowList, inPollQueue, by rw [state]; exact id⟩

/-- The flow `y` stands to the laws of the records as `x` does. KIND may change while the flow is not ACTIVE (R45). -/
structure Flow.Alike (x y : Flow) : Prop where
  state : y.state = x.state
  station : y.station = x.station
  listLevel : y.listLevel = x.listLevel
  nominal : y.nextNominal.isSome = x.nextNominal.isSome
  backlog : 0 < y.backlog ↔ 0 < x.backlog
  kind : x.state = .active → y.kind = x.kind

theorem Flow.Alike.refl (x : Flow) : x.Alike x := ⟨rfl, rfl, rfl, rfl, .rfl, fun _ => rfl⟩

theorem Flow.Alike.trans {x y z : Flow} (h : x.Alike y) (k : y.Alike z) : x.Alike z :=
  ⟨k.state.trans h.state, k.station.trans h.station, k.listLevel.trans h.listLevel, k.nominal.trans h.nominal,
    k.backlog.trans h.backlog, fun active => (k.kind (h.state.trans active)).trans (h.kind active)⟩

namespace State

/-! ## The laws by name -/

section Named

variable {s : State}

theorem RecordsLawful.numbers (h : s.RecordsLawful) : s.NumbersLawful := h.1

theorem RecordsLawful.flowLists (h : s.RecordsLawful) : s.FlowListsLawful := h.2.1

theorem RecordsLawful.polls (h : s.RecordsLawful) : s.PollQueuesLawful := h.2.2.1

theorem RecordsLawful.lists (h : s.RecordsLawful) : s.ListsLawful := h.2.2.2.1

theorem RecordsLawful.calendars (h : s.RecordsLawful) : s.CalendarsLawful := h.2.2.2.2

/-- The free list holds the FREE numbers, and a FREE record is at reset (R22, R26). -/
theorem NumbersLawful.mem_freeList (h : s.NumbersLawful) (n : StationNo) : n ∈ s.freeList ↔ (s.station n).state = .free :=
  h.2.1 n

theorem NumbersLawful.blank (h : s.NumbersLawful) {n : StationNo} (free : (s.station n).state = .free) :
    s.station n = Station.reset := h.2.2.1 n free

theorem FlowListsLawful.nodup_short (h : s.FlowListsLawful) (n : StationNo) :
    (s.station n).flowList.Nodup ∧ (s.station n).flowList.length ≤ 16 := h.1 n

theorem FlowListsLawful.mem (h : s.FlowListsLawful) (n : StationNo) (f : FlowNo) :
    f ∈ (s.station n).flowList ↔ (s.flow f).station = some n := h.2.1 n f

theorem FlowListsLawful.idle (h : s.FlowListsLawful) (f : FlowNo) :
    (s.flow f).state = .idle ↔ (s.flow f).station = none := h.2.2 f

theorem PollQueuesLawful.mem (h : s.PollQueuesLawful) (c : ChanNo) (n : StationNo) :
    n ∈ s.pollQueue c ↔ (s.station n).inPollQueue = true ∧ (s.station n).channel = c := h.2.1 c n

theorem PollQueuesLawful.reaches (h : s.PollQueuesLawful) {n : StationNo} (asked : (s.station n).inPollQueue = true) :
    s.Reaches n (s.station n).channel := h.2.2 n asked

end Named

/-- Flow `f` meets the enlistment law (R56). -/
def Enlistable (s : State) (f : FlowNo) : Prop :=
  (s.flow f).state = .active ∧ (s.flow f).kind = .elastic ∧ 0 < (s.flow f).backlog ∧
    ∃ n, (s.flow f).station = some n ∧ (s.station n).state = .online

/-- Flow `f` may stand in the calendar of channel `c` (R86). -/
def Timeable (s : State) (c : ChanNo) (f : FlowNo) : Prop :=
  (s.flow f).state = .active ∧ (s.flow f).kind = .periodic ∧
    ∃ n, (s.flow f).station = some n ∧ (s.station n).state = .online ∧ (s.station n).channel = c

/-- The enlistment law holds but for the flows of `q`, which may meet it and not be enlisted yet (R56). -/
structure ListsLawfulBut (s : State) (q : List FlowNo) : Prop where
  enlisted : ∀ f, f ∉ q → s.Enlistable f → (s.flow f).listLevel.isSome = true
  meets : ∀ f, (s.flow f).listLevel.isSome = true → s.Enlistable f
  nodup : ∀ c l, (s.active c l).Nodup
  mem : ∀ c l f, f ∈ s.active c l ↔
    (s.flow f).listLevel = some l ∧ ∃ n, (s.flow f).station = some n ∧ (s.station n).channel = c

theorem listsLawful_iff (s : State) : s.ListsLawful ↔ s.ListsLawfulBut [] := by
  constructor
  · rintro ⟨law, nodup, mem⟩
    exact ⟨fun f _ => (law f).2, fun f => (law f).1, nodup, mem⟩
  · rintro ⟨enlisted, meets, nodup, mem⟩
    exact ⟨fun f => ⟨meets f, enlisted f List.not_mem_nil⟩, nodup, mem⟩

theorem meetsEnlistment_iff (s : State) (f : FlowNo) : s.meetsEnlistment f = true ↔ s.Enlistable f := by
  unfold meetsEnlistment flowOnline Enlistable
  cases (s.flow f).station with
  | none => simp
  | some n => simp only [Bool.and_eq_true, beq_iff_eq, decide_eq_true_eq, Option.some.injEq]; grind

section Congr

variable {s t : State}

theorem numbersLawful_congr (stations : ∀ n, (s.station n).Peer (t.station n)) (free : t.freeList = s.freeList)
    (identity : t.identity = s.identity) (h : s.NumbersLawful) : t.NumbersLawful := by
  obtain ⟨nodup, mem, blank, known, keys, ids⟩ := h
  refine ⟨free ▸ nodup, fun n => ?_, fun n isFree => ?_, fun n used => ?_, identity ▸ keys, fun h n => ?_⟩
  · rw [free, mem, (stations n).free]
  · have isFree := (stations n).free.1 isFree
    rw [(stations n).blank isFree, blank n isFree]
  · rw [(stations n).hardwareId]
    exact known n (mt (stations n).free.2 used)
  · rw [identity, ids, (stations n).hardwareId]

theorem flowListsLawful_congr (stations : ∀ n, (t.station n).flowList = (s.station n).flowList)
    (flows : ∀ f, (t.flow f).station = (s.flow f).station ∧ ((t.flow f).state = .idle ↔ (s.flow f).state = .idle))
    (h : s.FlowListsLawful) : t.FlowListsLawful := by
  obtain ⟨lists, mem, idle⟩ := h
  exact ⟨fun n => stations n ▸ lists n, fun n f => by rw [stations, mem, (flows f).1],
    fun f => by rw [(flows f).1, (flows f).2, idle]⟩

theorem pollQueuesLawful_congr (stations : ∀ n, (s.station n).Alike (t.station n))
    (queues : ∀ c, t.pollQueue c = s.pollQueue c) (h : s.PollQueuesLawful) : t.PollQueuesLawful := by
  obtain ⟨nodup, mem, reaches⟩ := h
  refine ⟨fun c => queues c ▸ nodup c, fun c n => ?_, fun n asked => ?_⟩
  · rw [queues, mem, (stations n).inPollQueue, (stations n).channel]
  · rw [(stations n).inPollQueue] at asked
    exact ⟨(stations n).takes (reaches n asked).1, rfl⟩

/-- The lists are lawful but for the flows of `r` where no record changes its place, and none loses or gains what enlists it but
those of `r`. -/
theorem ListsLawfulBut.congr {q r : List FlowNo} (h : s.ListsLawfulBut q) (lists : ∀ c l, t.active c l = s.active c l)
    (stations : ∀ f n, (s.flow f).station = some n → (t.station n).channel = (s.station n).channel)
    (flows : ∀ f, (t.flow f).station = (s.flow f).station ∧ (t.flow f).listLevel = (s.flow f).listLevel)
    (still : ∀ f, (s.flow f).listLevel.isSome = true → s.Enlistable f → t.Enlistable f)
    (before : ∀ f, f ∉ r → t.Enlistable f → f ∉ q ∧ s.Enlistable f) : t.ListsLawfulBut r where
  enlisted f out meets := by
    rw [(flows f).2]
    exact h.enlisted f (before f out meets).1 (before f out meets).2
  meets f enlisted := by
    rw [(flows f).2] at enlisted
    exact still f enlisted (h.meets f enlisted)
  nodup c l := lists c l ▸ h.nodup c l
  mem c l f := by
    rw [lists, h.mem, (flows f).1, (flows f).2]
    exact and_congr_right fun _ => exists_congr fun n => and_congr_right fun of => by rw [stations f n of]

/-- The calendars are lawful where they stand as they stood, and each of their flows may still stand there. -/
theorem calendarsLawful_congr (calendars : ∀ c, t.calendar c = s.calendar c)
    (still : ∀ c f, f ∈ (s.calendar c).waiting ++ (s.calendar c).timed → s.Timeable c f → t.Timeable c f)
    (nominals : ∀ f, (t.flow f).nextNominal.isSome = (s.flow f).nextNominal.isSome) (h : s.CalendarsLawful) :
    t.CalendarsLawful := by
  obtain ⟨nodup, stands, timed⟩ := h
  refine ⟨fun c => calendars c ▸ nodup c, fun c f among => ?_, fun f => ?_⟩
  · rw [calendars] at among
    exact still c f among (stands c f among)
  · simp only [nominals, timed, calendars]

theorem enlistable_alike (stations : ∀ n, (s.station n).Peer (t.station n)) {f : FlowNo}
    (flow : (s.flow f).Alike (t.flow f)) : t.Enlistable f ↔ s.Enlistable f := by
  unfold Enlistable
  rw [flow.state, flow.backlog, flow.station]
  simp only [(stations _).online]
  exact and_congr_right fun active => by rw [flow.kind active]

theorem timeable_alike (stations : ∀ n, (s.station n).Peer (t.station n)) {f : FlowNo}
    (flow : (s.flow f).Alike (t.flow f)) (c : ChanNo) : t.Timeable c f ↔ s.Timeable c f := by
  unfold Timeable
  rw [flow.state, flow.station]
  simp only [(stations _).online, (stations _).channel]
  exact and_congr_right fun active => by rw [flow.kind active]

/-- The laws of the records hold where the records are alike and every list is the same, if that of the poll queues does. -/
theorem recordsLawful_peer (stations : ∀ n, (s.station n).Peer (t.station n))
    (flows : ∀ f, (s.flow f).Alike (t.flow f)) (free : t.freeList = s.freeList) (identity : t.identity = s.identity)
    (lists : ∀ c l, t.active c l = s.active c l) (calendars : ∀ c, t.calendar c = s.calendar c)
    (queues : s.PollQueuesLawful → t.PollQueuesLawful) (h : s.RecordsLawful) : t.RecordsLawful := by
  obtain ⟨numbers, flowLists, polls, enlisted, timed⟩ := h
  refine ⟨numbersLawful_congr stations free identity numbers,
    flowListsLawful_congr (fun n => (stations n).flowList) (fun f => ⟨(flows f).station, by rw [(flows f).state]⟩) flowLists,
    queues polls, ?_,
    calendarsLawful_congr calendars (fun c f _ => (timeable_alike stations (flows f) c).2) (fun f => (flows f).nominal) timed⟩
  rw [listsLawful_iff] at enlisted ⊢
  exact enlisted.congr lists (fun _ n _ => (stations n).channel) (fun f => ⟨(flows f).station, (flows f).listLevel⟩)
    (fun f _ => (enlistable_alike stations (flows f)).2)
    (fun f out meets => ⟨out, (enlistable_alike stations (flows f)).1 meets⟩)

/-- The laws of the records hold where the records are alike and every list and queue is the same. -/
theorem recordsLawful_alike (stations : ∀ n, (s.station n).Alike (t.station n))
    (flows : ∀ f, (s.flow f).Alike (t.flow f)) (free : t.freeList = s.freeList) (identity : t.identity = s.identity)
    (lists : ∀ c l, t.active c l = s.active c l) (calendars : ∀ c, t.calendar c = s.calendar c)
    (queues : ∀ c, t.pollQueue c = s.pollQueue c) (h : s.RecordsLawful) : t.RecordsLawful :=
  recordsLawful_peer (fun n => (stations n).toPeer) flows free identity lists calendars
    (pollQueuesLawful_congr stations queues) h

end Congr

namespace LawKept

/-- A write of a station record that stands to the laws as the old one did. -/
theorem putStation {s : State} {n : StationNo} {x : Station}
    (alike : s.RecordsLawful → (s.station n).Alike x) : s.LawKept (s.putStation n x) := by
  refine ⟨PartKept.putStation s n x, fun _ law => ?_⟩
  refine recordsLawful_alike (s := s) (fun m => ?_) (fun _ => .refl _) rfl rfl (fun _ _ => rfl) (fun _ => rfl) (fun _ => rfl) law
  rw [station_putStation]
  split
  · next same => exact same ▸ alike law
  · exact .refl _

/-- A write of a flow record that stands to the laws as the old one did. -/
theorem putFlow {s : State} {f : FlowNo} {x : Flow} (bounded : (s.flow f).Bounded → x.Bounded)
    (alike : s.RecordsLawful → (s.flow f).Alike x) : s.LawKept (s.putFlow f x) := by
  refine ⟨PartKept.putFlow s f bounded, fun _ law => ?_⟩
  refine recordsLawful_alike (s := s) (fun _ => .refl _) (fun g => ?_) rfl rfl (fun _ _ => rfl) (fun _ => rfl) (fun _ => rfl) law
  rw [flow_putFlow]
  split
  · next same => exact same ▸ alike law
  · exact .refl _

end LawKept

end State

end Sys2Proof.Machine
end

section
/-! SUPPORT. The laws of the records where flows join lists and calendars: one that is enlisted, and those of a station that enters
ONLINE (R28, R56, R57, R86). -/

namespace Sys2Proof.Machine

/-- The flow `y` is `x` with more reasons to be enlisted: it is ACTIVE if `x` was and has backlog if `x` had. -/
structure Flow.Grows (x y : Flow) : Prop where
  station : y.station = x.station
  listLevel : y.listLevel = x.listLevel
  nominal : y.nextNominal = x.nextNominal
  kind : y.kind = x.kind
  idle : y.state = .idle ↔ x.state = .idle
  active : x.state = .active → y.state = .active
  backlog : 0 < x.backlog → 0 < y.backlog

namespace State

/-! ## One flow that is enlisted (R57) -/

theorem enlist_flow (s : State) (f g : FlowNo) : ∃ l, (s.enlist f).flow g = { s.flow g with listLevel := l } := by
  obtain ⟨-, e⟩ | ⟨n, -, -, -, e⟩ := enlist_cases s f <;> rw [e]
  · exact ⟨_, rfl⟩
  · rw [flow_putFlow]
    split
    · next same => exact ⟨_, by rw [same]⟩
    · exact ⟨_, rfl⟩

theorem enlist_frame (s : State) (f : FlowNo) :
    s.enlist f = { s with flows := (s.enlist f).flows, activeLists := (s.enlist f).activeLists } := by
  obtain ⟨-, e⟩ | ⟨n, -, -, -, e⟩ := enlist_cases s f <;> rw [e]
  rfl

theorem enlist_station (s : State) (f : FlowNo) (n : StationNo) : (s.enlist f).station n = s.station n := by
  rw [enlist_frame]
  rfl

theorem enlist_calendar (s : State) (f : FlowNo) (c : ChanNo) : (s.enlist f).calendar c = s.calendar c := by
  rw [enlist_frame]
  rfl

/-- Enlisting writes LIST LEVEL alone, which neither the enlistment law nor a calendar is read from. -/
theorem enlist_enlistable (s : State) (f g : FlowNo) : (s.enlist f).Enlistable g ↔ s.Enlistable g := by
  obtain ⟨l, e⟩ := enlist_flow s f g
  unfold Enlistable
  simp only [e, enlist_station]

theorem enlist_timeable (s : State) (f g : FlowNo) (c : ChanNo) : (s.enlist f).Timeable c g ↔ s.Timeable c g := by
  obtain ⟨l, e⟩ := enlist_flow s f g
  unfold Timeable
  simp only [e, enlist_station]

/-- A flow that may have been left out is in its list once it has been enlisted. -/
theorem ListsLawfulBut.enlist {s : State} {f : FlowNo} {q : List FlowNo} (h : s.ListsLawfulBut (f :: q)) :
    (s.enlist f).ListsLawfulBut q := by
  have meets (g : FlowNo) := enlist_enlistable s f g
  have station (n : StationNo) := enlist_station s f n
  obtain ⟨no, e⟩ | ⟨n, law, out, of, e⟩ := enlist_cases s f
  · rw [e]
    refine ⟨fun g other enlistable => ?_, h.meets, h.nodup, h.mem⟩
    by_cases same : g = f
    · subst same
      rw [(meetsEnlistment_iff s g).2 enlistable, Bool.true_and] at no
      cases level : (s.flow g).listLevel with
      | none => simp [level] at no
      | some l => rfl
    · exact h.enlisted g (by simp [same, other]) enlistable
  · have flow (g : FlowNo) : (s.enlist f).flow g =
        if g = f then { s.flow f with listLevel := some (s.classOf f).priority } else s.flow g := by
      rw [e, flow_putFlow]
      rfl
    have absent (c : ChanNo) (l : Level) : f ∉ s.active c l := fun among => by
      have level := ((h.mem c l f).1 among).1
      rw [out] at level
      cases level
    have list (c : ChanNo) (l : Level) : (s.enlist f).active c l =
        if c = (s.station n).channel ∧ l = (s.classOf f).priority then s.active c l ++ [f] else s.active c l := by
      rw [e, putFlow_active]
      split
      · next here => rw [here.1, here.2, active_putActive_same]
      · next elsewhere => rw [active_putActive_ne s elsewhere]
    refine ⟨fun g other enlistable => ?_, fun g enlisted => ?_, fun c l => ?_, fun c l g => ?_⟩
    · rw [flow]
      split
      · rfl
      · next differ => exact h.enlisted g (by simp [differ, other]) ((meets g).1 enlistable)
    · rw [meets]
      by_cases same : g = f
      · exact same ▸ (meetsEnlistment_iff s f).1 law
      · rw [flow, if_neg same] at enlisted
        exact h.meets g enlisted
    · rw [list]
      split
      · exact List.nodup_append.2 ⟨h.nodup c l, List.nodup_singleton f, fun a among b last => by
          rw [List.mem_singleton.1 last]
          exact fun same => absent c l (same ▸ among)⟩
      · exact h.nodup c l
    · rw [list, flow]
      simp only [station]
      by_cases same : g = f
      · subst same
        rw [if_pos rfl]
        simp only [of, Option.some.injEq, exists_eq_left']
        split
        · next here => simp [here]
        · next elsewhere =>
          refine ⟨fun among => absurd among (absent c l), fun x => absurd ?_ elsewhere⟩
          exact ⟨x.2.symm, x.1.symm⟩
      · rw [if_neg same, ← h.mem]
        split
        · simp [same]
        · rfl

theorem CalendarsLawful.enlist {s : State} (h : s.CalendarsLawful) (f : FlowNo) : (s.enlist f).CalendarsLawful := by
  refine calendarsLawful_congr (fun c => enlist_calendar s f c) (fun c g _ => (enlist_timeable s f g c).2) (fun g => ?_) h
  obtain ⟨l, e⟩ := enlist_flow s f g
  rw [e]

theorem PartKept.enlist (s : State) (f : FlowNo) : s.PartKept (s.enlist f) := by
  obtain ⟨-, e⟩ | ⟨n, -, -, -, e⟩ := enlist_cases s f <;> rw [e]
  · exact .refl s
  · exact (putActive s _ _ _).trans (putFlow _ f id)

/-- A flow that grows and is then enlisted keeps the laws (R51, R57, R131). -/
theorem LawKept.putFlow_enlist {s : State} {f : FlowNo} {x : Flow} (bounded : (s.flow f).Bounded → x.Bounded)
    (grows : (s.flow f).Grows x) : s.LawKept ((s.putFlow f x).enlist f) := by
  refine ⟨(PartKept.putFlow s f bounded).trans (PartKept.enlist _ f), fun _ law => ?_⟩
  obtain ⟨numbers, flowLists, polls, lists, calendars⟩ := law
  have flow (g : FlowNo) := flow_putFlow s f g x
  have others {g : FlowNo} (other : g ≠ f) : (s.putFlow f x).flow g = s.flow g := flow_putFlow_ne s other x
  have same (g : FlowNo) : ((s.putFlow f x).flow g).station = (s.flow g).station ∧
      ((s.putFlow f x).flow g).listLevel = (s.flow g).listLevel := by
    rw [flow]
    split
    · next e => exact e ▸ ⟨grows.station, grows.listLevel⟩
    · exact ⟨rfl, rfl⟩
  have idle (g : FlowNo) : (((s.putFlow f x).enlist f).flow g).station = (s.flow g).station ∧
      ((((s.putFlow f x).enlist f).flow g).state = .idle ↔ (s.flow g).state = .idle) := by
    obtain ⟨l, e⟩ := enlist_flow (s.putFlow f x) f g
    rw [e]
    refine ⟨(same g).1, ?_⟩
    show ((s.putFlow f x).flow g).state = .idle ↔ _
    rw [flow]
    split
    · next e => exact e ▸ grows.idle
    · exact .rfl
  have grown : s.Enlistable f → (s.putFlow f x).Enlistable f := by
    rintro ⟨active, elastic, backlog, n, of, online⟩
    unfold Enlistable
    rw [flow, if_pos rfl, grows.station, grows.kind]
    exact ⟨grows.active active, elastic, grows.backlog backlog, n, of, online⟩
  have lists' : (s.putFlow f x).ListsLawfulBut [f] := by
    refine ((listsLawful_iff s).1 lists).congr (fun _ _ => rfl) (fun _ _ _ => rfl) same (fun g _ meets => ?_)
      (fun _ out meets => ⟨List.not_mem_nil, ?_⟩)
    · by_cases own : g = f
      · exact own ▸ grown (own ▸ meets)
      · unfold Enlistable at meets ⊢
        rw [others own]
        exact meets
    · unfold Enlistable at meets ⊢
      rw [others (by simpa using out)] at meets
      exact meets
  have calendars' : (s.putFlow f x).CalendarsLawful := by
    refine calendarsLawful_congr (s := s) (fun _ => rfl) (fun c g _ may => ?_) (fun g => ?_) calendars
    · unfold Timeable at may ⊢
      rw [flow]
      split
      · next own =>
        subst own
        rw [grows.station, grows.kind]
        exact ⟨grows.active may.1, may.2⟩
      · exact may
    · rw [flow]
      split
      · next own => rw [grows.nominal, own]
      · rfl
  refine ⟨?_, flowListsLawful_congr (fun n => by rw [enlist_station]; rfl) idle flowLists, ?_,
    (listsLawful_iff _).2 lists'.enlist, calendars'.enlist f⟩
  · rw [enlist_frame]
    exact numbers
  · rw [enlist_frame]
    exact polls

/-! ## The flows of a station that enters ONLINE (R28, R86) -/

/-- A flow joins the WAITING part of a calendar it may stand in (R86). -/
theorem CalendarsLawful.join {s : State} (h : s.CalendarsLawful) {c : ChanNo} {f : FlowNo} (may : s.Timeable c f) :
    (s.joinCalendar c f).CalendarsLawful := by
  obtain ⟨nodup, stands, timed⟩ := h
  cases here : s.inCalendar c f with
  | true =>
    rw [joinCalendar, here]
    exact ⟨nodup, stands, timed⟩
  | false =>
    rw [joinCalendar_absent here]
    have out : f ∉ (s.calendar c).waiting ++ (s.calendar c).timed := by
      rw [List.mem_append, ← inCalendar_iff, here]
      simp
    have order := insertBy_perm (fun a b : FlowNo => decide (a < b)) f (s.calendar c).waiting
    have perm := order.append_right (s.calendar c).timed
    rw [List.cons_append] at perm
    refine ⟨fun d => ?_, fun d g among => ?_, fun g => ?_⟩
    · by_cases same : d = c
      · subst same
        rw [calendar_putCalendar_same]
        exact perm.nodup_iff.2 (List.nodup_cons.2 ⟨out, nodup d⟩)
      · rw [calendar_putCalendar_ne s same]
        exact nodup d
    · show s.Timeable d g
      by_cases same : d = c
      · subst same
        rw [calendar_putCalendar_same] at among
        obtain rfl | among := List.mem_cons.1 (perm.mem_iff.1 among)
        · exact may
        · exact stands d g among
      · rw [calendar_putCalendar_ne s same] at among
        exact stands d g among
    · refine (timed g).trans (exists_congr fun d => ?_)
      by_cases same : d = c
      · subst same
        rw [calendar_putCalendar_same]
      · rw [calendar_putCalendar_ne s same]

/-- While the flows of station `n`, ONLINE on channel `c`, enter one after another, those of `q` are still to come. -/
structure Entering (s : State) (n : StationNo) (c : ChanNo) (q : List FlowNo) : Prop where
  lists : s.ListsLawfulBut q
  calendars : s.CalendarsLawful
  online : (s.station n).state = .online
  channel : (s.station n).channel = c
  flows : ∀ f ∈ q, (s.flow f).station = some n

/-- A flow that does not meet the enlistment law needs no enlisting. -/
theorem ListsLawfulBut.skip {s : State} {f : FlowNo} {q : List FlowNo} (h : s.ListsLawfulBut (f :: q))
    (no : ¬ s.Enlistable f) : s.ListsLawfulBut q :=
  h.congr (fun _ _ => rfl) (fun _ _ _ => rfl) (fun _ => ⟨rfl, rfl⟩) (fun _ _ => id) fun _ out meets =>
    ⟨fun among => (List.mem_cons.1 among).elim (fun same => no (same ▸ meets)) out, meets⟩

theorem Entering.step {s : State} {n : StationNo} {c : ChanNo} {f : FlowNo} {q : List FlowNo}
    (h : s.Entering n c (f :: q)) : (s.onlineFlow n c f).Entering n c q := by
  obtain ⟨lists, calendars, online, channel, flows⟩ := h
  obtain ⟨stations, of⟩ := onlineFlow_keeps s n c f
  have rest (g : FlowNo) (among : g ∈ q) : ((s.onlineFlow n c f).flow g).station = some n :=
    (of g).trans (flows g (List.mem_cons_of_mem f among))
  refine ⟨?_, ?_, stations n ▸ online, stations n ▸ channel, rest⟩
  · unfold onlineFlow
    split
    · exact lists.enlist
    · next periodic =>
      have no : ¬ s.Enlistable f := fun meets => absurd (periodic.symm.trans meets.2.1) nofun
      have skipped := lists.skip no
      split
      · exact ⟨skipped.enlisted, skipped.meets, skipped.nodup, skipped.mem⟩
      · unfold joinCalendar
        split
        · exact skipped
        · exact ⟨skipped.enlisted, skipped.meets, skipped.nodup, skipped.mem⟩
    · next inactive _ => exact lists.skip fun meets => inactive meets.1 meets.2.1
  · unfold onlineFlow
    split
    · exact calendars.enlist f
    · next active periodic =>
      split
      · exact calendars
      · exact calendars.join ⟨active, periodic, n, flows f List.mem_cons_self, online, channel⟩
    · exact calendars

theorem Entering.all {n : StationNo} {c : ChanNo} : ∀ {q : List FlowNo} {s : State}, s.Entering n c q →
    (q.foldl (fun t f => t.onlineFlow n c f) s).Entering n c []
  | [], _, h => h
  | _ :: q, _, h => Entering.all (q := q) h.step

end State

end Sys2Proof.Machine
end

section
/-! SUPPORT. The laws of the records where a station enters ONLINE, joins or leaves a poll queue, departs from ONLINE, or takes or
returns its number (R22, R23, R25 to R28, R32 to R34, R110). -/

namespace Sys2Proof.Machine

namespace State

/-! ## One station's record (R22, R23, R110) -/

section OneStation

variable {s t : State} {n : StationNo}

/-- A record that stays in use and keeps its hardware ID keeps its number (R22, R23). -/
theorem numbersLawful_used (others : ∀ m, m ≠ n → t.station m = s.station m) (used : (s.station n).state ≠ .free)
    (used' : (t.station n).state ≠ .free) (known : (t.station n).hardwareId = (s.station n).hardwareId)
    (free : t.freeList = s.freeList) (identity : t.identity = s.identity) (h : s.NumbersLawful) : t.NumbersLawful := by
  obtain ⟨nodup, mem, blank, ids, keys, entries⟩ := h
  refine ⟨free ▸ nodup, fun m => ?_, fun m isFree => ?_, fun m inUse => ?_, identity ▸ keys, fun h m => ?_⟩
  all_goals by_cases same : m = n
  · subst same
    rw [free, mem]
    exact ⟨fun x => absurd x used, fun x => absurd x used'⟩
  · rw [free, mem, others m same]
  · exact absurd (same ▸ isFree) used'
  · rw [others m same] at isFree ⊢
    exact blank m isFree
  · subst same
    rw [known]
    exact ids m used
  · rw [others m same] at inUse ⊢
    exact ids m inUse
  · subst same
    rw [identity, entries, known]
  · rw [identity, entries, others m same]

/-- The poll queues are lawful where the one station that changes stays where it is in them. -/
theorem pollQueuesLawful_stays (others : ∀ m, m ≠ n → t.station m = s.station m)
    (asked : (t.station n).inPollQueue = (s.station n).inPollQueue) (channel : (t.station n).channel = (s.station n).channel)
    (takes : s.Reaches n (s.station n).channel → t.Reaches n (t.station n).channel)
    (queues : t.pollQueues = s.pollQueues) (h : s.PollQueuesLawful) : t.PollQueuesLawful := by
  obtain ⟨nodup, mem, reaches⟩ := h
  have queue (c : ChanNo) : t.pollQueue c = s.pollQueue c := by rw [pollQueue, queues, pollQueue]
  refine ⟨fun c => queue c ▸ nodup c, fun c m => ?_, fun m stands => ?_⟩
  all_goals by_cases same : m = n
  · subst same
    rw [queue, mem, asked, channel]
  · rw [queue, mem, others m same]
  · subst same
    exact takes (reaches m (asked ▸ stands))
  · unfold Reaches
    rw [others m same] at stands ⊢
    exact reaches m stands

/-- The poll queues are lawful where the one station that changes stays in none. -/
theorem pollQueuesLawful_out (others : ∀ m, m ≠ n → t.station m = s.station m)
    (out : (s.station n).inPollQueue = false) (out' : (t.station n).inPollQueue = false)
    (queues : t.pollQueues = s.pollQueues) (h : s.PollQueuesLawful) : t.PollQueuesLawful := by
  obtain ⟨nodup, mem, reaches⟩ := h
  have queue (c : ChanNo) : t.pollQueue c = s.pollQueue c := by rw [pollQueue, queues, pollQueue]
  refine ⟨fun c => queue c ▸ nodup c, fun c m => ?_, fun m asked => ?_⟩
  all_goals by_cases same : m = n
  · subst same
    rw [queue, mem, out, out']
    simp
  · rw [queue, mem, others m same]
  · rw [same, out'] at asked
    cases asked
  · rw [others m same] at asked
    unfold Reaches
    rw [others m same]
    exact reaches m asked

/-- The poll queues are lawful where the one station that changes has left its own (R110). -/
theorem pollQueuesLawful_removed (others : ∀ m, m ≠ n → t.station m = s.station m)
    (out : (t.station n).inPollQueue = false)
    (queues : t.pollQueues =
      (s.putPollQueue (s.station n).channel ((s.pollQueue (s.station n).channel).erase n)).pollQueues)
    (h : s.PollQueuesLawful) : t.PollQueuesLawful := by
  obtain ⟨nodup, mem, reaches⟩ := h
  have here : t.pollQueue (s.station n).channel = (s.pollQueue (s.station n).channel).erase n := by
    rw [pollQueue, queues]
    exact pollQueue_putPollQueue_same s _ _
  have elsewhere (c : ChanNo) (other : c ≠ (s.station n).channel) : t.pollQueue c = s.pollQueue c := by
    rw [pollQueue, queues]
    exact pollQueue_putPollQueue_ne s other _
  refine ⟨fun c => ?_, fun c m => ?_, fun m asked => ?_⟩
  · by_cases own : c = (s.station n).channel
    · rw [own, here]
      exact (nodup _).erase n
    · rw [elsewhere c own]
      exact nodup c
  · by_cases same : m = n
    · subst same
      rw [out]
      by_cases own : c = (s.station m).channel
      · rw [own, here]
        simp [(nodup _).mem_erase_iff]
      · rw [elsewhere c own, mem]
        simp [Ne.symm own]
    · rw [others m same, ← mem]
      by_cases own : c = (s.station n).channel
      · rw [own, here]
        exact List.mem_erase_of_ne same
      · rw [elsewhere c own]
  · have same : m ≠ n := fun e => by
      rw [e, out] at asked
      cases asked
    unfold Reaches
    rw [others m same] at asked ⊢
    exact reaches m asked

end OneStation

/-- A station that an alignment result reaches joins the poll queue of its channel (R110). -/
theorem PollQueuesLawful.enqueue {s : State} {n : StationNo} (h : s.PollQueuesLawful)
    (reaches : s.Reaches n (s.station n).channel) : (s.pollEnqueue n).PollQueuesLawful := by
  obtain ⟨stands, e⟩ | ⟨out, room, -⟩ | ⟨out, full, e⟩ := pollEnqueue_cases s n
  · rw [e]
    exact h
  · obtain ⟨nodup, mem, reach⟩ := h
    have room : (s.pollQueue (s.station n).channel).length < 256 := room
    have absent : n ∉ s.pollQueue (s.station n).channel := by simp [mem, out]
    have queue (c : ChanNo) := pollEnqueue_pollQueue s n c
    have station (m : StationNo) := pollEnqueue_station s n m
    refine ⟨fun c => ?_, fun c m => ?_, fun m asked => ?_⟩
    · rw [queue]
      split
      · exact List.nodup_append.2 ⟨nodup _, List.nodup_singleton n, fun a among b last => by
          rw [List.mem_singleton.1 last]
          exact fun same => absent (same ▸ among)⟩
      · exact nodup c
    · rw [queue, station]
      by_cases same : m = n
      · subst same
        by_cases own : c = (s.station m).channel
        · simp [own, out, room]
        · simp [own, out, room, mem, Ne.symm own]
      · rw [if_neg same, ← mem]
        split
        · next own => simp [same, own.1]
        · rfl
    · unfold Reaches
      rw [station] at asked ⊢
      by_cases same : m = n
      · rw [if_pos same]
        exact reaches
      · rw [if_neg same] at asked ⊢
        exact reach m asked
  · rw [e]
    exact h

theorem PartKept.pollEnqueue (s : State) (n : StationNo) : s.PartKept (s.pollEnqueue n) := by
  obtain ⟨-, e⟩ | ⟨-, room, e⟩ | ⟨-, -, e⟩ := pollEnqueue_cases s n <;> rw [e]
  · exact .refl s
  · refine (putPollQueue s _ fun _ => ?_).trans (putStation _ n _)
    rw [List.length_append, List.length_singleton]
    exact room
  · exact (LawKept.count s _ _ _).toPartKept

theorem RecordsLawful.enqueue {s : State} {n : StationNo} (law : s.RecordsLawful)
    (reaches : s.Reaches n (s.station n).channel) : (s.pollEnqueue n).RecordsLawful := by
  have used : (s.station n).state ≠ .free := by
    obtain ⟨a | a | a, -⟩ := reaches <;> rw [a] <;> nofun
  refine recordsLawful_peer (s := s) (fun m => ?_) (fun _ => ?_) ?_ ?_ (fun _ _ => ?_) (fun _ => ?_)
    (fun polls => polls.enqueue reaches) law
  · rw [pollEnqueue_station]
    split
    · next same => exact same ▸ .of_used (same ▸ used) rfl rfl rfl rfl
    · exact (Station.Alike.refl _).toPeer
  all_goals rw [pollEnqueue_frame]
  · exact .refl _
  all_goals rfl

theorem LawKept.pollEnqueue {s : State} {n : StationNo}
    (reaches : s.RecordsLawful → s.Reaches n (s.station n).channel) : s.LawKept (s.pollEnqueue n) :=
  ⟨PartKept.pollEnqueue s n, fun _ law => law.enqueue (reaches law)⟩

/-- The station at the head of a poll queue leaves it (R112). -/
theorem LawKept.takePolled {s : State} {c : ChanNo} {n : StationNo} {q : List StationNo} (head : s.pollQueue c = n :: q) :
    s.LawKept (s.takePolled c n q) := by
  refine ⟨(PartKept.putPollQueue s c fun short => ?_).trans (PartKept.putStation _ n _), fun _ law => ?_⟩
  · rw [head, List.length_cons] at short
    exact Nat.le_of_succ_le short
  have stands : n ∈ s.pollQueue c := head ▸ List.mem_cons_self
  obtain ⟨asked, rfl⟩ := (law.polls.mem c n).1 stands
  have reach := (law.polls.reaches asked).1
  have used : (s.station n).state ≠ .free := by
    obtain a | a | a := reach <;> rw [a] <;> nofun
  have station (m : StationNo) := takePolled_station s (s.station n).channel n q m
  refine recordsLawful_peer (s := s) (fun m => ?_) (fun _ => .refl _) rfl rfl (fun _ _ => rfl) (fun _ => rfl)
    (pollQueuesLawful_removed (n := n) (fun m other => ?_) ?_ ?_) law
  · rw [station]
    split
    · next same => exact same ▸ .of_used (same ▸ used) rfl rfl rfl rfl
    · exact (Station.Alike.refl _).toPeer
  · rw [station, if_neg other]
  · rw [station, if_pos rfl]
  · rw [head, List.erase_cons_head]
    rfl

/-! ## A station that enters ONLINE (R28) -/

theorem PartKept.joinCalendar {s : State} {c : ChanNo} (room : s.calendarFull c = false) (f : FlowNo) :
    s.PartKept (s.joinCalendar c f) := by
  unfold State.joinCalendar
  split
  · exact .refl s
  · refine putCalendar s c fun _ => ?_
    have room := mt (calendarFull_iff s c).2 (by simp [room])
    simp only [Calendar.size, length_insertBy]
    omega

theorem PartKept.onlineFlow (s : State) (n : StationNo) (c : ChanNo) (f : FlowNo) : s.PartKept (s.onlineFlow n c f) := by
  unfold State.onlineFlow
  split
  · exact enlist s f
  · split
    · exact ((LawKept.count s c .calendarFull 1).trans (LawKept.raise _ _)).toPartKept
    · next room => exact joinCalendar (Bool.eq_false_of_not_eq_true room) f
  · exact .refl s

theorem onlineFlow_state (s : State) (n : StationNo) (c : ChanNo) (f g : FlowNo) :
    ((s.onlineFlow n c f).flow g).state = (s.flow g).state := by
  unfold onlineFlow
  split
  · obtain ⟨l, e⟩ := enlist_flow s f g
    rw [e]
  · split
    · rfl
    · unfold joinCalendar
      split <;> rfl
  · rfl

/-- The entry of the flows of a list keeps the STATE and the STATION of every flow. -/
theorem onlineFlows_keep (n : StationNo) (c : ChanNo) (g : FlowNo) : ∀ (q : List FlowNo) (s : State),
    ((q.foldl (fun t f => t.onlineFlow n c f) s).flow g).station = (s.flow g).station ∧
      ((q.foldl (fun t f => t.onlineFlow n c f) s).flow g).state = (s.flow g).state
  | [], _ => ⟨rfl, rfl⟩
  | f :: q, s => by
    obtain ⟨station, state⟩ := onlineFlows_keep n c g q (s.onlineFlow n c f)
    exact ⟨station.trans ((onlineFlow_keeps s n c f).2 g), state.trans (onlineFlow_state s n c f g)⟩

/-- A station that enters ONLINE has its flows still to come (R28). -/
theorem entering_begins {s : State} {n : StationNo} (law : s.RecordsLawful) (off : (s.station n).state ≠ .online) :
    (s.putStation n { s.station n with state := .online }).Entering n (s.station n).channel (s.station n).flowList := by
  obtain ⟨-, ⟨-, bound, -⟩, -, lists, calendars⟩ := law
  have station (m : StationNo) := station_putStation s n m { s.station n with state := .online }
  have channel (m : StationNo) :
      ((s.putStation n { s.station n with state := .online }).station m).channel = (s.station m).channel := by
    rw [station]
    split
    · next same => rw [same]
    · rfl
  have online (m : StationNo) (h : (s.station m).state = .online) :
      (s.putStation n { s.station n with state := .online }).station m = s.station m := by
    rw [station, if_neg fun same : m = n => off (same ▸ h)]
  refine ⟨?_, ?_, by rw [station, if_pos rfl], by rw [station, if_pos rfl], fun f => (bound n f).1⟩
  · refine ((listsLawful_iff s).1 lists).congr (fun _ _ => rfl) (fun _ m _ => channel m) (fun _ => ⟨rfl, rfl⟩) ?_ ?_
    · rintro f - ⟨active, elastic, backlog, m, of, h⟩
      exact ⟨active, elastic, backlog, m, of, by rw [online m h]; exact h⟩
    · rintro f out ⟨active, elastic, backlog, m, of, h⟩
      have other : m ≠ n := fun same => out ((bound n f).2 (same ▸ of))
      rw [station, if_neg other] at h
      exact ⟨List.not_mem_nil, active, elastic, backlog, m, of, h⟩
  · refine calendarsLawful_congr (s := s) (fun _ => rfl) ?_ (fun _ => rfl) calendars
    rintro c f - ⟨active, periodic, m, of, h, on⟩
    exact ⟨active, periodic, m, of, by rw [online m h]; exact h, by rw [channel]; exact on⟩

theorem enterOnline_flow (s : State) (n : StationNo) (g : FlowNo) :
    ((s.enterOnline n).flow g).station = (s.flow g).station ∧ ((s.enterOnline n).flow g).state = (s.flow g).state :=
  onlineFlows_keep n _ g _ _

/-- A station that has entered ONLINE has its flows in the lists and the calendar that the laws name (R28). -/
theorem entering_ends {s : State} {n : StationNo} (law : s.RecordsLawful) (off : (s.station n).state ≠ .online) :
    (s.enterOnline n).ListsLawful ∧ (s.enterOnline n).CalendarsLawful :=
  have ended := (entering_begins law off).all
  ⟨(listsLawful_iff _).2 ended.lists, ended.calendars⟩

/-- A station that is ALIGNING or PARKED enters ONLINE (R28). -/
theorem LawKept.enterOnline {s : State} {n : StationNo}
    (aside : (s.station n).state = .aligning ∨ (s.station n).state = .parked) : s.LawKept (s.enterOnline n) := by
  have used : (s.station n).state ≠ .free := by
    obtain a | a := aside <;> rw [a] <;> nofun
  have off : (s.station n).state ≠ .online := by
    obtain a | a := aside <;> rw [a] <;> nofun
  refine ⟨(PartKept.putStation s n _).trans (PartKept.foldl (fun u f => PartKept.onlineFlow u n _ f) _ _), fun _ law => ?_⟩
  obtain ⟨lists, calendars⟩ := entering_ends law off
  obtain ⟨numbers, flowLists, polls, -⟩ := law
  have kept := enterOnline_flow s n
  have station := enterOnline_station s n
  obtain ⟨sts, fs, as, cs, ks, ns, frame⟩ := enterOnline_frame s n
  have free : (s.enterOnline n).freeList = s.freeList := by rw [frame]
  have identity : (s.enterOnline n).identity = s.identity := by rw [frame]
  have queues : (s.enterOnline n).pollQueues = s.pollQueues := by rw [frame]
  generalize s.enterOnline n = t at *
  have others (m : StationNo) (other : m ≠ n) := (station m).trans (if_neg other)
  have own := (station n).trans (if_pos rfl)
  refine ⟨numbersLawful_used others used (by rw [own]; nofun) (by rw [own]) free identity numbers,
    flowListsLawful_congr (fun m => ?_) (fun g => ⟨(kept g).1, by rw [(kept g).2]⟩) flowLists,
    pollQueuesLawful_stays others (by rw [own]) (by rw [own]) (fun _ => ⟨by rw [own]; exact .inr (.inr rfl), rfl⟩) queues polls,
    lists, calendars⟩
  rw [station]
  split
  · next same => rw [same]
  · rfl

end State

end Sys2Proof.Machine
end

section
/-! SUPPORT. The laws of the records where a station departs from ONLINE or changes its channel, and where a number is taken or
returned (R22, R23, R25 to R27, R32 to R34). -/

namespace Sys2Proof.Machine

namespace State

/-! ## The pieces of a departure -/

namespace PartKept

theorem delist (s : State) (c : ChanNo) (f : FlowNo) : s.PartKept (s.delist c f) := by
  obtain ⟨-, e⟩ | ⟨l, x, -, e⟩ := delist_cases s c f <;> rw [e]
  · exact .refl s
  · refine ((putActive s c l _).trans (putFlow _ f fun h => ?_)).trans (LawKept.putEngine _ x).toPartKept
    exact ⟨h.1, h.2.1, Nat.zero_le _, h.2.2.2⟩

theorem leaveCalendar (s : State) (c : ChanNo) (f : FlowNo) : s.PartKept (s.leaveCalendar c f) := by
  unfold State.leaveCalendar
  split
  · refine (putCalendar s c fun short => ?_).trans (putFlow _ f fun h => ⟨h.1, h.2.1, h.2.2.1, Nat.zero_le _⟩)
    exact (Nat.add_le_add List.length_erase_le List.length_erase_le).trans short
  · exact .refl s

theorem offlineFlow (s : State) (c : ChanNo) (f : FlowNo) : s.PartKept (s.offlineFlow c f) :=
  (delist s c f).trans (leaveCalendar _ c f)

theorem leaveOnline (s : State) (n : StationNo) : s.PartKept (s.leaveOnline n) := by
  unfold State.leaveOnline
  split
  · exact foldl (fun t f => offlineFlow t _ f) _ s
  · exact .refl s

theorem levelEnded {s t : State} (h : s.PartKept t) : s.PartKept (s.levelEnded t) :=
  h.trans (LawKept.putEngine t _).toPartKept

theorem takenOffline (s : State) (n : StationNo) : s.PartKept (s.takenOffline n) := levelEnded (leaveOnline s n)

theorem mapFlows (s : State) (q : List FlowNo) {g : Flow → Flow} (bounded : ∀ x : Flow, x.Bounded → (g x).Bounded) :
    s.PartKept (s.mapFlows q g) :=
  foldl (fun t f => putFlow t f (bounded _)) q s

theorem pollRemove (s : State) (n : StationNo) : s.PartKept (s.pollRemove n) :=
  (putPollQueue s _ fun short => List.length_erase_le.trans short).trans (putStation _ n _)

theorem adjustRemove (s : State) (n : StationNo) : s.PartKept (s.adjustRemove n) :=
  (LawKept.putAdjustQueue s fun short => (List.length_filter_le _ _).trans short).toPartKept

end PartKept

theorem LawKept.levelEnded {s t : State} (h : s.LawKept t) : s.LawKept (s.levelEnded t) := h.trans (putEngine t _)

theorem bounded_lostFlow (x : Flow) (h : x.Bounded) : (lostFlow x).Bounded :=
  ⟨Nat.zero_le _, h.2.1, Nat.zero_le _, h.2.2.2⟩

theorem bounded_unboundFlow (x : Flow) (_ : x.Bounded) : (unboundFlow x).Bounded := by
  refine ⟨Nat.zero_le _, fun k credit => ?_, Nat.zero_le _, Nat.zero_le _⟩
  simp only [unboundFlow, Option.map_eq_some_iff] at credit
  obtain ⟨-, -, rfl⟩ := credit
  exact Nat.zero_le _

/-! ## What is left of a station's flows (R27) -/

/-- A flow of a station that has departed stands in no list and no calendar. -/
theorem flowOff_out {s : State} {n : StationNo} {g : FlowNo} (law : s.RecordsLawful) (among : g ∈ (s.station n).flowList) :
    (s.flowOff n g).listLevel = none ∧ (s.flowOff n g).nextNominal = none := by
  obtain ⟨-, ⟨-, bound, -⟩, -, lists, ⟨-, stands, timed⟩⟩ := law
  have of := (bound n g).1 among
  have here (c : ChanNo) (among : g ∈ (s.calendar c).timed) :
      (s.station n).state = .online ∧ (s.station n).channel = c := by
    obtain ⟨-, -, m, of', online, on⟩ := stands c g (List.mem_append_right _ among)
    cases of.symm.trans of'
    exact ⟨online, on⟩
  unfold flowOff
  split
  · refine ⟨rfl, ?_⟩
    unfold outOfLists
    dsimp only
    split
    · rfl
    · next out =>
      cases nominal : (s.flow g).nextNominal with
      | none => rfl
      | some b =>
        obtain ⟨c, among⟩ := (timed g).1 (by rw [nominal]; rfl)
        obtain ⟨-, rfl⟩ := here c among
        exact absurd (.inr among) out
  · next off =>
    refine ⟨?_, ?_⟩
    · cases level : (s.flow g).listLevel with
      | none => rfl
      | some l =>
        obtain ⟨-, -, -, m, of', online⟩ := (lists.1 g).1 (by rw [level]; rfl)
        cases of.symm.trans of'
        exact absurd online off
    · cases nominal : (s.flow g).nextNominal with
      | none => rfl
      | some b =>
        obtain ⟨c, among⟩ := (timed g).1 (by rw [nominal]; rfl)
        exact absurd (here c among).1 off

theorem flowOff_keeps (s : State) (n : StationNo) (g : FlowNo) :
    (s.flowOff n g).station = (s.flow g).station ∧ (s.flowOff n g).state = (s.flow g).state := by
  unfold flowOff
  split <;> exact ⟨rfl, rfl⟩

/-- In `t` the flows of `p` have left the lists and the calendars of `s`, and nothing else in them has changed. -/
structure Withdrawn (s t : State) (p : FlowNo → Prop) : Prop where
  active : ∀ c l g, g ∈ t.active c l ↔ g ∈ s.active c l ∧ ¬ p g
  nodup : ∀ c l, (t.active c l).Nodup
  calendar : ∀ c g, g ∈ (t.calendar c).waiting ++ (t.calendar c).timed →
    g ∈ (s.calendar c).waiting ++ (s.calendar c).timed ∧ ¬ p g
  timed : ∀ c g, g ∈ (t.calendar c).timed ↔ g ∈ (s.calendar c).timed ∧ ¬ p g
  once : ∀ c, ((t.calendar c).waiting ++ (t.calendar c).timed).Nodup
  flows : ∀ g, ¬ p g → t.flow g = s.flow g
  stations : ∀ g m, ¬ p g → (s.flow g).station = some m →
    (t.station m).state = (s.station m).state ∧ (t.station m).channel = (s.station m).channel
  out : ∀ g, p g → (t.flow g).listLevel = none ∧ (t.flow g).nextNominal = none ∧ ¬ t.Enlistable g

section Withdrawal

variable {s t : State} {p : FlowNo → Prop}

theorem Withdrawn.lists (h : s.Withdrawn t p) (law : s.RecordsLawful) : t.ListsLawful := by
  obtain ⟨-, -, -, ⟨meets, -, mem⟩, -⟩ := law
  refine ⟨fun f => ?_, h.nodup, fun c l f => ?_⟩
  · by_cases out : p f
    · obtain ⟨level, -, no⟩ := h.out f out
      rw [level]
      exact ⟨nofun, fun x => absurd x no⟩
    · rw [h.flows f out, meets]
      refine and_congr_right fun _ => and_congr_right fun _ => and_congr_right fun _ => exists_congr fun m =>
        and_congr_right fun of => ?_
      rw [(h.stations f m out of).1]
  · rw [h.active, mem]
    by_cases out : p f
    · rw [(h.out f out).1]
      exact ⟨fun x => absurd out x.2, fun x => absurd x.1 nofun⟩
    · rw [h.flows f out, and_iff_left out]
      refine and_congr_right fun _ => exists_congr fun m => and_congr_right fun of => ?_
      rw [(h.stations f m out of).2]

theorem Withdrawn.calendars (h : s.Withdrawn t p) (law : s.RecordsLawful) : t.CalendarsLawful := by
  obtain ⟨-, -, -, -, ⟨-, stands, timed⟩⟩ := law
  refine ⟨h.once, fun c f among => ?_, fun f => ?_⟩
  · obtain ⟨among, out⟩ := h.calendar c f among
    obtain ⟨active, periodic, m, of, online, on⟩ := stands c f among
    obtain ⟨state, channel⟩ := h.stations f m out of
    rw [h.flows f out]
    exact ⟨active, periodic, m, of, state.trans online, channel.trans on⟩
  · simp only [h.timed]
    by_cases out : p f
    · rw [(h.out f out).2.1]
      simp [out]
    · rw [h.flows f out, timed]
      simp [out]

end Withdrawal

/-- Station `n` is not ONLINE in `t`, its flows have left the lists and the calendars of `s`, and nothing else in them has
changed. -/
structure Departed (s t : State) (n : StationNo) : Prop where
  others : ∀ m, m ≠ n → t.station m = s.station m
  off : (t.station n).state ≠ .online
  leaves : s.LeavesOnline t n
  flows : ∀ g, g ∉ (s.station n).flowList → t.flow g = s.flow g
  out : ∀ g ∈ (s.station n).flowList, (t.flow g).listLevel = none ∧ (t.flow g).nextNominal = none ∧
    ∀ m, (t.flow g).station = some m → m = n

section Departure

variable {s t : State} {n : StationNo}

/-- The lists after a departure: the flows of the station are in none. -/
theorem Departed.mem_active (h : s.Departed t n) (law : s.RecordsLawful) (c : ChanNo) (l : Level) (g : FlowNo) :
    g ∈ t.active c l ↔ g ∈ s.active c l ∧ g ∉ (s.station n).flowList := by
  obtain ⟨-, ⟨-, bound, -⟩, -, ⟨meets, nodup, mem⟩, -⟩ := law
  by_cases online : (s.station n).state = .online
  · obtain ⟨elsewhere, here, -⟩ := h.leaves.1 online
    by_cases own : c = (s.station n).channel
    · rw [own, here l (nodup _ l), List.mem_filter, decide_eq_true_eq]
      refine and_congr_right fun among => ?_
      rw [((mem _ l g).1 among).1]
      simp
    · rw [elsewhere c l own]
      refine ⟨fun among => ⟨among, fun of => own ?_⟩, And.left⟩
      obtain ⟨-, m, of', on⟩ := (mem c l g).1 among
      cases ((bound n g).1 of).symm.trans of'
      exact on.symm
  · rw [active, (h.leaves.2 online).1]
    refine ⟨fun among => ⟨among, fun of => online ?_⟩, And.left⟩
    have level := ((mem c l g).1 among).1
    obtain ⟨-, -, -, m, of', isOnline⟩ := (meets g).1 (by rw [level]; rfl)
    cases ((bound n g).1 of).symm.trans of'
    exact isOnline

/-- The calendars after a departure: what is left of each part, in its order. -/
theorem Departed.calendar (h : s.Departed t n) (law : s.RecordsLawful) (c : ChanNo) :
    t.calendar c =
      { waiting := (s.calendar c).waiting.filter (fun g => decide (g ∉ (s.station n).flowList))
        timed := (s.calendar c).timed.filter (fun g => decide (g ∉ (s.station n).flowList)) } := by
  obtain ⟨-, ⟨-, bound, -⟩, -, -, ⟨nodup, stands, -⟩⟩ := law
  have all (away : ¬ ((s.station n).state = .online ∧ (s.station n).channel = c)) (g : FlowNo)
      (among : g ∈ (s.calendar c).waiting ++ (s.calendar c).timed) : g ∉ (s.station n).flowList := fun of => by
    obtain ⟨-, -, m, of', online, on⟩ := stands c g among
    cases ((bound n g).1 of).symm.trans of'
    exact away ⟨online, on⟩
  have whole (away : ¬ ((s.station n).state = .online ∧ (s.station n).channel = c)) :
      s.calendar c =
        { waiting := (s.calendar c).waiting.filter (fun g => decide (g ∉ (s.station n).flowList))
          timed := (s.calendar c).timed.filter (fun g => decide (g ∉ (s.station n).flowList)) } := by
    rw [List.filter_eq_self.2, List.filter_eq_self.2]
    · exact fun g among => decide_eq_true (all away g (List.mem_append_right _ among))
    · exact fun g among => decide_eq_true (all away g (List.mem_append_left _ among))
  by_cases online : (s.station n).state = .online
  · obtain ⟨-, -, elsewhere, here⟩ := h.leaves.1 online
    by_cases own : c = (s.station n).channel
    · subst own
      obtain ⟨waiting, timed, -⟩ := List.nodup_append.1 (nodup (s.station n).channel)
      exact here waiting timed
    · rw [elsewhere c own]
      exact whole fun x => own x.2.symm
  · rw [State.calendar, (h.leaves.2 online).2]
    exact whole fun x => online x.1

theorem Departed.withdrawn (h : s.Departed t n) (law : s.RecordsLawful) :
    s.Withdrawn t (fun g => g ∈ (s.station n).flowList) := by
  have active := h.mem_active law
  have calendar := h.calendar law
  obtain ⟨-, ⟨-, bound, -⟩, -, ⟨-, nodup, -⟩, ⟨once, -, -⟩⟩ := law
  refine ⟨active, fun c l => ?_, fun c g among => ?_, fun c g => ?_, fun c => ?_, h.flows, fun g m out of => ?_,
    fun g of => ?_⟩
  · by_cases online : (s.station n).state = .online
    · obtain ⟨elsewhere, here, -⟩ := h.leaves.1 online
      by_cases own : c = (s.station n).channel
      · rw [own, here l (nodup _ l)]
        exact (nodup _ l).filter _
      · exact elsewhere c l own ▸ nodup c l
    · rw [State.active, (h.leaves.2 online).1]
      exact nodup c l
  · rw [calendar, ← List.filter_append, List.mem_filter, decide_eq_true_eq] at among
    exact among
  · rw [calendar, List.mem_filter, decide_eq_true_eq]
  · rw [calendar, ← List.filter_append]
    exact (once c).filter _
  · rw [h.others m fun same => out ((bound n g).2 (same ▸ of))]
    exact ⟨rfl, rfl⟩
  · obtain ⟨level, nominal, own⟩ := h.out g of
    refine ⟨level, nominal, ?_⟩
    rintro ⟨-, -, -, m, of', online⟩
    exact h.off (own m of' ▸ online)

end Departure

/-! ## Stations that stay in use: a loss and a move (R32, R33) -/

/-- The flows of a station leave the lists and the calendar; what else changes of them lists none again. -/
theorem departed_flowOff {s t : State} {n : StationNo} (law : s.RecordsLawful)
    (others : ∀ m, m ≠ n → t.station m = s.station m) (off : (t.station n).state ≠ .online) (leaves : s.LeavesOnline t n)
    (flows : ∀ g, g ∉ (s.station n).flowList → t.flow g = s.flow g)
    (keeps : ∀ g ∈ (s.station n).flowList, (t.flow g).listLevel = (s.flowOff n g).listLevel ∧
      ((s.flowOff n g).nextNominal = none → (t.flow g).nextNominal = none) ∧
      ((t.flow g).station = (s.flow g).station ∨ (t.flow g).station = none)) : s.Departed t n := by
  refine ⟨others, off, leaves, flows, fun g of => ?_⟩
  obtain ⟨level, nominal⟩ := flowOff_out law of
  obtain ⟨level', nominal', station⟩ := keeps g of
  refine ⟨level'.trans level, nominal' nominal, fun m of' => ?_⟩
  obtain same | gone := station
  · rw [same, (law.flowLists.mem n g).1 of] at of'
    exact (Option.some.inj of').symm
  · rw [gone] at of'
    cases of'

/-- The laws hold after a departure of a station that keeps its number and its flows. -/
theorem Departed.recordsLawful {s t : State} {n : StationNo} (h : s.Departed t n) (law : s.RecordsLawful)
    (used : (s.station n).state ≠ .free) (used' : (t.station n).state ≠ .free)
    (known : (t.station n).hardwareId = (s.station n).hardwareId) (list : (t.station n).flowList = (s.station n).flowList)
    (flows : ∀ g ∈ (s.station n).flowList, (t.flow g).station = (s.flow g).station ∧ (t.flow g).state = (s.flow g).state)
    (free : t.freeList = s.freeList) (identity : t.identity = s.identity)
    (queues : s.PollQueuesLawful → t.PollQueuesLawful) : t.RecordsLawful := by
  refine ⟨numbersLawful_used h.others used used' known free identity law.1,
    flowListsLawful_congr (fun m => ?_) (fun g => ?_) law.flowLists, queues law.polls, (h.withdrawn law).lists law,
    (h.withdrawn law).calendars law⟩
  · by_cases same : m = n
    · rw [same, list]
    · rw [h.others m same]
  · by_cases of : g ∈ (s.station n).flowList
    · exact ⟨(flows g of).1, by rw [(flows g of).2]⟩
    · rw [h.flows g of]
      exact ⟨rfl, .rfl⟩

theorem lose_frame (s : State) (n : StationNo) :
    (s.lose n).freeList = s.freeList ∧ (s.lose n).identity = s.identity := by
  have frame := listFrame_takenOffline s n
  unfold lose
  dsimp only
  constructor
  all_goals
    simp only [raise_freeList, raise_identity, State.adjustRemove, State.pollRemove, putAdjustQueue_freeList,
      putAdjustQueue_identity, putStation_freeList, putStation_identity, putPollQueue_freeList, putPollQueue_identity]
    rw [mapFlows_frame, frame]
    rfl

theorem PartKept.lose (s : State) (n : StationNo) : s.PartKept (s.lose n) :=
  ((((((takenOffline s n).trans (putStation _ n _)).trans (mapFlows _ _ bounded_lostFlow)).trans (pollRemove _ n)).trans
    (adjustRemove _ n))).trans (LawKept.raise _ _).toPartKept

/-- A station in use is lost (R33). -/
theorem LawKept.lose {s : State} {n : StationNo} (used : s.RecordsLawful → (s.station n).state ≠ .free) :
    s.LawKept (s.lose n) := by
  refine ⟨PartKept.lose s n, fun _ law => ?_⟩
  obtain ⟨station, queues, -, leaves, -, flow, -⟩ := lose_leaves s n
  obtain ⟨free, identity⟩ := lose_frame s n
  generalize s.lose n = t at *
  have others (m : StationNo) (other : m ≠ n) := (station m).trans (if_neg other)
  have own := (station n).trans (if_pos rfl)
  have departed := departed_flowOff law others (by rw [own]; nofun) leaves (fun g out => by rw [flow, if_neg out])
    fun g of => by rw [flow, if_pos of]; exact ⟨rfl, id, .inl (flowOff_keeps s n g).1⟩
  refine departed.recordsLawful law (used law) (by rw [own]; nofun) (by rw [own]) (by rw [own]) (fun g of => ?_) free identity
    (pollQueuesLawful_removed others (by rw [own]) queues)
  rw [flow, if_pos of]
  exact flowOff_keeps s n g

theorem PartKept.moveStation (s : State) (n : StationNo) (c : ChanNo) : s.PartKept (s.moveStation n c) := by
  unfold State.moveStation
  dsimp only
  refine .trans ?_ (pollEnqueue _ n)
  refine .trans ?_ (putStation _ n _)
  refine .trans ?_ (pollRemove _ n)
  exact (takenOffline s n).trans (mapFlows _ _ fun _ => id)

/-- A station in use moves (R32). -/
theorem LawKept.moveStation {s : State} {n : StationNo} (used : (s.station n).state ≠ .free) (c : ChanNo) :
    s.LawKept (s.moveStation n c) := by
  refine ⟨PartKept.moveStation s n c, fun _ law => ?_⟩
  obtain ⟨u, asks, station, queues, leaves, -, flow, frame⟩ := moveStation_asks s n c
  have free : u.freeList = s.freeList := by rw [frame]
  have identity : u.identity = s.identity := by rw [frame]
  rw [asks]
  clear asks frame
  have others (m : StationNo) (other : m ≠ n) := (station m).trans (if_neg other)
  have own := (station n).trans (if_pos rfl)
  have departed := departed_flowOff law others (by rw [own]; nofun) leaves (fun g out => by rw [flow, if_neg out])
    fun g of => by rw [flow, if_pos of]; exact ⟨rfl, id, .inl (flowOff_keeps s n g).1⟩
  refine RecordsLawful.enqueue ?_ ⟨by rw [own]; exact .inl rfl, rfl⟩
  refine departed.recordsLawful law used (by rw [own]; nofun) (by rw [own]) (by rw [own]) (fun g of => ?_) free identity
    (pollQueuesLawful_removed others (by rw [own]) queues)
  rw [flow, if_pos of]
  exact flowOff_keeps s n g

end State

end Sys2Proof.Machine
end

section
/-! SUPPORT. The laws of the records where a number is taken or returned and where a known station joins again (R22, R23, R25, R26,
R34). -/

namespace Sys2Proof.Machine

namespace State

/-! ## A release (R34) -/

theorem PartKept.releaseStation (s : State) (n : StationNo) : s.PartKept (s.releaseStation n) := by
  unfold State.releaseStation
  dsimp only
  refine .trans ?_ (putFreeList _ _)
  refine .trans ?_ (putStation _ n _)
  refine .trans ?_ (putIdentity _ _)
  refine .trans ?_ (adjustRemove _ n)
  refine .trans ?_ (pollRemove _ n)
  exact (takenOffline s n).trans (mapFlows _ _ bounded_unboundFlow)

section Release

variable {s t : State} {n : StationNo}

/-- A number in use returns to the tail of the free list, and its hardware ID leaves the identity map (R22, R23). -/
theorem NumbersLawful.release (h : s.NumbersLawful) (used : (s.station n).state ≠ .free)
    (own : t.station n = Station.reset) (others : ∀ m, m ≠ n → t.station m = s.station m)
    (free : t.freeList = s.freeList ++ [n])
    (identity : t.identity = s.identity.filter (fun e => decide (some e.1 ≠ (s.station n).hardwareId))) :
    t.NumbersLawful := by
  obtain ⟨nodup, mem, blank, known, keys, ids⟩ := h
  have isFree : (t.station n).state = .free := by rw [own]; rfl
  have unique {h : HwId} {m : StationNo} (mine : (s.station n).hardwareId = some h) (its : (s.station m).hardwareId = some h) :
      m = n := by
    have same := List.inj_on_of_nodup_map keys ((ids h m).2 its) ((ids h n).2 mine) rfl
    exact congrArg Prod.snd same
  refine ⟨?_, fun m => ?_, fun m isFree => ?_, fun m used' => ?_, ?_, fun h m => ?_⟩
  · rw [free]
    refine List.nodup_append.2 ⟨nodup, List.nodup_singleton n, fun a among b last => ?_⟩
    rw [List.mem_singleton.1 last]
    exact fun same => used ((mem n).1 (same ▸ among))
  · rw [free, List.mem_append, List.mem_singleton]
    by_cases same : m = n
    · subst same
      simp [isFree]
    · rw [others m same, mem]
      simp [same]
  · by_cases same : m = n
    · rw [same, own]
    · rw [others m same] at isFree ⊢
      exact blank m isFree
  · have other : m ≠ n := fun same => used' (same ▸ isFree)
    rw [others m other] at used' ⊢
    exact known m used'
  · rw [identity]
    exact keys.sublist (List.filter_sublist.map _)
  · rw [identity, List.mem_filter, decide_eq_true_eq, ids]
    by_cases same : m = n
    · subst same
      rw [own]
      exact ⟨fun x => absurd x.1.symm x.2, nofun⟩
    · rw [others m same]
      exact ⟨And.left, fun its => ⟨its, fun mine => same (unique mine.symm its)⟩⟩

/-- The flows of a released station are unbound (R30, R44). -/
theorem FlowListsLawful.release (h : s.FlowListsLawful) (own : t.station n = Station.reset)
    (others : ∀ m, m ≠ n → t.station m = s.station m)
    (flow : ∀ g, t.flow g = if g ∈ (s.station n).flowList then unboundFlow (s.flowOff n g) else s.flow g) :
    t.FlowListsLawful := by
  obtain ⟨lists, mem, idle⟩ := h
  have unbound {g : FlowNo} (of : g ∈ (s.station n).flowList) : (t.flow g).station = none ∧ (t.flow g).state = .idle := by
    rw [flow, if_pos of]
    exact ⟨rfl, rfl⟩
  have still {g : FlowNo} (out : g ∉ (s.station n).flowList) : t.flow g = s.flow g := by rw [flow, if_neg out]
  refine ⟨fun m => ?_, fun m g => ?_, fun g => ?_⟩
  · by_cases same : m = n
    · rw [same, own]
      exact ⟨List.nodup_nil, Nat.zero_le _⟩
    · rw [others m same]
      exact lists m
  · by_cases of : g ∈ (s.station n).flowList
    · rw [(unbound of).1]
      by_cases same : m = n
      · rw [same, own]
        exact ⟨nofun, nofun⟩
      · rw [others m same, mem, (mem n g).1 of]
        simp [Ne.symm same]
    · rw [still of, ← mem]
      by_cases same : m = n
      · rw [same, own]
        exact ⟨nofun, fun x => absurd x of⟩
      · rw [others m same]
  · by_cases of : g ∈ (s.station n).flowList
    · obtain ⟨station, state⟩ := unbound of
      simp [station, state]
    · rw [still of, idle]

/-- A station in use is released (R34). -/
theorem LawKept.releaseStation (used : (s.station n).state ≠ .free) : s.LawKept (s.releaseStation n) := by
  refine ⟨PartKept.releaseStation s n, fun _ law => ?_⟩
  obtain ⟨own, others, free, identity, -, queues, leaves, -, flow, -⟩ := releaseStation_leaves s n
  generalize s.releaseStation n = t at *
  have departed : s.Departed t n := by
    refine departed_flowOff law others (by rw [own]; nofun) leaves (fun g out => by rw [flow, if_neg out]) fun g of => ?_
    rw [flow, if_pos of]
    exact ⟨rfl, fun _ => rfl, .inr rfl⟩
  exact ⟨law.1.release used own others free identity, law.2.1.release own others flow,
    pollQueuesLawful_removed others (by rw [own]; rfl) queues law.polls, (departed.withdrawn law).lists law,
    (departed.withdrawn law).calendars law⟩

end Release

/-! ## A known station joins again (R25) -/

theorem PartKept.detached (s : State) (n : StationNo) (c : ChanNo) : s.PartKept (s.detached n c) := by
  unfold State.detached
  split
  · exact (leaveOnline s n).trans (adjustRemove _ n)
  · exact (((leaveOnline s n).trans (adjustRemove _ n)).trans (pollRemove _ n)).trans (mapFlows _ _ fun _ => id)

theorem PartKept.rejoin (s : State) (n : StationNo) (c : ChanNo) : s.PartKept (s.rejoin n c) := by
  rw [rejoin_eq]
  exact (detached s n c).trans (putStation _ n _)

/-- The place of the station in the poll queues: it keeps it where the channel is the same, and leaves it elsewhere (R25). -/
theorem rejoin_asked (s : State) (n : StationNo) (c : ChanNo) :
    ((s.station n).channel = c ∧ (s.rejoin n c).pollQueues = s.pollQueues ∧
      ((s.rejoin n c).station n).inPollQueue = (s.station n).inPollQueue) ∨
    ((s.rejoin n c).pollQueues =
        (s.putPollQueue (s.station n).channel ((s.pollQueue (s.station n).channel).erase n)).pollQueues ∧
      ((s.rejoin n c).station n).inPollQueue = false) := by
  have left := listFrame_leaveOnline s n
  have station (m : StationNo) : (s.leaveOnline n).station m = s.station m := by rw [left]; rfl
  rw [rejoin_eq, station_putStation_same, putStation_pollQueues]
  unfold State.detached
  split
  · next same =>
    refine .inl ⟨same, ?_, ?_⟩
    · rw [left]
      rfl
    · show ((s.leaveOnline n).station n).inPollQueue = _
      rw [station]
  · refine .inr ?_
    have changed := mapFlows_frame unanchored (s.station n).flowList (((s.leaveOnline n).adjustRemove n).pollRemove n)
    rw [changed]
    refine ⟨?_, ?_⟩
    · show (((s.leaveOnline n).adjustRemove n).pollRemove n).pollQueues = _
      rw [State.pollRemove, left]
      rfl
    · show ((((s.leaveOnline n).adjustRemove n).pollRemove n).station n).inPollQueue = false
      rw [pollRemove_station, if_pos rfl]

/-- A station in use joins again (R25). -/
theorem LawKept.rejoin {s : State} {n : StationNo} (used : s.RecordsLawful → (s.station n).state ≠ .free) (c : ChanNo) :
    s.LawKept (s.rejoin n c) := by
  refine ⟨PartKept.rejoin s n c, fun _ law => ?_⟩
  obtain ⟨frame, others, own, flow, -, -, leaves, -⟩ := rejoined_rejoin s n c
  have polls := rejoin_asked s n c
  generalize s.rejoin n c = t at *
  have departed : s.Departed t n := by
    refine departed_flowOff law others (by rw [own]; nofun) leaves (fun g out => by rw [flow, if_neg out]) fun g of => ?_
    rw [flow, if_pos of]
    exact ⟨rfl, id, .inl (flowOff_keeps s n g).1⟩
  refine departed.recordsLawful law (used law) (by rw [own]; nofun) (by rw [own]) (by rw [own]) (fun g of => ?_)
    (by rw [frame]) (by rw [frame]) ?_
  · rw [flow, if_pos of]
    exact flowOff_keeps s n g
  · obtain ⟨same, queues, asked⟩ | ⟨queues, out⟩ := polls
    · exact pollQueuesLawful_stays others asked (by rw [own, same]) (fun _ => ⟨by rw [own]; exact .inl rfl, rfl⟩) queues
    · exact pollQueuesLawful_removed others out queues

/-! ## A newcomer (R26) -/

theorem lookupIdentity_none {s : State} {h : HwId} (unknown : s.lookupIdentity h = none) (m : StationNo) :
    (h, m) ∉ s.identity := fun among => by
  rw [lookupIdentity, Option.map_eq_none_iff, List.find?_eq_none] at unknown
  exact unknown (h, m) among (beq_self_eq_true h)

theorem mem_of_lookupIdentity {s : State} {h : HwId} {n : StationNo} (known : s.lookupIdentity h = some n) :
    (h, n) ∈ s.identity := by
  rw [lookupIdentity, Option.map_eq_some_iff] at known
  obtain ⟨⟨g, m⟩, found, rfl⟩ := known
  have same : g = h := beq_iff_eq.1 (List.find?_some (p := fun e : HwId × StationNo => e.1 == h) found)
  exact same ▸ List.mem_of_find?_eq_some found

/-- A station found by its hardware ID is in use (R23). -/
theorem NumbersLawful.used {s : State} (law : s.NumbersLawful) {h : HwId} {n : StationNo}
    (known : s.lookupIdentity h = some n) : (s.station n).state ≠ .free := fun isFree => by
  obtain ⟨-, -, blank, -, -, ids⟩ := law
  have mine := (ids h n).1 (mem_of_lookupIdentity known)
  rw [blank n isFree] at mine
  cases mine

/-- The number at the head of the free list is taken by a station with a new hardware ID (R22, R23, R26). -/
theorem NumbersLawful.newcomer {s t : State} {n : StationNo} {h : HwId} {q : List StationNo} (law : s.NumbersLawful)
    (head : s.freeList = n :: q) (new : ∀ m, (h, m) ∉ s.identity) (used : (t.station n).state ≠ .free)
    (own : (t.station n).hardwareId = some h) (others : ∀ m, m ≠ n → t.station m = s.station m) (free : t.freeList = q)
    (identity : t.identity = s.identity ++ [(h, n)]) : t.NumbersLawful := by
  obtain ⟨nodup, mem, blank, known, keys, ids⟩ := law
  rw [head, List.nodup_cons] at nodup
  have isFree : (s.station n).state = .free := (mem n).1 (head ▸ List.mem_cons_self)
  have bare (g : HwId) : (g, n) ∉ s.identity := fun among => by
    have mine := (ids g n).1 among
    rw [blank n isFree] at mine
    cases mine
  refine ⟨free ▸ nodup.2, fun m => ?_, fun m isFree' => ?_, fun m used' => ?_, ?_, fun g m => ?_⟩
  · rw [free]
    by_cases same : m = n
    · subst same
      exact ⟨fun among => absurd among nodup.1, fun x => absurd x used⟩
    · rw [others m same, ← mem, head, List.mem_cons]
      simp [same]
  · have other : m ≠ n := fun same => used (same ▸ isFree')
    rw [others m other] at isFree' ⊢
    exact blank m isFree'
  · by_cases same : m = n
    · rw [same, own]
      rfl
    · rw [others m same] at used' ⊢
      exact known m used'
  · rw [identity, List.map_append]
    refine List.nodup_append.2 ⟨keys, List.nodup_singleton h, fun a among b last => ?_⟩
    rw [List.mem_singleton.1 last]
    rintro rfl
    obtain ⟨⟨g, m⟩, stands, rfl⟩ := List.mem_map.1 among
    exact new m stands
  · rw [identity, List.mem_append, List.mem_singleton, Prod.mk.injEq]
    by_cases same : m = n
    · subst same
      rw [own, Option.some.injEq]
      exact ⟨fun x => x.elim (fun among => absurd among (bare g)) fun x => x.1.symm, fun x => .inr ⟨x.symm, rfl⟩⟩
    · rw [others m same, ids]
      simp [same]

/-- A newcomer takes a number (R26). The station it becomes had no flow and stood in no queue. -/
theorem LawKept.newcomer {s : State} {n : StationNo} {h : HwId} {q : List StationNo} (head : s.freeList = n :: q)
    (unknown : s.lookupIdentity h = none) (c : ChanNo) : s.LawKept (s.newcomer n h c) := by
  refine ⟨(((PartKept.putFreeList s _).trans (PartKept.putStation _ n _)).trans (PartKept.putIdentity _ _)).trans
    (LawKept.raise _ _).toPartKept, fun _ law => ?_⟩
  have station (m : StationNo) := newcomer_station s n m h c
  have others (m : StationNo) (other : m ≠ n) := (station m).trans (if_neg other)
  have own := (station n).trans (if_pos rfl)
  have blank : s.station n = Station.reset := law.numbers.blank ((law.numbers.mem_freeList n).1 (head ▸ List.mem_cons_self))
  have departed : s.Departed (s.newcomer n h c) n := by
    refine ⟨others, by rw [own]; nofun, ⟨fun online => ?_, fun _ => ⟨rfl, rfl⟩⟩, fun _ _ => rfl, fun g of => ?_⟩
    · rw [blank] at online
      cases online
    · rw [blank] at of
      cases of
  refine ⟨law.1.newcomer head (lookupIdentity_none unknown) (by rw [own]; nofun) (by rw [own]; rfl) others ?_ rfl,
    flowListsLawful_congr (s := s) (fun m => ?_) (fun _ => ⟨rfl, .rfl⟩) law.2.1,
    pollQueuesLawful_out others (by rw [blank]; rfl) (by rw [own]; rfl) rfl law.polls, 
    (departed.withdrawn law).lists law, (departed.withdrawn law).calendars law⟩
  · show s.freeList.tail = q
    rw [head, List.tail_cons]
  · rw [station]
    split
    · next same =>
      rw [same, blank]
      rfl
    · rfl

end State

end Sys2Proof.Machine
end

section
/-! SUPPORT. The laws of the records under the operations on flows (R41 to R44). -/

namespace Sys2Proof.Machine

namespace State

/-! ## A flow that is not ACTIVE (R56, R86) -/

section Inactive

variable {s t : State} {f : FlowNo}

/-- A flow that is not ACTIVE stands in no list and no calendar. -/
theorem RecordsLawful.inactive (law : s.RecordsLawful) (off : (s.flow f).state ≠ .active) :
    (s.flow f).listLevel = none ∧ (s.flow f).nextNominal = none ∧ (∀ c l, f ∉ s.active c l) ∧
      ∀ c, f ∉ (s.calendar c).waiting ++ (s.calendar c).timed := by
  obtain ⟨-, -, -, ⟨meets, -, mem⟩, ⟨-, stands, timed⟩⟩ := law
  have unlisted : (s.flow f).listLevel = none := by
    cases level : (s.flow f).listLevel with
    | none => rfl
    | some l => exact absurd ((meets f).1 (by rw [level]; rfl)).1 off
  have out (c : ChanNo) : f ∉ (s.calendar c).waiting ++ (s.calendar c).timed := fun among => off (stands c f among).1
  refine ⟨unlisted, ?_, fun c l among => ?_, out⟩
  · cases nominal : (s.flow f).nextNominal with
    | none => rfl
    | some b =>
      obtain ⟨c, among⟩ := (timed f).1 (by rw [nominal]; rfl)
      exact absurd (List.mem_append_right _ among) (out c)
  · rw [((mem c l f).1 among).1] at unlisted
    cases unlisted

/-- A flow that is not ACTIVE changes, and is not ACTIVE after. -/
theorem RecordsLawful.inactive_changes (law : s.RecordsLawful) (off : (s.flow f).state ≠ .active)
    (off' : (t.flow f).state ≠ .active) (unlisted : (t.flow f).listLevel = none) (untimed : (t.flow f).nextNominal = none)
    (others : ∀ g, g ≠ f → t.flow g = s.flow g)
    (stations : ∀ m, (t.station m).state = (s.station m).state ∧ (t.station m).channel = (s.station m).channel)
    (lists : t.activeLists = s.activeLists) (calendars : t.calendars = s.calendars) :
    t.ListsLawful ∧ t.CalendarsLawful := by
  obtain ⟨-, -, absent, out⟩ := law.inactive off
  have active (c : ChanNo) (l : Level) : t.active c l = s.active c l := by rw [State.active, lists, State.active]
  have calendar (c : ChanNo) : t.calendar c = s.calendar c := by rw [State.calendar, calendars, State.calendar]
  have withdrawn : s.Withdrawn t (fun g => g = f) := by
    refine ⟨fun c l g => ?_, fun c l => ?_, fun c g among => ?_, fun c g => ?_, fun c => ?_, others,
      fun _ m _ _ => stations m, ?_⟩
    · rw [active]
      exact ⟨fun among => ⟨among, fun same => absent c l (same ▸ among)⟩, And.left⟩
    · exact active c l ▸ law.lists.2.1 c l
    · rw [calendar] at among
      exact ⟨among, fun same => out c (same ▸ among)⟩
    · rw [calendar]
      exact ⟨fun among => ⟨among, fun same => out c (same ▸ List.mem_append_right _ among)⟩, And.left⟩
    · exact calendar c ▸ law.calendars.1 c
    · rintro g rfl
      exact ⟨unlisted, untimed, fun meets => off' meets.1⟩
  exact ⟨withdrawn.lists law, withdrawn.calendars law⟩

end Inactive

/-! ## FLOW-BIND and FLOW-UNBIND (R41, R44) -/

/-- A flow record that is bound to a station, or unbound from it, with the station's FLOW LIST. -/
def bindTo (s : State) (f : FlowNo) (x : Flow) (n : StationNo) (q : List FlowNo) : State :=
  (s.putFlow f x).putStation n { s.station n with flowList := q }

theorem bindTo_station (s : State) (f : FlowNo) (x : Flow) (n : StationNo) (q : List FlowNo) (m : StationNo) :
    (s.bindTo f x n q).station m = if m = n then { s.station n with flowList := q } else s.station m :=
  station_putStation (s.putFlow f x) n m _

theorem bindTo_flow (s : State) (f : FlowNo) (x : Flow) (n : StationNo) (q : List FlowNo) (g : FlowNo) :
    (s.bindTo f x n q).flow g = if g = f then x else s.flow g :=
  flow_putFlow s f g x

section Bind

variable {s : State} {f : FlowNo} {x : Flow} {n : StationNo} {q : List FlowNo}

/-- The FLOW LIST law under a bind or an unbind. -/
theorem FlowListsLawful.bindTo (h : s.FlowListsLawful) (nodup : q.Nodup) (short : q.length ≤ 16)
    (mem : ∀ g, g ∈ q ↔ if g = f then x.station = some n else g ∈ (s.station n).flowList)
    (elsewhere : ∀ m, m ≠ n → (s.flow f).station ≠ some m ∧ x.station ≠ some m)
    (idle : x.state = .idle ↔ x.station = none) : (s.bindTo f x n q).FlowListsLawful := by
  obtain ⟨lists, bound, idles⟩ := h
  refine ⟨fun m => ?_, fun m g => ?_, fun g => ?_⟩
  · rw [bindTo_station]
    split
    · exact ⟨nodup, short⟩
    · exact lists m
  · rw [bindTo_station, bindTo_flow]
    by_cases here : m = n
    · subst here
      rw [if_pos rfl, mem]
      split
      · rfl
      · exact bound m g
    · rw [if_neg here]
      obtain ⟨was, is⟩ := elsewhere m here
      split
      · next same =>
        subst same
        exact ⟨fun among => absurd ((bound m g).1 among) was, fun of => absurd of is⟩
      · exact bound m g
  · rw [bindTo_flow]
    split
    · exact idle
    · exact idles g

/-- A flow that is not ACTIVE, before and after, is bound to a station in use or unbound from it. -/
theorem LawKept.bindTo (bounded : (s.flow f).Bounded → x.Bounded)
    (used : s.RecordsLawful → (s.station n).state ≠ .free) (off : (s.flow f).state ≠ .active) (off' : x.state ≠ .active)
    (level : x.listLevel = (s.flow f).listLevel) (nominal : (s.flow f).nextNominal = none → x.nextNominal = none)
    (lists : s.RecordsLawful → (s.bindTo f x n q).FlowListsLawful) : s.LawKept (s.bindTo f x n q) := by
  refine ⟨(PartKept.putFlow s f bounded).trans (PartKept.putStation _ n _), fun _ law => ?_⟩
  have station (m : StationNo) := bindTo_station s f x n q m
  have others (m : StationNo) (other : m ≠ n) := (station m).trans (if_neg other)
  have own := (station n).trans (if_pos rfl)
  obtain ⟨unlisted, untimed, -⟩ := law.inactive off
  have flow := (bindTo_flow s f x n q f).trans (if_pos rfl)
  have inUse := used law
  refine ⟨numbersLawful_used others inUse (by rw [own]; exact inUse) (by rw [own]) rfl rfl law.1, lists law,
    pollQueuesLawful_stays others (by rw [own]) (by rw [own]) (fun reach => ?_) rfl law.polls,
    law.inactive_changes off (by rw [flow]; exact off') (by rw [flow, level, unlisted]) (by rw [flow]; exact nominal untimed)
      (fun g other => (bindTo_flow s f x n q g).trans (if_neg other)) (fun m => ?_) rfl rfl⟩
  · unfold Reaches at reach ⊢
    rw [own]
    exact reach
  · rw [station]
    split
    · next same => exact same ▸ ⟨rfl, rfl⟩
    · exact ⟨rfl, rfl⟩

end Bind

theorem LawKept.flowBindOp (s : State) (i j : Nat) : s.LawKept (s.flowBindOp i j).state := by
  unfold State.flowBindOp
  split
  · exact .refl s
  · exact .refl s
  · next f n _ _ =>
    split_ifs with busy free full
    · exact .refl s
    · exact .refl s
    · exact .refl s
    have idle : (s.flow f).state = .idle := not_not.1 busy
    refine LawKept.bindTo id (fun _ => free) (by rw [idle]; nofun) nofun rfl id fun law => ?_
    have loose : (s.flow f).station = none := (law.flowLists.idle f).1 idle
    have out : f ∉ (s.station n).flowList := fun among => by
      rw [(law.flowLists.mem n f).1 among] at loose
      cases loose
    refine law.2.1.bindTo ?_ ?_ (fun g => ?_) (fun m other => ⟨by rw [loose]; nofun, fun h => other ?_⟩) ⟨nofun, nofun⟩
    · refine List.nodup_append.2 ⟨(law.flowLists.nodup_short n).1, List.nodup_singleton f, fun a among b last => ?_⟩
      rw [List.mem_singleton.1 last]
      exact fun same => out (same ▸ among)
    · rw [List.length_append, List.length_singleton]
      exact Nat.lt_of_not_le full
    · by_cases same : g = f <;> simp [same]
    · exact (Option.some.inj h).symm

theorem LawKept.flowUnbindOp (s : State) (i : Nat) : s.LawKept (s.flowUnbindOp i).state := by
  unfold State.flowUnbindOp
  split
  · exact .refl s
  · next f _ =>
    split_ifs with other
    · exact .refl s
    have held : (s.flow f).state = .held := not_not.1 other
    cases of : (s.flow f).station with
    | none =>
      refine ⟨PartKept.putFlow s f (bounded_unboundFlow _), fun _ law => ?_⟩
      rw [(law.flowLists.idle f).2 of] at held
      cases held
    | some n =>
      refine LawKept.bindTo (n := n) (bounded_unboundFlow _) (fun law isFree => ?_) (by rw [held]; nofun) nofun rfl
        (fun _ => rfl) fun law => ?_
      · have bound := (law.flowLists.mem n f).2 of
        rw [law.numbers.blank isFree] at bound
        cases bound
      · obtain ⟨nodup, short⟩ := law.flowLists.nodup_short n
        refine law.2.1.bindTo (nodup.erase f) (List.length_erase_le.trans short) (fun g => ?_)
          (fun m other => ⟨fun h => other ?_, nofun⟩) ⟨fun _ => rfl, fun _ => rfl⟩
        · rw [nodup.mem_erase_iff]
          by_cases same : g = f <;> simp [same, unboundFlow]
        · exact Option.some.inj (h.symm.trans of)

/-! ## FLOW-ACTIVATE (R42) -/

section Activate

variable {s : State} {f : FlowNo}

theorem PartKept.activated (s : State) (f : FlowNo) : s.PartKept (s.activated f) := putFlow s f id

/-- A HELD flow made ACTIVE is the one that may meet the enlistment law and not be enlisted yet. -/
theorem activated_lawful (law : s.RecordsLawful) (held : (s.flow f).state = .held) :
    (s.activated f).NumbersLawful ∧ (s.activated f).FlowListsLawful ∧ (s.activated f).PollQueuesLawful ∧
      (s.activated f).ListsLawfulBut [f] ∧ (s.activated f).CalendarsLawful := by
  obtain ⟨unlisted, -, -, out⟩ := law.inactive (by rw [held]; nofun)
  have others {g : FlowNo} (other : g ≠ f) : (s.activated f).flow g = s.flow g := flow_putFlow_ne s other _
  have same (g : FlowNo) : ((s.activated f).flow g).station = (s.flow g).station ∧
      ((s.activated f).flow g).listLevel = (s.flow g).listLevel ∧
      ((s.activated f).flow g).nextNominal = (s.flow g).nextNominal := by
    by_cases own : g = f
    · rw [own, activated_flow_same]
      exact ⟨rfl, rfl, rfl⟩
    · rw [others own]
      exact ⟨rfl, rfl, rfl⟩
  obtain ⟨numbers, flowLists, polls, lists, calendars⟩ := law
  refine ⟨numbers, flowListsLawful_congr (s := s) (fun _ => rfl) (fun g => ⟨(same g).1, ?_⟩) flowLists, polls, ?_, ?_⟩
  · by_cases own : g = f
    · rw [own, activated_flow_same, held]
      exact ⟨nofun, nofun⟩
    · rw [others own]
  · refine ((listsLawful_iff s).1 lists).congr (fun _ _ => rfl) (fun _ _ _ => rfl) (fun g => ⟨(same g).1, (same g).2.1⟩)
      (fun g enlisted meets => ?_) (fun g out' meets => ⟨List.not_mem_nil, ?_⟩)
    · have other : g ≠ f := fun own => by
        rw [own, unlisted] at enlisted
        cases enlisted
      unfold Enlistable at meets ⊢
      rw [others other]
      exact meets
    · unfold Enlistable at meets ⊢
      rw [others (by simpa using out')] at meets
      exact meets
  · refine calendarsLawful_congr (s := s) (fun _ => rfl) (fun c g among may => ?_) (fun g => by rw [(same g).2.2]) calendars
    have other : g ≠ f := fun own => out c (own ▸ among)
    unfold Timeable at may ⊢
    rw [others other]
    exact may

/-- A HELD flow becomes ACTIVE under its station (R42). -/
theorem LawKept.activateFlow {n : StationNo} (held : (s.flow f).state = .held) (of : (s.flow f).station = some n) :
    s.LawKept (s.activateFlow f n).state := by
  rw [activateFlow_eq]
  split_ifs with off full
  · refine ⟨PartKept.activated s f, fun _ law => ?_⟩
    obtain ⟨numbers, flowLists, polls, lists, calendars⟩ := activated_lawful law held
    refine ⟨numbers, flowLists, polls, (listsLawful_iff _).2 (lists.skip ?_), calendars⟩
    rintro ⟨-, -, -, m, of', online⟩
    rw [activated_flow_same] at of'
    cases of.symm.trans of'
    exact off online
  · exact count s _ _ _
  · rw [answer_state]
    have online : (s.station n).state = .online := not_not.1 off
    refine ⟨(PartKept.activated s f).trans (PartKept.onlineFlow _ n _ f), fun _ law => ?_⟩
    obtain ⟨numbers, flowLists, polls, lists, calendars⟩ := activated_lawful law held
    have entering : (s.activated f).Entering n (s.station n).channel [f] := by
      refine ⟨lists, calendars, online, rfl, fun g among => ?_⟩
      rw [List.mem_singleton.1 among, activated_flow_same]
      exact of
    have entered := entering.step
    have keeps := onlineFlow_keeps (s.activated f) n (s.station n).channel f
    have states := onlineFlow_state (s.activated f) n (s.station n).channel f
    have frame := onlineFlow_frame (s.activated f) n (s.station n).channel f
    refine ⟨?_, flowListsLawful_congr (fun m => by rw [keeps.1 m]) (fun g => ⟨keeps.2 g, by rw [states g]⟩) flowLists, ?_,
      (listsLawful_iff _).2 entered.lists, entered.calendars⟩
    · rw [frame]
      exact numbers
    · rw [frame]
      exact polls

theorem LawKept.flowActivateOp (s : State) (i : Nat) : s.LawKept (s.flowActivateOp i).state := by
  unfold State.flowActivateOp
  split
  · exact .refl s
  · next f _ =>
    split_ifs with other
    · exact .refl s
    have held : (s.flow f).state = .held := not_not.1 other
    split
    · next n of => exact LawKept.activateFlow held of
    · next loose =>
      refine ⟨PartKept.activated s f, fun _ law => ?_⟩
      rw [(law.flowLists.idle f).2 loose] at held
      cases held

end Activate

/-! ## FLOW-HOLD (R43) -/

section Hold

variable {s : State} {f : FlowNo}

theorem PartKept.withdrawFlow (s : State) (f : FlowNo) : s.PartKept (s.withdrawFlow f) := by
  unfold State.withdrawFlow
  split
  · exact levelEnded (offlineFlow s _ f)
  · exact .refl s

/-- An ACTIVE flow made HELD has left its list and its calendar. -/
theorem withdrawn_held {n : StationNo} (law : s.RecordsLawful) (of : (s.flow f).station = some n) :
    s.Withdrawn ((s.held f).withdrawFlow f) (fun g => g = f) := by
  obtain ⟨-, flow, others, unlisted, listed, calendars⟩ := held_withdrawFlow of rfl
  have frame := listFrame_withdrawFlow (s.held f) f
  have station (m : StationNo) : ((s.held f).withdrawFlow f).station m = s.station m := by rw [frame]; rfl
  generalize (s.held f).withdrawFlow f = t at *
  obtain ⟨-, -, -, ⟨-, nodup, mem⟩, ⟨once, stands, timed⟩⟩ := law
  have list (c : ChanNo) (l : Level) : t.active c l = (s.active c l).erase f := by
    cases level : (s.flow f).listLevel with
    | none =>
      rw [active, unlisted level, List.erase_of_not_mem]
      · rfl
      · intro among
        rw [((mem c l f).1 among).1] at level
        cases level
    | some k =>
      rw [active, listed k level]
      by_cases here : c = (s.station n).channel ∧ l = k
      · rw [here.1, here.2]
        exact active_putActive_same s _ _ _
      · refine (active_putActive_ne s here _).trans (List.erase_of_not_mem fun among => here ?_).symm
        obtain ⟨level', m, of', on⟩ := (mem c l f).1 among
        cases of.symm.trans of'
        exact ⟨on.symm, Option.some.inj (level'.symm.trans level)⟩
  have calendar (c : ChanNo) : t.calendar c =
      { waiting := (s.calendar c).waiting.erase f, timed := (s.calendar c).timed.erase f } := by
    have absent (out : f ∉ (s.calendar c).waiting ++ (s.calendar c).timed) :
        s.calendar c = { waiting := (s.calendar c).waiting.erase f, timed := (s.calendar c).timed.erase f } := by
      rw [List.mem_append, not_or] at out
      rw [List.erase_of_not_mem out.1, List.erase_of_not_mem out.2]
    rw [State.calendar, calendars]
    by_cases inside : s.inCalendar (s.station n).channel f = true
    · rw [if_pos inside]
      by_cases here : c = (s.station n).channel
      · rw [here]
        exact calendar_putCalendar_same s _ _
      · refine (calendar_putCalendar_ne s here _).trans (absent fun among => here ?_)
        obtain ⟨-, -, m, of', -, on⟩ := stands c f among
        cases of.symm.trans of'
        exact on.symm
    · rw [if_neg inside]
      refine absent fun among => inside ?_
      obtain ⟨-, -, m, of', -, on⟩ := stands c f among
      cases of.symm.trans of'
      rw [inCalendar_iff, on]
      exact List.mem_append.1 among
  have parts (c : ChanNo) := List.nodup_append.1 (once c)
  refine ⟨fun c l g => ?_, fun c l => ?_, fun c g among => ?_, fun c g => ?_, fun c => ?_, others, fun _ m _ _ => ?_, ?_⟩
  · rw [list, (nodup c l).mem_erase_iff]
    exact and_comm
  · rw [list]
    exact (nodup c l).erase f
  · obtain ⟨waits, runs, -⟩ := parts c
    rw [calendar, List.mem_append, waits.mem_erase_iff, runs.mem_erase_iff] at among
    obtain ⟨other, among⟩ | ⟨other, among⟩ := among
    · exact ⟨List.mem_append_left _ among, other⟩
    · exact ⟨List.mem_append_right _ among, other⟩
  · rw [calendar, (parts c).2.1.mem_erase_iff]
    exact and_comm
  · rw [calendar]
    exact (once c).sublist (List.erase_sublist.append List.erase_sublist)
  · rw [station]
    exact ⟨rfl, rfl⟩
  · rintro g rfl
    refine ⟨by rw [flow], ?_, fun meets => ?_⟩
    · rw [flow]
      show (if _ then none else _) = none
      split
      · rfl
      · next outside =>
        cases nominal : (s.flow g).nextNominal with
        | none => rfl
        | some b =>
          obtain ⟨c, among⟩ := (timed g).1 (by rw [nominal]; rfl)
          obtain ⟨-, -, m, of', -, on⟩ := stands c g (List.mem_append_right _ among)
          cases of.symm.trans of'
          exact absurd ((inCalendar_iff s _ g).2 (on ▸ .inr among)) outside
    · have active := meets.1
      rw [flow] at active
      cases active

theorem LawKept.flowHoldOp (s : State) (i : Nat) : s.LawKept (s.flowHoldOp i).state := by
  unfold State.flowHoldOp
  split
  · exact .refl s
  · next f _ =>
    split_ifs with other
    · exact .refl s
    have active : (s.flow f).state = .active := not_not.1 other
    show s.LawKept ((s.held f).withdrawFlow f)
    have made : s.PartKept (s.held f) := PartKept.putFlow s f id
    refine ⟨made.trans (PartKept.withdrawFlow _ f), fun _ law => ?_⟩
    cases of : (s.flow f).station with
    | none =>
      rw [(law.flowLists.idle f).2 of] at active
      cases active
    | some n =>
      have withdrawn := withdrawn_held law of
      obtain ⟨-, flow, others, -⟩ := held_withdrawFlow of rfl
      have frame := listFrame_withdrawFlow (s.held f) f
      have station (m : StationNo) : ((s.held f).withdrawFlow f).station m = s.station m := by rw [frame]; rfl
      have free : ((s.held f).withdrawFlow f).NumbersLawful := frame ▸ law.1
      have polls : ((s.held f).withdrawFlow f).PollQueuesLawful := frame ▸ law.polls
      generalize (s.held f).withdrawFlow f = t at *
      refine ⟨free, flowListsLawful_congr (fun m => by rw [station]) (fun g => ?_) law.2.1, polls, withdrawn.lists law,
        withdrawn.calendars law⟩
      by_cases same : g = f
      · rw [same, flow, active]
        exact ⟨rfl, nofun, nofun⟩
      · rw [others g same]
        exact ⟨rfl, .rfl⟩

end Hold

end State

end Sys2Proof.Machine
end

section
/-! SUPPORT. What the Alignment Unit and the operations on stations keep (R25 to R28, R31 to R34, R115 to R120). -/

namespace Sys2Proof.Machine

namespace State

/-! ## A station that an alignment result reaches (R29) -/

section Reached

variable {s : State} {n : StationNo} {c : ChanNo}

theorem Reaches.used (h : s.Reaches n c) : (s.station n).state ≠ .free := by
  obtain ⟨a | a | a, -⟩ := h <;> rw [a] <;> nofun

theorem Reaches.own (h : s.Reaches n c) : s.Reaches n (s.station n).channel := ⟨h.1, rfl⟩

/-- A result still reaches a station whose STATE and CHANNEL are as they were. -/
theorem Reaches.congr {t : State} (h : s.Reaches n c) (state : (t.station n).state = (s.station n).state)
    (channel : (t.station n).channel = (s.station n).channel) : t.Reaches n c := by
  unfold Reaches at h ⊢
  rw [state, channel]
  exact h

/-- A record in use takes new values in fields that no law is read from. -/
theorem LawKept.putRecord {x : Station} (used : (s.station n).state ≠ .free)
    (same : x = { s.station n with
      policySelect := x.policySelect, missCount := x.missCount, lastGood := x.lastGood, timingTotal := x.timingTotal
      powerTotal := x.powerTotal, lastMeasurement := x.lastMeasurement, admitted := x.admitted }) :
    s.LawKept (s.putStation n x) := by
  rw [same]
  exact putStation fun _ => .of_used used rfl rfl rfl rfl rfl

/-! ## Adjustments (R110, R120) -/

theorem LawKept.offerAdjust {a : AdjustEntry} (reaches : s.Reaches a.station c) : s.LawKept (s.offerAdjust a) := by
  obtain ⟨-, e⟩ | ⟨-, room, e⟩ | ⟨-, -, e⟩ := offerAdjust_cases s a <;> rw [e]
  · refine (putAdjustQueue s fun short => ?_).trans (countDevice _ _ _)
    rw [length_replaceFirst]
    exact short
  · refine (putAdjustQueue s fun _ => ?_).trans (countDevice _ _ _)
    rw [List.length_append, List.length_singleton]
    exact room
  · exact ((countDevice s _ _).trans (raise _ _)).trans (pollEnqueue fun _ => reaches.own)

/-! ## Misses (R118) -/

theorem LawKept.missAdmitted (reaches : s.Reaches n c) : s.LawKept (s.missAdmitted n c) := by
  unfold State.missAdmitted
  dsimp only
  have counted := (putRecord (x := { s.station n with missCount := (s.station n).missCount + 1 }) reaches.used rfl).trans
    (count _ c .misses 1)
  have still : ((s.putStation n { s.station n with missCount := (s.station n).missCount + 1 }).count c .misses 1).Reaches n c :=
    reaches.congr (by simp) (by simp)
  split
  · exact counted.trans ((LawKept.lose fun _ => still.used).trans (count _ _ _ _))
  · exact counted.trans (pollEnqueue fun _ => still.own)

theorem LawKept.miss (s : State) (n : StationNo) (c : ChanNo) : s.LawKept (s.miss n c) := by
  unfold State.miss
  split
  · next reaches => exact missAdmitted ((resultReaches_iff s n c).1 reaches)
  · exact .refl s

/-! ## Measurements (R115 to R117, R119) -/

theorem LawKept.successTransition (s : State) (n : StationNo) : s.LawKept (s.successTransition n) := by
  unfold State.successTransition
  split
  · next aligning =>
    split
    · exact (enterOnline (.inl aligning)).trans (raise _ _)
    · refine putStation fun _ => ⟨⟨rfl, rfl, rfl, ?_, ?_, ?_⟩, rfl, fun _ => .inr (.inl rfl)⟩ <;> rw [aligning]
      · exact ⟨nofun, nofun⟩
      · exact ⟨nofun, nofun⟩
      · nofun
  · exact .refl s

theorem successTransition_reaches (reaches : s.Reaches n c) : (s.successTransition n).Reaches n c := by
  unfold Reaches
  rw [successTransition_station]
  refine ⟨?_, reaches.2⟩
  dsimp only
  split_ifs
  · exact .inr (.inr rfl)
  · exact .inr (.inl rfl)
  · exact reaches.1

theorem LawKept.success (reaches : s.Reaches n c) (start : Beat) : s.LawKept (s.success n c start) := by
  unfold State.success
  dsimp only
  have counted := (putRecord (x := { s.station n with missCount := 0, lastGood := some start }) reaches.used rfl).trans
    (count _ c .alignSuccess 1)
  have moved := counted.trans (successTransition _ n)
  split
  · refine moved.trans (offerAdjust (c := c) (successTransition_reaches ?_))
    exact reaches.congr (by simp) (by simp)
  · exact moved

theorem LawKept.correct (reaches : s.Reaches n c) (m : Measurement) : s.LawKept (s.correct n c m) := by
  unfold State.correct
  dsimp only
  obtain ⟨asked, station⟩ := offerAdjust_station s (s.correction n c m) n
  have still : (s.offerAdjust (s.correction n c m)).Reaches n c := reaches.congr (by rw [station]) (by rw [station])
  refine (LawKept.offerAdjust (a := s.correction n c m) reaches).trans ?_
  generalize s.offerAdjust (s.correction n c m) = t at still
  split
  · refine ((putRecord still.used rfl).trans (count _ _ _ _)).trans (pollEnqueue fun _ => Reaches.own (c := c) ?_)
    exact still.congr (by simp) (by simp)
  · exact pollEnqueue fun _ => still.own

theorem LawKept.judge (reaches : s.Reaches n c) (start : Beat) (m : Measurement) : s.LawKept (s.judge n c start m) := by
  unfold State.judge
  split_ifs
  · exact success reaches start
  · exact (count s _ _ _).trans (missAdmitted reaches)
  · exact correct reaches m

theorem LawKept.putMeasurement (used : (s.station n).state ≠ .free) (m : Measurement) : s.LawKept (s.putMeasurement n m) :=
  putRecord used rfl

theorem LawKept.pollMeasurement (s : State) (n : StationNo) (c : ChanNo) (start : Beat) (m : Measurement) :
    s.LawKept (s.pollMeasurement n c start m) := by
  unfold State.pollMeasurement
  split
  · next reaches =>
    have reaches := (resultReaches_iff s n c).1 reaches
    exact (putMeasurement reaches.used m).trans
      (judge (reaches.congr (by simp [State.putMeasurement]) (by simp [State.putMeasurement])) start m)
  · exact .refl s

theorem LawKept.maintenance (s : State) (n : StationNo) (c : ChanNo) (start : Beat) (m : Measurement) :
    s.LawKept (s.maintenance n c start m) := by
  unfold State.maintenance
  split
  · next here =>
    have reaches : s.Reaches n c := ⟨.inr (.inr here.1), here.2⟩
    have still : (s.putMeasurement n m).Reaches n c :=
      reaches.congr (by simp [State.putMeasurement]) (by simp [State.putMeasurement])
    refine (putMeasurement reaches.used m).trans ?_
    dsimp only
    split
    · exact (putRecord still.used rfl).trans (count _ _ _ _)
    · exact (pollEnqueue fun _ => still.own).trans (count _ _ _ _)
  · exact .refl s

/-! ## Join handoffs (R25, R26) -/

theorem LawKept.joinHandoff (s : State) (h : HwId) (c : ChanNo) (start : Beat) (m : Option Measurement) :
    s.LawKept (s.joinHandoff h c start m) := by
  unfold State.joinHandoff
  split
  · next n known =>
    have again := rejoin (n := n) (fun law => law.1.used known) c
    split
    · exact levelEnded (again.trans (pollMeasurement _ n c start _))
    · exact levelEnded again
  · next unknown =>
    split
    · exact raise s _
    · next n q head =>
      split
      · exact (newcomer head unknown c).trans (pollMeasurement _ n c start _)
      · exact newcomer head unknown c

end Reached

/-! ## STATION-ADMIT, STATION-MOVE and STATION-RELEASE (R31, R32, R34) -/

theorem LawKept.stationAdmitOp (s : State) (i : Nat) : s.LawKept (s.stationAdmitOp i).state := by
  unfold State.stationAdmitOp
  split
  · exact .refl s
  · next n _ =>
    split
    · exact .refl s
    · exact .refl s
    · next aligning => exact putRecord (by rw [aligning]; nofun) rfl
    · next parked =>
      refine (putRecord (x := { s.station n with admitted := true }) (by rw [parked]; nofun) rfl).trans (enterOnline (.inr ?_))
      rw [station_putStation_same]
      exact parked
    · exact .refl s

theorem LawKept.stationMoveOp (s : State) (i j : Nat) : s.LawKept (s.stationMoveOp i j).state := by
  unfold State.stationMoveOp
  split
  · exact .refl s
  · exact .refl s
  · next n c _ _ =>
    split_ifs with away
    · exact .refl s
    · exact .refl s
    · refine moveStation (fun isFree => away ?_) c
      simp [stationTakes, isFree]

theorem LawKept.stationReleaseOp (s : State) (i : Nat) : s.LawKept (s.stationReleaseOp i).state := by
  unfold State.stationReleaseOp
  split
  · exact .refl s
  · split_ifs with isFree
    · exact .refl s
    · exact releaseStation isFree

end State

end Sys2Proof.Machine
end

section
/-! SUPPORT. What Contention Control, the Plan Store, the Plan Link, Channel Control and Burst Intake keep. -/

namespace Sys2Proof.Machine

namespace State

namespace LawKept

/-- A piece that keeps everything where the records are lawful, and its bounds wherever they are not. -/
theorem of_law {s t : State} (part : s.PartKept t) (k : s.RecordsLawful → s.LawKept t) : s.LawKept t :=
  ⟨part, fun form law => (k law).records form law⟩

/-! ## Contention Control (R97 to R102) -/

theorem offerTally (s : State) (c : ChanNo) (x : OpenTally) : s.LawKept (s.offerTally c x) := by
  unfold State.offerTally
  split
  · exact (putContention s c _).trans (count _ c _ _)
  · split
    · dsimp only
      split
      · exact (putContention s c _).trans (count _ c _ _)
      · exact ((putContention s c _).trans (count _ c _ _)).trans (count _ c _ _)
    · exact count s c _ _

theorem openTally (s : State) (c : ChanNo) (q : PlanSeq) (n k : Nat) : s.LawKept (s.openTally c q n k) := by
  unfold State.openTally
  dsimp only
  split
  · exact offerTally s c _
  · exact putContention s c _

theorem reportTally (s : State) (c : ChanNo) (q : PlanSeq) (e su co : Nat) : s.LawKept (s.reportTally c q e su co) := by
  unfold State.reportTally
  dsimp only
  refine (((count s c .openingsEmpty e).trans (count _ c .openingsSuccess su)).trans (count _ c .openingsCollided co)).trans ?_
  split
  · exact refl _
  · split
    · exact (putContention _ c _).trans (offerTally _ c _)
    · exact putContention _ c _

theorem adapt (s : State) (c : ChanNo) : s.LawKept (s.adapt c) := by
  unfold State.adapt
  split
  · exact refl s
  · split
    · exact refl s
    · exact (putContention s c _).trans (count _ c _ _)

/-! ## The build queue (R61 to R63) -/

theorem putBuildHalf (s : State) (c : ChanNo) (x : PlanRecord) : s.LawKept (s.putBuildHalf c x) := putPlanStore s c _

theorem queueBuild (s : State) (x : BuildRequest) : s.LawKept (s.queueBuild x) :=
  (putBuildQueue s _).trans (putBuildCondition _ _ _)

theorem applyProfile (s : State) (c : ChanNo) : s.LawKept (s.applyProfile c) := by
  unfold State.applyProfile
  split
  · exact refl s
  · exact putContext s c _

theorem beginBuild (s : State) (c : ChanNo) : s.LawKept (s.beginBuild c) := by
  unfold State.beginBuild
  dsimp only
  refine ((applyProfile s c).trans (adapt _ c)).trans ?_
  split
  · exact ((putBuildHalf _ c _).trans (putBuildCondition _ c _)).trans (putEngine _ _)
  · exact (putBuildHalf _ c _).trans (putBuildCondition _ c _)

theorem takeRequest (s : State) : s.LawKept s.takeRequest := by
  unfold State.takeRequest
  split
  · exact (putBuildQueue s _).trans (beginBuild _ _)
  · exact refl s

theorem takeRequests : ∀ (k : Nat) (s : State), s.LawKept (takeRequests k s)
  | 0, s => refl s
  | k + 1, s => by
    unfold State.takeRequests
    split
    · exact (takeRequest s).trans (takeRequests k _)
    · exact refl s

/-! ## The emit time (R80 to R82, R114, R124) -/

theorem runBeats (s : State) (c : ChanNo) : s.LawKept (s.runBeats c) := by
  obtain ⟨-, e⟩ | ⟨n, -, -, e⟩ := runBeats_cases s c <;> rw [e]
  · exact refl s
  · exact putContext s c _

theorem testStop (s : State) (c : ChanNo) : s.LawKept (s.testStop c) := by
  obtain ⟨-, e⟩ | ⟨-, e⟩ := testStop_cases s c <;> rw [e]
  · exact refl s
  · exact (putContext s c _).trans (raise _ _)

/-- A station taken from the head of the queue may be asked onto it again: an alignment result reaches it still (R112, R114). -/
theorem takenAgain {s : State} {c : ChanNo} {n : StationNo} {q : List StationNo} (head : s.pollQueue c = n :: q) :
    s.LawKept ((s.takePolled c n q).pollEnqueue n) := by
  have taken : s.LawKept (s.takePolled c n q) := takePolled head
  refine of_law (taken.toPartKept.trans (PartKept.pollEnqueue _ n)) fun law => taken.trans (pollEnqueue fun _ => ?_)
  obtain ⟨asked, -⟩ := (law.polls.mem c n).1 (head ▸ List.mem_cons_self)
  exact Reaches.own ((law.polls.reaches asked).congr (by rw [takePolled_station, if_pos rfl])
    (by rw [takePolled_station, if_pos rfl]))

/-- The station in hand at a cut is taken and asked onto the queue again (R114). -/
theorem requeueTaken (s : State) (b : BuildContext) : s.LawKept (s.requeueTaken b) := by
  obtain ⟨-, e⟩ | ⟨n, next, ⟨-, e⟩ | ⟨-, e⟩⟩ := requeueTaken_cases s b <;> rw [e]
  · exact refl s
  · exact drawn s
  · have head : s.pollQueue b.channel = n :: (s.pollQueue b.channel).tail := by
      unfold nextTaken at next
      split at next
      · split at next
        · cases next
        · exact List.eq_cons_of_mem_head? next
      · cases next
    exact (drawn s).trans (takenAgain (s := s.drawn) head)

theorem cutBuild (s : State) (b : BuildContext) : s.LawKept (s.cutBuild b) := by
  unfold State.cutBuild
  dsimp only
  refine LawKept.trans ?_ (takeRequests 8 _)
  exact (((((requeueTaken s b).trans (putBuildHalf _ _ _)).trans (count _ _ _ _)).trans (raise _ _)).trans
    (putBuildCondition _ _ _)).trans (putEngine _ _)

theorem fallBack (s : State) (c : ChanNo) : s.LawKept (s.fallBack c) := by
  unfold State.fallBack
  dsimp only
  split
  · exact ((((putBuildQueue s _).trans (putBuildHalf _ c _)).trans (count _ c _ _)).trans (count _ c _ _)).trans (raise _ _)
  · exact putBuildQueue s _

theorem builderAct (s : State) (c : ChanNo) : s.LawKept (s.builderAct c) := by
  unfold State.builderAct
  split
  · exact refl s
  · exact refl s
  · exact fallBack s c
  · split
    · exact cutBuild s _
    · exact refl s

theorem judgeHalf (s : State) (c : ChanNo) (began : Bool) : s.LawKept (s.judgeHalf c began) := by
  unfold State.judgeHalf
  split
  · exact refl s
  · split
    · exact putBuildHalf s c _
    · exact (putBuildHalf s c _).trans (count _ c _ _)

theorem swap (s : State) (c : ChanNo) : s.LawKept (s.swap c) := by
  unfold State.swap
  dsimp only
  have swapped := ((putPlanStore s c (s.swappedStore c)).trans (putContext _ c
    (advanceTimeline (s.params c) (s.context c)))).trans (putBuildCondition _ c .none)
  split
  · exact swapped
  · exact swapped.trans (queueBuild _ _)

theorem emitTimeStep (s : State) (c : ChanNo) : s.LawKept (s.emitTimeStep c) := by
  have event : s.LawKept (s.emitEvent c) := ((builderAct s c).trans (judgeHalf _ c _)).trans (swap _ c)
  unfold State.emitTimeStep
  split
  · split
    · exact event
    · exact event.trans (runBeats _ c)
  · exact refl s

/-! ## Departures (R126 to R129) -/

theorem vacateEmitHalf (s : State) (c : ChanNo) : s.LawKept (s.vacateEmitHalf c) := putPlanStore s c _

theorem departPlan (s : State) (c : ChanNo) : s.LawKept (s.departPlan c) := by
  unfold State.departPlan
  dsimp only
  refine LawKept.trans ?_ (testStop _ c)
  exact ((((putExpectQueue s c _).trans (openTally _ c _ _ _)).trans (vacateEmitHalf _ c)).trans (count _ c _ _)).trans
    (putPlanLink _ _)

theorem planDepartureStep (s : State) : s.LawKept s.planDepartureStep := by
  unfold State.planDepartureStep
  split
  · split
    · exact (departPlan s _).trans (foldl runBeats _ _)
    · exact refl s
  · exact refl s

theorem adjustDepartureStep (s : State) : s.LawKept s.adjustDepartureStep := by
  unfold State.adjustDepartureStep
  split
  · refine ((putAdjustQueue s fun short => ?_).trans (countDevice _ _ _)).trans (putPlanLink _ _)
    rw [List.length_tail]
    omega
  · exact refl s

theorem planLinkEnd (s : State) : s.LawKept s.planLinkEnd := by
  unfold State.planLinkEnd
  split
  · exact putPlanLink s _
  · exact refl s

/-! ## Withdrawal (R130, R131) -/

theorem restoreCharge (s : State) (c : ChanNo) (f : FlowNo) (k : Nat) : s.LawKept (s.restoreCharge c f k) := by
  refine (count s c .chargesRestored 1).trans (putFlow_enlist (x := (s.flow f).restored k) (fun h => ?_) ?_)
  · refine ⟨Nat.min_le_left _ _, fun j credit => ?_, h.2.2⟩
    simp only [Flow.restored, Option.map_eq_some_iff] at credit
    obtain ⟨i, -, rfl⟩ := credit
    exact Nat.min_le_left _ _
  · refine ⟨rfl, rfl, rfl, rfl, .rfl, id, fun some => ?_⟩
    exact Nat.lt_min.2 ⟨(by decide : 0 < 1048575), Nat.add_pos_left some k⟩

theorem restoreElement (c : ChanNo) (r : Restoration) (e : Element) : r.state.LawKept (restoreElement c r e).state := by
  unfold State.restoreElement
  split
  · split
    · exact restoreCharge r.state c _ _
    · exact count r.state c _ _
  · exact refl _

theorem restoreElements (c : ChanNo) : ∀ (q : List Element) (r : Restoration),
    r.state.LawKept (q.foldl (State.restoreElement c) r).state
  | [], r => refl r.state
  | e :: q, r => (restoreElement c r e).trans (restoreElements c q _)

theorem restoreCharges (s : State) (c : ChanNo) (q : List Element) : s.LawKept (s.restoreCharges c q).state :=
  restoreElements c q ⟨s, 0, 0⟩

theorem withdrawPlan (s : State) (c : ChanNo) : s.LawKept (s.withdrawPlan c) := by
  unfold State.withdrawPlan
  dsimp only
  exact (((restoreCharges s c _).trans (vacateEmitHalf _ c)).trans (count _ c _ _)).trans (raise _ _)

theorem withdrawalStep (s : State) (c : ChanNo) : s.LawKept (s.withdrawalStep c) := by
  unfold State.withdrawalStep
  split
  · exact ((withdrawPlan s c).trans (testStop _ c)).trans (runBeats _ c)
  · exact refl s

/-! ## DIRECTED mode (R132 to R135) -/

theorem onDirectedHalf {s : State} {op : ChanNo → Answer} (each : ∀ c, s.LawKept (op c).state) (i : Nat) :
    s.LawKept (s.onDirectedHalf i op).state :=
  onDirectedHalf_has (fun a => s.LawKept a.state) (fun _ => refl s) each i

theorem planWriteOp (s : State) (i : Nat) (es : List RawElement) : s.LawKept (s.planWriteOp i es).state := by
  refine onDirectedHalf (fun c => ?_) i
  split_ifs
  · exact refl s
  · exact refl s
  · split
    · exact refl s
    · unfold State.appendElements
      split_ifs
      · exact refl s
      · exact putBuildHalf s c _

theorem planReadyOp (s : State) (i : Nat) : s.LawKept (s.planReadyOp i).state := by
  refine onDirectedHalf (fun c => ?_) i
  split_ifs
  · exact refl s
  · split
    · exact refl s
    · exact putBuildHalf s c _

theorem planDiscardOp (s : State) (i : Nat) : s.LawKept (s.planDiscardOp i).state :=
  onDirectedHalf (fun c => putBuildHalf s c _) i

/-! ## Channel Control (R8, R12 to R15) -/

theorem takeReference (s : State) (r : RefCount) : s.LawKept (s.takeReference r) := by
  unfold State.takeReference
  split_ifs
  · exact putReference s r true
  · exact refl s
  · refine (putReference s r s.referenceSeen).trans (foldl (fun t c => ?_) _ _)
    unfold State.advanceChannel
    split
    · exact (putContext t c _).trans (runBeats _ c)
    · exact refl t
  · exact countDevice s _ _

theorem abandonBuild (s : State) (c : ChanNo) : s.LawKept (s.abandonBuild c) := by
  unfold State.abandonBuild
  dsimp only
  have unqueued : s.LawKept ((s.unqueueBuild c).putBuildCondition c .none) :=
    (putBuildQueue s _).trans (putBuildCondition _ c _)
  split
  · split
    · exact (unqueued.trans (putEngine _ _)).trans (takeRequests 8 _)
    · exact unqueued
  · exact unqueued

theorem abruptStop (s : State) (c : ChanNo) : s.LawKept (s.abruptStop c) := by
  unfold State.abruptStop
  dsimp only
  have discarded : s.LawKept ((s.abandonBuild c).discardBuildHalf c) :=
    (abandonBuild s c).trans ((restoreCharges _ c _).trans (putBuildHalf _ c _))
  refine discarded.trans ?_
  generalize (s.abandonBuild c).discardBuildHalf c = t
  refine LawKept.trans (t := if t.awaits c then t.withdrawPlan c else t) ?_ ?_
  · split
    · exact withdrawPlan t c
    · exact refl t
  · exact (((putExpectQueue _ c _).trans (putContention _ c _)).trans (putContext _ c _)).trans (raise _ _)

theorem channelStopOp (s : State) (i mode : Nat) : s.LawKept (s.channelStopOp i mode).state := by
  unfold State.channelStopOp
  split
  · exact refl s
  · next c _ =>
    split_ifs
    · exact refl s
    · exact refl s
    · show s.LawKept (s.orderlyStop c)
      unfold State.orderlyStop
      split
      · exact putContext s c _
      · exact refl s
    · exact abruptStop s c

theorem profileCommitOp (s : State) (i : Nat) : s.LawKept (s.profileCommitOp i).state := by
  unfold State.profileCommitOp
  split
  · exact refl s
  · split_ifs
    · exact refl s
    · exact putContext s _ _

/-! ## Strays and units (R147, R150, R152) -/

theorem recordStray (s : State) (r : BurstRecord) (n : Option StationNo) (x : StrayCause) :
    s.LawKept (s.recordStray r n x) := by
  refine LawKept.trans ?_ (raise _ _)
  obtain ⟨room, e⟩ | ⟨-, e⟩ := pushStray_cases s _ <;> rw [e]
  · refine putStrayRing s (fun _ => ?_) id
    rw [List.length_append, List.length_singleton]
    exact room
  · refine putStrayRing s (fun short => ?_) (fun _ => Nat.min_le_left _ _)
    rw [List.length_append, List.length_singleton, List.length_tail]
    omega

theorem acceptRequest (s : State) (c : ChanNo) (start : Beat) (f : FlowNo) (k : Nat) :
    s.LawKept (s.acceptRequest c start f k) := by
  unfold State.acceptRequest
  dsimp only
  have grows : (s.flow f).Grows
      { s.flow f with backlog := min Config.maxBacklog ((s.flow f).backlog + k), fresh := true } :=
    ⟨rfl, rfl, rfl, rfl, .rfl, id, fun some => Nat.lt_min.2 ⟨(by decide : 0 < 1048575), Nat.add_pos_left some k⟩⟩
  have bounded (h : (s.flow f).Bounded) :
      ({ s.flow f with backlog := min Config.maxBacklog ((s.flow f).backlog + k), fresh := true } : Flow).Bounded :=
    ⟨Nat.min_le_left _ _, h.2⟩
  refine (putRequestMark s c (some start)).trans ?_
  split
  · exact (count _ c .requestClamp 1).trans (putFlow_enlist bounded grows)
  · exact putFlow_enlist bounded grows

theorem requestHandoff (s : State) (c : ChanNo) (start : Beat) (f : FlowNo) (k : Nat) (x : Option NamedStation) :
    s.LawKept (s.requestHandoff c start f k x) := by
  obtain ⟨-, e⟩ | ⟨-, -, e⟩ | ⟨-, -, -, e⟩ | ⟨-, -, -, e⟩ := requestHandoff_cases s c start f k x <;> rw [e]
  · exact refl s
  · exact count s c _ _
  · exact count s c _ _
  · exact acceptRequest s c start f k

theorem forward (s : State) (u : ForwardUnit) : s.LawKept (s.forward u) := by
  obtain ⟨room, e⟩ | ⟨-, e⟩ := forward_cases s u <;> rw [e]
  · refine putForwardBuffer s fun _ => ?_
    rw [List.length_append, List.length_singleton]
    exact room
  · exact (countDevice s _ _).trans (raise _ _)

theorem behindHandoff (s : State) (c : ChanNo) (g : Grant) : s.LawKept (s.behindHandoff c g) := by
  unfold State.behindHandoff
  split
  · split
    · exact putFlow (fun h => ⟨h.1, h.2.1, h.2.2.1, Nat.min_le_left _ _⟩) fun _ => ⟨rfl, rfl, rfl, rfl, .rfl, fun _ => rfl⟩
    · exact count s c _ _
  all_goals exact count s c _ _

theorem dispatchUnit (s : State) (r : BurstRecord) (g : Grant) (u : BurstUnit) : s.LawKept (s.dispatchUnit r g u) := by
  cases u with
  | data q =>
    show s.LawKept (s.takeDataUnit r g q)
    unfold takeDataUnit
    split
    · exact forward s _
    · exact count s _ _ _
  | request f k x =>
    show s.LawKept (s.takeRequestUnit r g f k x)
    cases g with
    | join => exact count s _ _ _
    | data | periodic | poll | request => exact requestHandoff s _ _ f k _
  | join h =>
    show s.LawKept (s.takeJoinUnit r g)
    cases g <;> exact count s _ _ _
  | behind => exact behindHandoff s r.channel g

theorem dispatchUnits (s : State) (r : BurstRecord) (g : Grant) : s.LawKept (s.dispatchUnits r g) :=
  foldl (fun t u => dispatchUnit t r g u) _ s

/-! ## Records and expiries (R141 to R146, R148) -/

theorem settleTurn (s : State) (r : BurstRecord) (n : StationNo) : s.LawKept (s.settleTurn r n) := by
  unfold State.settleTurn
  split
  iterate 2
    refine (count s r.channel .turnsAnswered 1).trans ?_
    split
    · exact maintenance _ n _ _ _
    · exact refl _
  all_goals exact count s _ _ _

theorem settlePoll (s : State) (r : BurstRecord) (n : StationNo) : s.LawKept (s.settlePoll r n) := by
  unfold State.settlePoll
  split
  iterate 2
    split
    · exact pollMeasurement s n _ _ _
    · exact refl s
  all_goals exact miss s n _

theorem settleJoin (s : State) (r : BurstRecord) : s.LawKept (s.settleJoin r) := by
  unfold State.settleJoin
  split
  iterate 2
    split
    · exact (joinHandoff s _ _ _ _).trans (count _ _ _ _)
    · exact count s _ _ _
  all_goals exact count s _ _ _

theorem settleEntry (s : State) (r : BurstRecord) (g : Grant) : s.LawKept (s.settleEntry r g) := by
  cases g with
  | data n f | periodic n f => exact settleTurn s r n
  | poll n => exact settlePoll s r n
  | join => exact settleJoin s r
  | request k m q => exact refl s

theorem absent (s : State) (c : ChanNo) (g : Grant) : s.LawKept (s.absent c g) := by
  cases g with
  | data n f | periodic n f => exact count s c _ _
  | poll n => exact miss s n c
  | join => exact refl s
  | request k m q => exact refl s

theorem removeEntry (s : State) (c : ChanNo) (e : ExpectEntry) : s.LawKept (s.removeEntry c e) := putExpectQueue s c _

theorem markOpening (s : State) (r : BurstRecord) (e : ExpectEntry) (i : Nat) : s.LawKept (s.markOpening r e i) := by
  unfold State.markOpening
  split
  · dsimp only
    split
    · exact putExpectQueue s _ _
    · exact (removeEntry s _ e).trans (reportTally _ _ _ _ _ _)
  all_goals exact refl s

theorem takeRecord (s : State) (r : BurstRecord) : s.LawKept (s.takeRecord r) := by
  unfold State.takeRecord
  split
  · exact (count s _ _ _).trans (recordStray _ r _ _)
  · refine LawKept.trans ?_ (testStop _ _)
    unfold openingRecord
    dsimp only
    split
    · exact (markOpening s r _ _).trans (dispatchUnits _ r _)
    · exact markOpening s r _ _
  · refine LawKept.trans ?_ (testStop _ _)
    split
    · exact (((removeEntry s _ _).trans (count _ _ _ _)).trans (absent _ _ _)).trans (recordStray _ r _ _)
    · unfold matchedRecord
      dsimp only
      split
      · exact ((removeEntry s _ _).trans (settleEntry _ r _)).trans (dispatchUnits _ r _)
      · exact (removeEntry s _ _).trans (settleEntry _ r _)

theorem takeBurstFrame (s : State) (f : RawFrame) : s.LawKept (s.takeBurstFrame f) := by
  unfold State.takeBurstFrame
  split
  · exact takeRecord s _
  · exact refl s

theorem closeExpired (s : State) (c : ChanNo) (g : Grant) : s.LawKept (s.closeExpired c g) := by
  cases g with
  | data n f => exact absent s c (.data n f)
  | periodic n f => exact absent s c (.periodic n f)
  | poll n => exact absent s c (.poll n)
  | join => exact count s c .joinEmpty 1
  | request k m q => exact reportTally s c q _ _ _

theorem expiryStep (s : State) (c : ChanNo) : s.LawKept (s.expiryStep c) := by
  unfold State.expiryStep
  split
  · exact (((removeEntry s c _).trans (closeExpired _ c _)).trans (testStop _ c)).trans (runBeats _ c)
  · exact refl s

/-! ## The outbound System Link (R153) -/

theorem noticeDepartureStep (s : State) : s.LawKept s.noticeDepartureStep := by
  unfold State.noticeDepartureStep
  split
  · exact ((dropNotice s _).trans (countDevice _ _ _)).trans (putSystemLink _ _)
  · exact refl s

theorem forwardDepartureStep (s : State) : s.LawKept s.forwardDepartureStep := by
  unfold State.forwardDepartureStep
  split
  · refine ((putForwardBuffer s fun short => ?_).trans (countDevice _ _ _)).trans (putSystemLink _ _)
    rw [List.length_tail]
    omega
  · exact refl s

theorem systemLinkEnd (s : State) : s.LawKept s.systemLinkEnd := by
  unfold State.systemLinkEnd
  split
  · exact putSystemLink s _
  · exact refl s

end LawKept

end State

end Sys2Proof.Machine
end

section
/-! SUPPORT. The laws of the records where nominals and parts of a calendar change, and where a flow is visited (R59, R72, R85,
R88 to R90). -/

namespace Sys2Proof.Machine

/-- The flow `y` is `x` with other values in the fields that a visit writes. -/
structure Flow.Visited (x y : Flow) : Prop where
  state : y.state = x.state
  station : y.station = x.station
  listLevel : y.listLevel = x.listLevel
  nominal : y.nextNominal = x.nextNominal
  kind : y.kind = x.kind

namespace State

/-! ## Changes of nominals and of the parts of a calendar -/

/-- The laws where nominals and calendars alone change, once the calendars are lawful. -/
theorem recordsLawful_renominal {s t : State} (law : s.RecordsLawful)
    (frame : t = { s with flows := t.flows, calendars := t.calendars, channelCounters := t.channelCounters })
    (flows : ∀ f, ∃ b, t.flow f = { s.flow f with nextNominal := b }) (calendars : t.CalendarsLawful) : t.RecordsLawful := by
  obtain ⟨numbers, flowLists, polls, lists, -⟩ := law
  have station (n : StationNo) : t.station n = s.station n := by rw [frame]; rfl
  have same (f : FlowNo) : t.Enlistable f ↔ s.Enlistable f := by
    obtain ⟨b, e⟩ := flows f
    simp only [Enlistable, e, station]
  refine ⟨frame ▸ numbers, flowListsLawful_congr (fun n => by rw [station]) (fun f => ?_) flowLists, frame ▸ polls, ?_,
    calendars⟩
  · obtain ⟨b, e⟩ := flows f
    rw [e]
    exact ⟨rfl, .rfl⟩
  · refine (listsLawful_iff t).2 (((listsLawful_iff s).1 lists).congr (fun c l => by rw [frame]; rfl)
      (fun _ n _ => by rw [station]) (fun f => ?_) (fun f _ => (same f).2)
      fun f _ meets => ⟨List.not_mem_nil, (same f).1 meets⟩)
    obtain ⟨b, e⟩ := flows f
    rw [e]
    exact ⟨rfl, rfl⟩

section Renominal

variable {s t : State}

theorem timeable_renominal (station : ∀ n, t.station n = s.station n)
    (flows : ∀ f, ∃ b, t.flow f = { s.flow f with nextNominal := b }) (c : ChanNo) (f : FlowNo) :
    t.Timeable c f ↔ s.Timeable c f := by
  obtain ⟨b, e⟩ := flows f
  simp only [Timeable, e, station]

/-- The parts of a calendar may change their order where no nominal comes or goes. -/
theorem CalendarsLawful.perm (h : s.CalendarsLawful) (station : ∀ n, t.station n = s.station n)
    (flows : ∀ f, ∃ b, t.flow f = { s.flow f with nextNominal := b })
    (nominals : ∀ f, (t.flow f).nextNominal.isSome = (s.flow f).nextNominal.isSome)
    (parts : ∀ d, (t.calendar d).waiting.Perm (s.calendar d).waiting ∧ (t.calendar d).timed.Perm (s.calendar d).timed) :
    t.CalendarsLawful := by
  obtain ⟨once, stands, timed⟩ := h
  have whole (d : ChanNo) := (parts d).1.append (parts d).2
  refine ⟨fun d => (whole d).nodup_iff.2 (once d), fun d f among => ?_, fun f => ?_⟩
  · exact (timeable_renominal station flows d f).2 (stands d f ((whole d).mem_iff.1 among))
  · rw [nominals, timed]
    exact exists_congr fun d => (parts d).2.mem_iff.symm

end Renominal

/-! ## The timing of a calendar (R88, R89) -/

/-- A flow that is brought forward keeps all but NEXT NOMINAL, and has one if it had one (R89). -/
theorem bringForwards_flow (c : ChanNo) (start : Beat) (f : FlowNo) : ∀ (q : List FlowNo) (s : State),
    ∃ b, (q.foldl (fun u g => u.bringForward c start g) s).flow f = { s.flow f with nextNominal := b } ∧
      b.isSome = (s.flow f).nextNominal.isSome
  | [], s => ⟨(s.flow f).nextNominal, rfl, rfl⟩
  | g :: q, s => by
    obtain ⟨b, e, some⟩ := bringForwards_flow c start f q (s.bringForward c start g)
    have one : ∃ d, (s.bringForward c start g).flow f = { s.flow f with nextNominal := d } ∧
        d.isSome = (s.flow f).nextNominal.isSome := by
      show ∃ d, (s.putFlow g _).flow f = _ ∧ _
      rw [flow_putFlow]
      split
      · next same =>
        rw [same]
        exact ⟨_, rfl, Option.isSome_map⟩
      · exact ⟨_, rfl, rfl⟩
    obtain ⟨d, e', some'⟩ := one
    rw [e'] at e some
    exact ⟨b, e, some.trans some'⟩

theorem bringForwards_frame (c : ChanNo) (start : Beat) : ∀ (q : List FlowNo) (s : State),
    q.foldl (fun u g => u.bringForward c start g) s =
      { s with
        flows := (q.foldl (fun u g => u.bringForward c start g) s).flows
        channelCounters := (q.foldl (fun u g => u.bringForward c start g) s).channelCounters }
  | [], _ => rfl
  | g :: q, s => by
    rw [List.foldl_cons, bringForwards_frame c start q (s.bringForward c start g)]
    rfl

/-- The flows of a calendar before they stand in the TIMED part (R88, R89). -/
def nominated (s : State) (c : ChanNo) (start : Beat) : State :=
  ((s.calendar c).timed ++ (s.calendar c).waiting).foldl (fun u f => u.bringForward c start f)
    (s.mapFlows (s.calendar c).waiting (timedFlow start))

theorem timeCalendar_nominated (s : State) (c : ChanNo) (start : Beat) :
    s.timeCalendar c start =
      (s.nominated c start).putCalendar c
        { waiting := [], timed := (s.nominated c start).sortTimed ((s.calendar c).timed ++ (s.calendar c).waiting) } := rfl

theorem nominated_frame (s : State) (c : ChanNo) (start : Beat) :
    s.nominated c start =
      { s with
        flows := (s.nominated c start).flows, channelCounters := (s.nominated c start).channelCounters } := by
  have forwards := bringForwards_frame c start ((s.calendar c).timed ++ (s.calendar c).waiting)
    (s.mapFlows (s.calendar c).waiting (timedFlow start))
  rw [nominated, forwards, mapFlows_frame]

theorem nominated_flow (s : State) (c : ChanNo) (start : Beat) (f : FlowNo) :
    ∃ b, (s.nominated c start).flow f = { s.flow f with nextNominal := b } ∧
      (b.isSome = true ↔ f ∈ (s.calendar c).waiting ∨ (s.flow f).nextNominal.isSome = true) := by
  obtain ⟨b, e, some⟩ := bringForwards_flow c start f ((s.calendar c).timed ++ (s.calendar c).waiting)
    (s.mapFlows (s.calendar c).waiting (timedFlow start))
  rw [mapFlows_flow (timedFlow_twice start)] at e some
  by_cases waits : f ∈ (s.calendar c).waiting
  · rw [if_pos waits] at e some
    exact ⟨b, e, by simp [some, timedFlow, waits]⟩
  · rw [if_neg waits] at e some
    exact ⟨b, e, by simp [some, waits]⟩

theorem PartKept.timeCalendar (s : State) (c : ChanNo) (start : Beat) : s.PartKept (s.timeCalendar c start) := by
  have waits : s.PartKept (s.mapFlows (s.calendar c).waiting (timedFlow start)) := mapFlows s _ fun _ h => h
  have forward (u : State) (f : FlowNo) : u.PartKept (u.bringForward c start f) := by
    refine trans ?_ (LawKept.count _ c _ _).toPartKept
    exact putFlow u f fun h => h
  have timed : s.PartKept (s.nominated c start) := waits.trans (foldl forward _ _)
  rw [timeCalendar_nominated]
  refine timed.trans (putCalendar _ c fun short => ?_)
  have same : (s.nominated c start).calendar c = s.calendar c := by rw [nominated_frame]; rfl
  have length := (sortTimed_perm (s.nominated c start) ((s.calendar c).timed ++ (s.calendar c).waiting)).length_eq
  rw [same] at short
  rw [Calendar.size, length, List.length_append, List.length_nil, Nat.zero_add, Nat.add_comm]
  exact short

/-- The WAITING flows of a calendar are timed, and its TIMED flows are brought forward (R88, R89). -/
theorem LawKept.timeCalendar (s : State) (c : ChanNo) (start : Beat) : s.LawKept (s.timeCalendar c start) := by
  refine ⟨PartKept.timeCalendar s c start, fun _ law => ?_⟩
  have frame := nominated_frame s c start
  have flow := nominated_flow s c start
  rw [timeCalendar_nominated]
  generalize s.nominated c start = u at *
  have sorted := sortTimed_perm u ((s.calendar c).timed ++ (s.calendar c).waiting)
  generalize u.sortTimed ((s.calendar c).timed ++ (s.calendar c).waiting) = q at *
  have station (n : StationNo) : u.station n = s.station n := by rw [frame]; rfl
  have here := calendar_putCalendar_same u c { waiting := [], timed := q }
  have elsewhere {d : ChanNo} (other : d ≠ c) :
      (u.putCalendar c { waiting := [], timed := q }).calendar d = s.calendar d :=
    (calendar_putCalendar_ne u other _).trans (by rw [frame]; rfl)
  have renominal (f : FlowNo) : ∃ b, (u.putCalendar c { waiting := [], timed := q }).flow f =
      { s.flow f with nextNominal := b } := by
    obtain ⟨b, e, -⟩ := flow f
    exact ⟨b, e⟩
  refine recordsLawful_renominal law ?_ renominal ?_
  · rw [frame]
    rfl
  obtain ⟨-, -, -, -, ⟨once, stands, timed⟩⟩ := law
  have perm : q.Perm ((s.calendar c).waiting ++ (s.calendar c).timed) := sorted.trans List.perm_append_comm
  refine ⟨fun d => ?_, fun d f among => ?_, fun f => ?_⟩
  · by_cases own : d = c
    · rw [own, here]
      exact perm.nodup_iff.2 (once c)
    · rw [elsewhere own]
      exact once d
  · refine (timeable_renominal station renominal d f).2 (stands d f ?_)
    by_cases own : d = c
    · rw [own, here] at among
      rw [own]
      exact perm.mem_iff.1 among
    · rw [elsewhere own] at among
      exact among
  · obtain ⟨b, e, some⟩ := flow f
    show ((u.flow f).nextNominal.isSome = true) ↔ _
    rw [e, some, timed]
    constructor
    · rintro (waits | ⟨d, among⟩)
      · exact ⟨c, by rw [here]; exact perm.mem_iff.2 (List.mem_append_left _ waits)⟩
      · by_cases own : d = c
        · exact ⟨c, by rw [here]; exact perm.mem_iff.2 (List.mem_append_right _ (own ▸ among))⟩
        · exact ⟨d, by rw [elsewhere own]; exact among⟩
    · rintro ⟨d, among⟩
      by_cases own : d = c
      · rw [own, here] at among
        exact (List.mem_append.1 (perm.mem_iff.1 among)).imp_right fun among => ⟨c, among⟩
      · rw [elsewhere own] at among
        exact .inr ⟨d, among⟩

/-! ## The walk over a calendar (R90) -/

/-- The flow at the head of the TIMED part takes its next place in it (R90). -/
theorem LawKept.advanceHead {s : State} {c : ChanNo} {f : FlowNo} (among : f ∈ (s.calendar c).timed) :
    s.LawKept (s.advanceHead c f) := by
  obtain ⟨x, hx⟩ : ∃ x, x = { s.calendar c with
    timed := insertBy (s.putFlow f (advancedNominal (s.flow f) 1)).timedAhead f ((s.calendar c).timed.erase f) } := ⟨_, rfl⟩
  have advanced : s.advanceHead c f = (s.putFlow f (advancedNominal (s.flow f) 1)).putCalendar c x := hx ▸ rfl
  have timed : x.timed.Perm (s.calendar c).timed := by
    rw [hx]
    exact (insertBy_perm _ f _).trans (List.perm_cons_erase among).symm
  have waiting : x.waiting = (s.calendar c).waiting := by rw [hx]
  rw [advanced]
  clear hx advanced
  have flows (g : FlowNo) : ∃ b, (s.putFlow f (advancedNominal (s.flow f) 1)).flow g = { s.flow g with nextNominal := b } ∧
      b.isSome = (s.flow g).nextNominal.isSome := by
    rw [flow_putFlow]
    split
    · next same =>
      rw [same]
      exact ⟨_, rfl, Option.isSome_map⟩
    · exact ⟨_, rfl, rfl⟩
  have renominal (g : FlowNo) : ∃ b, (s.putFlow f (advancedNominal (s.flow f) 1)).flow g = { s.flow g with nextNominal := b } :=
    (flows g).imp fun _ h => h.1
  have part : s.PartKept (s.putFlow f (advancedNominal (s.flow f) 1)) := PartKept.putFlow s f id
  refine ⟨part.trans (PartKept.putCalendar _ c fun short => ?_), fun _ law =>
    recordsLawful_renominal law rfl renominal (law.calendars.perm (fun _ => rfl) renominal (fun g => ?_) fun d => ?_)⟩
  · rw [Calendar.size, waiting, timed.length_eq]
    exact short
  · obtain ⟨b, e, some⟩ := flows g
    show ((s.putFlow f (advancedNominal (s.flow f) 1)).flow g).nextNominal.isSome = _
    rw [e]
    exact some
  · by_cases own : d = c
    · rw [own, calendar_putCalendar_same, waiting]
      exact ⟨.refl _, timed⟩
    · rw [calendar_putCalendar_ne _ own]
      exact ⟨.refl _, .refl _⟩

/-! ## A channel that starts (R85) -/

theorem insertAll_perm (q : List FlowNo) : ∀ p : List FlowNo,
    (p.foldl (fun q f => insertBy (fun a b => decide (a < b)) f q) q).Perm (q ++ p) := by
  intro p
  induction p generalizing q with
  | nil => rw [List.append_nil]; exact .refl _
  | cons f p ih =>
    refine (ih _).trans (((insertBy_perm _ f q).append_right p).trans ?_)
    exact List.perm_middle.symm

/-- The TIMED flows of a channel wait again, without a nominal (R85). -/
theorem LawKept.retimeCalendar (s : State) (c : ChanNo) : s.LawKept (s.retimeCalendar c) := by
  obtain ⟨q, hq⟩ : ∃ q, q = (s.calendar c).timed.foldl (fun q f => insertBy (fun a b => decide (a < b)) f q)
    (s.calendar c).waiting := ⟨_, rfl⟩
  have perm : q.Perm ((s.calendar c).waiting ++ (s.calendar c).timed) := hq ▸ insertAll_perm _ _
  have retimed : s.retimeCalendar c =
      (s.mapFlows (s.calendar c).timed (fun f => { f with nextNominal := none })).putCalendar c
        { waiting := q, timed := [] } := hq ▸ rfl
  have frame := mapFlows_frame (fun f => { f with nextNominal := none }) (s.calendar c).timed s
  have flow (f : FlowNo) := mapFlows_flow (g := fun f => { f with nextNominal := none }) (fun _ => rfl) f
    (s.calendar c).timed s
  have part : s.PartKept (s.mapFlows (s.calendar c).timed (fun f => { f with nextNominal := none })) :=
    PartKept.mapFlows s _ fun _ => id
  rw [retimed]
  clear hq retimed
  generalize s.mapFlows (s.calendar c).timed (fun f => { f with nextNominal := none }) = u at *
  have calendar (d : ChanNo) : u.calendar d = s.calendar d := by rw [frame]; rfl
  have here := calendar_putCalendar_same u c { waiting := q, timed := [] }
  have elsewhere {d : ChanNo} (other : d ≠ c) : (u.putCalendar c { waiting := q, timed := [] }).calendar d = s.calendar d :=
    (calendar_putCalendar_ne u other _).trans (calendar d)
  have renominal (f : FlowNo) : ∃ b, (u.putCalendar c { waiting := q, timed := [] }).flow f =
      { s.flow f with nextNominal := b } := by
    show ∃ b, u.flow f = _
    rw [flow]
    split
    · exact ⟨none, rfl⟩
    · exact ⟨_, rfl⟩
  refine ⟨part.trans (PartKept.putCalendar u c fun short => ?_), fun _ law =>
    recordsLawful_renominal law (by rw [frame]; rfl) renominal ?_⟩
  · rw [calendar] at short
    have length := perm.length_eq
    rw [List.length_append] at length
    rw [Calendar.size, length]
    exact short
  obtain ⟨-, -, -, -, ⟨once, stands, timed⟩⟩ := law
  refine ⟨fun d => ?_, fun d f among => ?_, fun f => ?_⟩
  · by_cases own : d = c
    · rw [own, here, List.append_nil]
      exact perm.nodup_iff.2 (once c)
    · rw [elsewhere own]
      exact once d
  · refine (timeable_renominal (fun n => by rw [frame]; rfl) renominal d f).2 (stands d f ?_)
    by_cases own : d = c
    · rw [own, here, List.append_nil] at among
      rw [own]
      exact perm.mem_iff.1 among
    · rw [elsewhere own] at among
      exact among
  · have apart {d : ChanNo} (was : f ∈ (s.calendar c).timed) (is : f ∈ (s.calendar d).timed) : d = c := by
      obtain ⟨-, -, n, of, -, on⟩ := stands c f (List.mem_append_right _ was)
      obtain ⟨-, -, m, of', -, on'⟩ := stands d f (List.mem_append_right _ is)
      cases of.symm.trans of'
      exact on'.symm.trans on
    show ((u.flow f).nextNominal.isSome = true) ↔ _
    rw [flow]
    split
    · next was =>
      refine ⟨nofun, ?_⟩
      rintro ⟨d, among⟩
      by_cases own : d = c
      · rw [own, here] at among
        cases among
      · rw [elsewhere own] at among
        exact absurd (apart was among) own
    · next out =>
      rw [timed]
      constructor
      · rintro ⟨d, among⟩
        have own : d ≠ c := fun same => out (same ▸ among)
        exact ⟨d, by rw [elsewhere own]; exact among⟩
      · rintro ⟨d, among⟩
        by_cases own : d = c
        · rw [own, here] at among
          cases among
        · rw [elsewhere own] at among
          exact ⟨d, among⟩

/-! ## A visit (R59, R72) -/

section Visit

variable {s : State} {f : FlowNo} {x : Flow} {c : ChanNo} {l : Level}

theorem PartKept.endVisit (s : State) (c : ChanNo) (l : Level) (f : FlowNo) : s.PartKept (s.endVisit c l f) := by
  unfold State.endVisit
  split
  · exact delist s c f
  · exact putActive s c l _

/-- A visited flow with backlog goes to the tail of its level (R59). -/
theorem LawKept.moveToTail (among : s.RecordsLawful → f ∈ s.active c l) : s.LawKept (s.moveToTail c l f) := by
  refine ⟨PartKept.putActive s c l _, fun _ law => ?_⟩
  have stands := among law
  obtain ⟨numbers, flowLists, polls, ⟨meets, nodup, mem⟩, calendars⟩ := law
  have perm (d : ChanNo) (m : Level) : ((s.moveToTail c l f).active d m).Perm (s.active d m) := by
    unfold State.moveToTail
    by_cases here : d = c ∧ m = l
    · rw [here.1, here.2, active_putActive_same]
      exact (List.perm_append_singleton f _).trans (List.perm_cons_erase stands).symm
    · rw [active_putActive_ne s here]
  exact ⟨numbers, flowLists, polls,
    ⟨meets, fun d m => (perm d m).nodup_iff.2 (nodup d m), fun d m g => (perm d m).mem_iff.trans (mem d m g)⟩, calendars⟩

/-- A visited flow that is left without backlog has left its list (R58, R72). -/
theorem withdrawn_delist (law : s.RecordsLawful) (among : f ∈ s.active c l) (visited : (s.flow f).Visited x)
    (empty : x.backlog = 0) : s.Withdrawn ((s.putFlow f x).delist c f) (fun g => g = f) := by
  obtain ⟨-, -, -, ⟨meets, nodup, mem⟩, ⟨once, stands, timed⟩⟩ := law
  obtain ⟨level, n, of, on⟩ := (mem c l f).1 among
  have elastic := ((meets f).1 (by rw [level]; rfl)).2.1
  have out (d : ChanNo) : f ∉ (s.calendar d).waiting ++ (s.calendar d).timed := fun inside => by
    rw [(stands d f inside).2.1] at elastic
    cases elastic
  have record : (s.putFlow f x).flow f = x := flow_putFlow_same s f x
  have flow (g : FlowNo) := delist_flow (s.putFlow f x) c f g
  have active (d : ChanNo) (m : Level) : ((s.putFlow f x).delist c f).active d m = (s.active d m).erase f := by
    rw [delist_active, record, visited.listLevel, level]
    by_cases here : d = c ∧ m = l
    · rw [if_pos ⟨here.1, by rw [here.2]⟩, here.1, here.2]
      rfl
    · rw [if_neg fun h => here ⟨h.1, (Option.some.inj h.2).symm⟩]
      refine (List.erase_of_not_mem fun inside => here ?_).symm
      obtain ⟨level', m', of', on'⟩ := (mem d m f).1 inside
      cases of.symm.trans of'
      exact ⟨on'.symm.trans on, Option.some.inj (level'.symm.trans level)⟩
  have calendar (d : ChanNo) : ((s.putFlow f x).delist c f).calendar d = s.calendar d := by
    rw [State.calendar, delist_calendars]
    rfl
  have station (m : StationNo) : ((s.putFlow f x).delist c f).station m = s.station m := by
    have frame : (s.putFlow f x).ListFrame ((s.putFlow f x).delist c f) :=
      listFrame_delist (s := s.putFlow f x) (t := s.putFlow f x) rfl c f
    unfold ListFrame at frame
    rw [frame]
    rfl
  refine ⟨fun d m g => ?_, fun d m => ?_, fun d g inside => ?_, fun d g => ?_, fun d => ?_, fun g other => ?_,
    fun _ m _ _ => ?_, ?_⟩
  · rw [active, (nodup d m).mem_erase_iff]
    exact and_comm
  · rw [active]
    exact (nodup d m).erase f
  · rw [calendar] at inside
    exact ⟨inside, fun same => out d (same ▸ inside)⟩
  · rw [calendar]
    exact ⟨fun inside => ⟨inside, fun same => out d (same ▸ List.mem_append_right _ inside)⟩, And.left⟩
  · rw [calendar]
    exact once d
  · rw [flow, if_neg other]
    exact flow_putFlow_ne s other x
  · rw [station]
    exact ⟨rfl, rfl⟩
  · rintro g rfl
    rw [flow, if_pos rfl, record]
    refine ⟨rfl, ?_, fun meets' => ?_⟩
    · show x.nextNominal = none
      rw [visited.nominal]
      cases nominal : (s.flow g).nextNominal with
      | none => rfl
      | some b =>
        obtain ⟨d, inside⟩ := (timed g).1 (by rw [nominal]; rfl)
        exact absurd (List.mem_append_right _ inside) (out d)
    · obtain ⟨-, -, backlog, -⟩ := meets'
      rw [flow, if_pos rfl, record] at backlog
      exact absurd backlog (by rw [empty]; exact Nat.lt_irrefl 0)

/-- The end of a visit to a flow of a level (R59, R72). -/
theorem LawKept.visited (bounded : (s.flow f).Bounded → x.Bounded) (visited : (s.flow f).Visited x)
    (among : s.RecordsLawful → f ∈ s.active c l) : s.LawKept ((s.putFlow f x).endVisit c l f) := by
  refine of_law ((PartKept.putFlow s f bounded).trans (PartKept.endVisit _ c l f)) fun law => ?_
  have stands := among law
  have record : (s.putFlow f x).flow f = x := flow_putFlow_same s f x
  have part := (PartKept.putFlow s f bounded).trans (PartKept.endVisit _ c l f)
  unfold State.endVisit at part ⊢
  rw [record] at part ⊢
  split at part
  · next empty =>
    rw [if_pos empty]
    refine ⟨part, fun _ law => ?_⟩
    have withdrawn := withdrawn_delist law stands visited empty
    have flow (g : FlowNo) := delist_flow (s.putFlow f x) c f g
    have frame : (s.putFlow f x).ListFrame ((s.putFlow f x).delist c f) :=
      listFrame_delist (s := s.putFlow f x) (t := s.putFlow f x) rfl c f
    unfold ListFrame at frame
    have ⟨numbers, flowLists, polls, _⟩ := law
    refine ⟨?_, flowListsLawful_congr (s := s) (fun m => by rw [frame]; rfl) (fun g => ?_) flowLists, ?_,
      withdrawn.lists law, withdrawn.calendars law⟩
    · rw [frame]
      exact numbers
    rotate_left
    · rw [frame]
      exact polls
    rw [flow]
    split
    · next same =>
      subst same
      rw [record]
      exact ⟨visited.station, by show x.state = _ ↔ _; rw [visited.state]⟩
    · next other =>
      rw [flow_putFlow_ne s other]
      exact ⟨rfl, .rfl⟩
  · next more =>
    rw [if_neg more]
    have enlisted : 0 < (s.flow f).backlog := by
      obtain ⟨meets, -, mem⟩ := law.lists
      obtain ⟨level, -⟩ := (mem c l f).1 stands
      obtain ⟨-, -, backlog, -⟩ := (meets f).1 (by rw [level]; rfl)
      exact backlog
    have some : 0 < x.backlog := Nat.pos_of_ne_zero more
    refine (LawKept.putFlow bounded fun _ => ⟨visited.state, visited.station, visited.listLevel, by rw [visited.nominal],
      ⟨fun _ => enlisted, fun _ => some⟩, fun _ => visited.kind⟩).trans (moveToTail fun _ => stands)

end Visit

end State

end Sys2Proof.Machine
end

section
/-! SUPPORT. What the steps of the Plan Builder keep (chapters 4 to 7). -/

namespace Sys2Proof.Machine

/-! ## The flow of a visit (R54, R71, R72) -/

theorem Flow.bounded_bucketUpdate {x : Flow} (now : Beat) (h : x.Bounded) : (x.bucketUpdate now).Bounded := by
  unfold Flow.bucketUpdate
  split
  · exact h
  · exact h
  · refine ⟨h.1, fun k credit => ?_, h.2.2⟩
    cases credit
    exact Nat.min_le_left _ _

theorem Flow.visited_bucketUpdate (x : Flow) (now : Beat) : x.Visited (x.bucketUpdate now) := by
  unfold Flow.bucketUpdate
  split <;> exact ⟨rfl, rfl, rfl, rfl, rfl⟩

/-- A charge lowers BACKLOG and CREDIT (R19). -/
theorem Flow.bounded_charged {x : Flow} (n : Nat) (h : x.Bounded) : (x.charged n).Bounded := by
  obtain ⟨backlog, credit, rest⟩ := h
  refine ⟨(Nat.sub_le _ _).trans backlog, fun k charged => ?_, rest⟩
  obtain ⟨j, was, rfl⟩ := Option.map_eq_some_iff.1 charged
  exact (Nat.sub_le _ _).trans (credit j was)

namespace State

theorem bounded_visitedFlow {s : State} {f : FlowNo} (b : BuildContext) (h : (s.flow f).Bounded) :
    (s.visitedFlow b f).Bounded :=
  have ⟨backlog, credit, _, extras⟩ := Flow.bounded_bucketUpdate b.start h
  ⟨backlog, credit, Nat.min_le_left _ _, extras⟩

theorem visited_visitedFlow (s : State) (b : BuildContext) (f : FlowNo) : (s.flow f).Visited (s.visitedFlow b f) :=
  have ⟨state, station, level, nominal, kind⟩ := (s.flow f).visited_bucketUpdate b.start
  ⟨state, station, level, nominal, kind⟩

/-- A visit that places nothing stands to the laws as if there had been none. -/
theorem alike_visitedFlow (s : State) (b : BuildContext) (f : FlowNo) : (s.flow f).Alike (s.visitedFlow b f) :=
  have ⟨state, station, level, nominal, kind⟩ := visited_visitedFlow s b f
  have backlog : (s.visitedFlow b f).backlog = (s.flow f).backlog := (bucketUpdate_keeps (s.flow f) b.start).1
  ⟨state, station, level, by rw [nominal], by rw [backlog], fun _ => kind⟩

theorem bounded_servedFlow {s : State} {f : FlowNo} (b : BuildContext) (h : (s.flow f).Bounded) :
    (s.servedFlow b f).Bounded :=
  have ⟨backlog, credit, deficit, extras⟩ := Flow.bounded_charged
    (turnCharge (s.profile b.channel) (s.visitedFlow b f) (s.visitTurn b f)) (bounded_visitedFlow b h)
  ⟨backlog, credit, (Nat.sub_le _ _).trans deficit, extras⟩

theorem visited_servedFlow (s : State) (b : BuildContext) (f : FlowNo) : (s.flow f).Visited (s.servedFlow b f) :=
  have ⟨state, station, level, nominal, kind⟩ := visited_visitedFlow s b f
  ⟨state, station, level, nominal, kind⟩

namespace LawKept

variable (s : State) (b : BuildContext)

/-! ## Placement and the course of a build (R65, R66, R75) -/

theorem putBuild : s.LawKept (s.putBuild b) := putEngine s _

theorem completeBuild : s.LawKept (s.completeBuild b) :=
  ((putEngine s none).trans (putBuildCondition _ _ _)).trans (count _ _ _ _)

theorem advanceBuild : s.LawKept s.advanceBuild := by
  unfold State.advanceBuild
  split
  · exact refl s
  · split
    · exact completeBuild s _
    · exact putEngine s _

theorem place (e : Element) (spans : List Span) : s.LawKept (s.place b e spans) :=
  (putBuildHalf s _ _).trans (putEngine _ _)

theorem placeFirstFit {n : Nat} {body : ElementBody} {t : State} (placed : s.placeFirstFit b n body = some t) :
    s.LawKept t := by
  obtain refused | ⟨o, spans, -, -, here⟩ := placeFirstFit_cases s b n body
  · exact absurd (refused.symm.trans placed) nofun
  · cases here.symm.trans placed
    exact place s b _ _

/-- A step that finds the build advanced, and goes on from there. -/
theorem fromAdvanced {t : State} (h : s.advanceBuild.LawKept t) : s.LawKept t := (advanceBuild s).trans h

/-! ## Stage 1 (chapters 5 to 7) -/

theorem periodicTimingStep : s.LawKept s.periodicTimingStep := by
  unfold State.periodicTimingStep
  split
  · exact refl s
  · split
    · exact ((timeCalendar s _ _).trans (putBuild _ _)).trans (advanceBuild _)
    · exact refl s

theorem walkStep {f : FlowNo} (among : f ∈ (s.calendar b.channel).timed) : s.LawKept (s.walkStep b f) := by
  unfold State.walkStep
  obtain ⟨o, spans, -, -, -, -, -, here⟩ | ⟨-, here⟩ := searchWindow_cases s b (s.flow f).turnBeats
    (.periodic (s.stationOf f) f) (s.flow f).jitter ((s.nominalOffset b.start f).getD 0) <;> rw [here]
  · exact ((place s b _ _).trans (count _ _ .periodicPlaced 1)).trans (advanceHead among)
  · exact ((count s _ .periodicMiss 1).trans (raise _ _)).trans (advanceHead (by simpa using among))

theorem periodicWalkStep : s.LawKept s.periodicWalkStep := by
  refine fromAdvanced s ?_
  unfold State.periodicWalkStep
  generalize s.advanceBuild = s
  dsimp only
  split
  · exact refl s
  · next b _ =>
    split
    · split
      · next f head =>
        refine (walkStep s b ?_).trans (advanceBuild _)
        unfold walkHead at head
        grind
      · exact refl s
    · exact refl s

theorem extraTurnStep : s.LawKept s.extraTurnStep := by
  refine fromAdvanced s ?_
  unfold State.extraTurnStep
  generalize s.advanceBuild = s
  dsimp only
  split
  · exact refl s
  · split
    · refine LawKept.trans ?_ (advanceBuild _)
      split
      · next placed =>
        refine ((placeFirstFit s _ placed).trans (putFlow (fun h => ?_) fun _ => ?_)).trans (count _ _ _ _)
        · exact ⟨h.1, h.2.1, h.2.2.1, (Nat.sub_le _ _).trans h.2.2.2⟩
        · exact ⟨rfl, rfl, rfl, rfl, .rfl, fun _ => rfl⟩
      · exact (putBuild s _).trans (count _ _ _ _)
    · exact refl s

theorem joinOpeningStep : s.LawKept s.joinOpeningStep := by
  refine fromAdvanced s ?_
  unfold State.joinOpeningStep
  generalize s.advanceBuild = s
  dsimp only
  split
  · exact refl s
  · split
    · split
      · next placed =>
        exact (((placeFirstFit s _ placed).trans (count _ _ _ _)).trans (putEngine _ _)).trans (advanceBuild _)
      · exact ((count s _ _ _).trans (putBuild _ _)).trans (advanceBuild _)
    · exact refl s

theorem pollQueueTakeStep : s.LawKept s.pollQueueTakeStep := by
  refine fromAdvanced s ?_
  unfold State.pollQueueTakeStep
  generalize s.advanceBuild = s
  dsimp only
  split
  · exact refl s
  · split
    · next head =>
      refine LawKept.trans ?_ (advanceBuild _)
      split
      · next placed => exact ((takePolled head).trans (placeFirstFit _ _ placed)).trans (count _ _ _ _)
      · exact ((takenAgain head).trans (count _ _ _ _)).trans (putBuild _ _)
    · exact refl s

theorem sweepStep : s.LawKept s.sweepStep := by
  refine fromAdvanced s ?_
  unfold State.sweepStep
  generalize s.advanceBuild = s
  dsimp only
  split
  · exact refl s
  · next b _ =>
    split
    · refine LawKept.trans ?_ (advanceBuild _)
      refine (putSweepPointer s b.channel (nextStation (s.sweepPointer b.channel))).trans ?_
      split
      · split
        · next placed => exact (placeFirstFit _ _ placed).trans (count _ _ _ _)
        · exact (count _ _ _ _).trans (putBuild _ _)
      · exact putBuild _ _
    · exact refl s

/-! ## Stages 2 to 4 (chapter 4) -/

theorem requestOpeningStep : s.LawKept s.requestOpeningStep := by
  refine fromAdvanced s ?_
  unfold State.requestOpeningStep
  generalize s.advanceBuild = s
  dsimp only
  split
  · exact refl s
  · split
    · refine LawKept.trans ?_ (advanceBuild _)
      split
      · next placed => exact placeFirstFit s _ placed
      · exact putBuild s _
    · exact refl s

theorem visit {f : FlowNo} (among : f ∈ s.active b.channel b.level) : s.LawKept (s.visit b f) := by
  have skipped : s.LawKept (s.putFlow f (s.visitedFlow b f)) :=
    putFlow (bounded_visitedFlow b) fun _ => alike_visitedFlow s b f
  unfold State.visit
  dsimp only
  split
  · obtain refused | ⟨o, spans, -, -, here⟩ := placeFirstFit_cases s { visitCounted b with roundPlaced := true }
      (s.visitTurn b f) (s.visitElement b f)
    · rw [refused]
      exact (skipped.trans (putBuild _ _)).trans (moveToTail fun _ => among)
    · rw [here]
      have bounded := bounded_servedFlow (s := s) (f := f) b
      have served := visited_servedFlow s b f
      generalize s.servedFlow b f = x at *
      exact (place s _ _ _).trans (visited bounded served fun _ => among)
  · have bounded := bounded_visitedFlow (s := s) (f := f) b
    have visits := visited_visitedFlow s b f
    generalize s.visitedFlow b f = x at *
    exact (putBuild s (visitCounted b)).trans
      (visited (s := s.putBuild (visitCounted b)) bounded visits fun _ => among)

theorem flowVisitStep : s.LawKept s.flowVisitStep := by
  refine fromAdvanced s ?_
  unfold State.flowVisitStep
  generalize s.advanceBuild = s
  dsimp only
  split
  · exact refl s
  · split
    · next head => exact (visit s _ (by rw [head]; exact List.mem_cons_self)).trans (advanceBuild _)
    · exact refl s

theorem closingStep : s.LawKept s.closingStep := by
  refine fromAdvanced s ?_
  unfold State.closingStep
  generalize s.advanceBuild = s
  dsimp only
  split
  · exact refl s
  · split
    · exact ((putBuildHalf s _ _).trans (putBuild _ _)).trans (advanceBuild _)
    · exact refl s

theorem appendHold (c : ChanNo) (f : FlowNo) : s.LawKept (s.appendHold c f) :=
  (putBuildHalf s c _).trans (putFlow id fun _ => ⟨rfl, rfl, rfl, rfl, .rfl, fun _ => rfl⟩)

theorem holdAppendStep : s.LawKept s.holdAppendStep := by
  refine fromAdvanced s ?_
  unfold State.holdAppendStep
  generalize s.advanceBuild = s
  dsimp only
  split
  · exact refl s
  · split
    · split
      · exact ((appendHold s _ _).trans (putBuild _ _)).trans (advanceBuild _)
      · exact refl s
    · exact refl s

end LawKept

end State

end Sys2Proof.Machine
end

section
/-! SUPPORT. What a channel start, the writes of the tables, COUNTERS and CLEAR keep, and what holds of a part that has been reset
(R10, R109, R160, R164, R168, R169). -/

namespace Sys2Proof.Machine

/-! ## A table whose records are all changed (R109) -/

/-- Every record of a table is changed by `g`, which leaves the reset record alone. -/
theorem Table.get_changed {α : Type} [DecidableEq α] {d : α} {g : α → α} (still : g d = d) (n : Nat) : ∀ {t : Table α},
    t.Pairwise (fun a b => a.1 < b.1) →
      Table.get d ((t.map fun e => (e.1, g e.2)).filter fun e => e.2 != d) n = g (Table.get d t n)
  | [], _ => still.symm
  | e :: r, rising => by
    obtain ⟨first, later⟩ := List.pairwise_cons.1 rising
    have ih := Table.get_changed still n later
    rw [List.map_cons, Table.get_cons]
    by_cases blank : g e.2 = d
    · rw [List.filter_cons_of_neg (by simp [blank]), ih]
      split
      · next here =>
        have absent : ∀ x ∈ r, x.1 ≠ n := fun x among => (here ▸ first x among).ne'
        rw [Table.get_of_absent d r n absent, still, blank]
      · rfl
    · rw [List.filter_cons_of_pos (by simp [blank]), Table.get_cons, ih]
      split <;> rfl

theorem Table.canonical_changed {α : Type} [DecidableEq α] {d : α} {t : Table α} (g : α → α) (h : Table.Canonical d t) :
    Table.Canonical d ((t.map fun e => (e.1, g e.2)).filter fun e => e.2 != d) := by
  have rising : (t.map fun e => (e.1, g e.2)).Pairwise fun a b => a.1 < b.1 := List.pairwise_map.2 h.1
  refine ⟨rising.filter _, fun e among => ?_⟩
  simpa using (List.mem_filter.1 among).2

/-! ## The fields of a flow that WRITE and FILL reach (R45, R46) -/

theorem Flow.bounded_setFlowField {x : Flow} (v : Nat × Nat) (h : x.Bounded) : (setFlowField x v).Bounded := by
  obtain ⟨backlog, credit, rest⟩ := h
  unfold setFlowField
  split
  case h_3 =>
    refine ⟨backlog, fun k clamped => ?_, rest⟩
    obtain ⟨j, -, rfl⟩ := Option.map_eq_some_iff.1 clamped
    exact Nat.min_le_left _ _
  all_goals exact ⟨backlog, credit, rest⟩

theorem Flow.alike_setFlowField {x : Flow} {v : Nat × Nat} (mayChange : heldFlowField v.1 = true → x.state ≠ .active) :
    x.Alike (setFlowField x v) := by
  unfold setFlowField
  split
  case h_1 kind =>
    exact ⟨rfl, rfl, rfl, rfl, .rfl, fun active => absurd active (mayChange (by rw [kind]; rfl))⟩
  all_goals exact ⟨rfl, rfl, rfl, rfl, .rfl, fun _ => rfl⟩

theorem Flow.bounded_rateChange {x : Flow} (rate : Nat) (h : x.Bounded) : (x.rateChange rate).Bounded := by
  obtain ⟨backlog, credit, rest⟩ := h
  unfold Flow.rateChange
  split_ifs
  · exact ⟨backlog, credit, rest⟩
  · refine ⟨backlog, fun k given => ?_, rest⟩
    cases given
    exact le_rfl
  · exact ⟨backlog, nofun, rest⟩
  · exact ⟨backlog, credit, rest⟩

theorem Flow.alike_rateChange (x : Flow) (rate : Nat) : x.Alike (x.rateChange rate) := by
  unfold Flow.rateChange
  split_ifs <;> exact ⟨rfl, rfl, rfl, rfl, .rfl, fun _ => rfl⟩

theorem Flow.bounded_writeFlow {x : Flow} (vs : List (Nat × Nat)) (h : x.Bounded) : (writeFlow x vs).Bounded := by
  have fields : (vs.foldl setFlowField x).Bounded := by
    induction vs generalizing x with
    | nil => exact h
    | cons v vs ih => exact ih (bounded_setFlowField v h)
  unfold writeFlow setRate
  split
  · exact bounded_rateChange _ fields
  · exact fields

/-- A write of the fields that the STATE of a flow allows stands to the laws as if there had been none (R45). -/
theorem Flow.alike_writeFlow {x : Flow} {vs : List (Nat × Nat)}
    (mayChange : ∀ v ∈ vs, heldFlowField v.1 = true → x.state ≠ .active) : x.Alike (writeFlow x vs) := by
  have fields : x.Alike (vs.foldl setFlowField x) := by
    induction vs generalizing x with
    | nil => exact .refl x
    | cons v vs ih =>
      have first := alike_setFlowField (mayChange v List.mem_cons_self)
      exact first.trans (ih fun w among held => by rw [first.state]; exact mayChange w (List.mem_cons_of_mem v among) held)
  unfold writeFlow setRate
  split
  · exact fields.trans (alike_rateChange _ _)
  · exact fields

/-- A write of a station record in use stands to the laws as if there had been none (R35). -/
theorem Station.alike_setStationFields {x : Station} (used : x.state ≠ .free) (vs : List (Nat × Nat)) :
    x.Alike (vs.foldl setStationField x) := by
  have fields : ∀ y : Station, (y.state = x.state ∧ y.hardwareId = x.hardwareId ∧ y.channel = x.channel ∧
      y.flowList = x.flowList ∧ y.inPollQueue = x.inPollQueue) → x.Alike (vs.foldl setStationField y) := by
    induction vs with
    | nil =>
      rintro y ⟨state, hardwareId, channel, flowList, inPollQueue⟩
      exact .of_used used state hardwareId channel flowList inPollQueue
    | cons v vs ih =>
      intro y same
      refine ih (setStationField y v) ?_
      unfold setStationField
      split <;> exact same
  exact fields x ⟨rfl, rfl, rfl, rfl, rfl⟩

namespace State

/-! ## What holds of a part that has been reset (R168, R169) -/

theorem countersBounded_reset : reset.CountersBounded := by
  refine ⟨fun c k => ?_, fun k => ?_, Nat.zero_le _⟩
  · simp [counter, reset]
  · simp [deviceCounter, reset]

theorem collectionsBounded_reset : reset.CollectionsBounded := by
  refine ⟨Nat.zero_le _, Nat.zero_le _, Nat.zero_le _, fun c => ?_, fun k p raised => ?_⟩
  · simp [pollQueue, reset]
  · simp [notice, reset] at raised

theorem tablesInForm_reset : reset.TablesInForm := ⟨Table.canonical_nil _, Table.canonical_nil _⟩

theorem calendar_reset (c : ChanNo) : reset.calendar c = ⟨[], []⟩ := by simp [calendar, reset]

theorem flowsBounded_reset : reset.FlowsBounded := by
  refine ⟨fun f => ⟨Nat.zero_le _, nofun, Nat.zero_le _, Nat.zero_le _⟩, fun c => ?_⟩
  rw [calendar_reset]
  exact Nat.zero_le _

theorem recordsLawful_reset : reset.RecordsLawful := by
  have active (c : ChanNo) (l : Level) : reset.active c l = [] := by simp [State.active, reset]
  have queue (c : ChanNo) : reset.pollQueue c = [] := by simp [pollQueue, reset]
  have free (n : StationNo) : (reset.station n).state = .free := rfl
  have numbers : reset.NumbersLawful := by
    unfold NumbersLawful
    simp only [free, ne_eq, not_true_eq_false, false_implies, implies_true, true_and, iff_true]
    rw [show reset.freeList = List.finRange 8192 by simp only [reset]]
    exact ⟨List.nodup_finRange 8192, List.mem_finRange, fun _ _ => rfl, List.nodup_nil, fun _ _ => ⟨nofun, nofun⟩⟩
  refine ⟨numbers,
    ⟨fun _ => ⟨List.nodup_nil, Nat.zero_le _⟩, fun _ _ => ⟨nofun, nofun⟩, fun _ => ⟨fun _ => rfl, fun _ => rfl⟩⟩,
    ⟨fun c => queue c ▸ List.nodup_nil, fun c n => ?_, nofun⟩,
    ⟨fun f => ⟨nofun, nofun⟩, fun c l => active c l ▸ List.nodup_nil, fun c l f => ?_⟩,
    ⟨fun c => ?_, fun c f => ?_, fun f => ⟨nofun, ?_⟩⟩⟩
  · rw [queue]
    exact ⟨nofun, nofun⟩
  · rw [active]
    exact ⟨nofun, nofun⟩
  · rw [calendar_reset]
    exact List.nodup_nil
  · rw [calendar_reset]
    exact nofun
  · rintro ⟨c, among⟩
    rw [calendar_reset] at among
    cases among

/-! ## A channel start (R10, R85, R96, R109, R123) -/

theorem capMisses_reset (c : ChanNo) (limit : Nat) : capMisses c limit Station.reset = Station.reset := by
  unfold capMisses
  split
  · next capped =>
    obtain rfl : limit = 0 := Nat.le_zero.1 capped.2
    rfl
  · rfl

namespace LawKept

theorem capMissCounts (s : State) (c : ChanNo) (limit : Nat) : s.LawKept (s.capMissCounts c limit) := by
  refine ⟨⟨⟨id, id, fun form => ⟨Table.canonical_changed _ form.1, form.2⟩, id⟩,
    ⟨rfl, rfl, rfl, rfl, .inl rfl⟩⟩, fun form law => ?_⟩
  have station (n : StationNo) : (s.capMissCounts c limit).station n = capMisses c limit (s.station n) :=
    Table.get_changed (capMisses_reset c limit) n.val form.1.1
  refine recordsLawful_alike (s := s) (fun n => ?_) (fun _ => .refl _) rfl rfl (fun _ _ => rfl) (fun _ => rfl)
    (fun _ => rfl) law
  rw [station]
  by_cases free : (s.station n).state = .free
  · rw [law.numbers.blank free, capMisses_reset]
    exact .refl _
  · unfold capMisses
    split
    · exact .of_used free rfl rfl rfl rfl rfl
    · exact .refl _

theorem startChannel (s : State) (c : ChanNo) (epoch : RefCount) (first : Beat) :
    s.LawKept (s.startChannel c epoch first) := by
  unfold State.startChannel
  dsimp only
  refine LawKept.trans ?_ (queueBuild _ _)
  refine LawKept.trans ?_ (retimeCalendar _ c)
  exact (((putContext s c _).trans (capMissCounts _ c _)).trans (putContention _ c _)).trans (putPlanStore _ c _)

theorem channelStartOp (s : State) (i : Nat) (epoch : RefCount) (first : Beat) :
    s.LawKept (s.channelStartOp i epoch first).state := by
  unfold State.channelStartOp
  split
  · exact refl s
  · dsimp only
    split_ifs
    · exact refl s
    · exact refl s
    · exact refl s
    · exact startChannel s _ epoch first

/-! ## The writes of the tables (R160, R161) -/

theorem setNoticeField (s : State) (v : Nat × Nat) : s.LawKept (s.setNoticeField v) := by
  unfold State.setNoticeField
  split
  · exact putNoticeEnable s _ _
  · exact refl s

theorem writeRecord {s : State} {k : TableId} {i : Nat} {vs : List (Nat × Nat)} (allowed : s.writeAllows k i vs = true) :
    s.LawKept (s.writeRecord k i vs) := by
  have mayChange : vs = [] ∨ s.stateAllows k i vs = true := by
    rw [writeAllows, Bool.or_eq_true, List.isEmpty_iff] at allowed
    exact allowed
  cases k with
  | station =>
    refine putStation fun _ => ?_
    obtain rfl | used := mayChange
    · exact .refl _
    · exact Station.alike_setStationFields (by simpa [stateAllows] using used) vs
  | flow =>
    refine putFlow (Flow.bounded_writeFlow vs) fun _ => Flow.alike_writeFlow fun v among held => ?_
    obtain rfl | aside := mayChange
    · cases among
    · simp only [stateAllows, Bool.or_eq_true, Bool.not_eq_true', List.any_eq_false, bne_iff_ne] at aside
      exact aside.resolve_left fun none' => none' v among held
  | policyA | policyB => exact putPolicyClass s _ _ _
  | channelPending => exact putContext s _ _
  | device => exact foldl setNoticeField vs s
  | channelActive | identity | stray => exact refl s

theorem writeOp (s : State) (k : TableId) (i : Nat) (vs : List (Nat × Nat)) : s.LawKept (s.writeOp k i vs).state := by
  unfold State.writeOp
  split
  · next passed =>
    refine writeRecord ?_
    unfold writeCheck at passed
    split_ifs at passed with _ _ _ _ refused
    simpa using refused
  · exact refl s

/-! ## COUNTERS and CLEAR (R164, R169) -/

theorem countersOp (s : State) (set clear : Nat) : s.LawKept (s.countersOp set clear).state := by
  unfold State.countersOp
  split
  · exact refl s
  split
  · exact refl s
  · split
    · next c _ =>
      dsimp only
      split
      · refine ⟨⟨⟨fun h => ⟨fun d k => ?_, h.2⟩, id, id, id⟩, ⟨rfl, rfl, rfl, rfl, .inl rfl⟩⟩, fun _ => id⟩
        simp only [counter, vget_vput]
        split
        · simp
        · exact h.1 d k
      · exact refl s
    · dsimp only
      split
      · refine ⟨⟨⟨fun h => ⟨h.1, fun k => ?_, h.2.2⟩, id, id, id⟩, ⟨rfl, rfl, rfl, rfl, .inl rfl⟩⟩, fun _ => id⟩
        simp [deviceCounter]
      · exact refl s

theorem clearOp (s : State) : s.LawKept s.clearOp.state := by
  have records : s.cleared.records = reset.records := by simp only [State.records, cleared]
  exact ⟨⟨⟨fun _ => countersBounded_reset, fun _ => collectionsBounded_reset, fun _ => tablesInForm_reset,
    fun _ => flowsBounded_reset⟩, ⟨rfl, rfl, rfl, rfl, .inr rfl⟩⟩,
    fun _ _ => recordsLawful_congr records recordsLawful_reset⟩

end LawKept

end State

end Sys2Proof.Machine
end

section
/-! SUPPORT. What every event keeps: the operations of the Management Unit, the queues around them, and each command (R154
to R156, R168). -/

namespace Sys2Proof.Machine

namespace State

/-- The bounds and the laws of the records that hold of `s` hold of `t`. -/
structure RulesKept (s t : State) : Prop extends BoundsKept s t where
  records : s.TablesInForm → s.RecordsLawful → t.RecordsLawful

/-- An event keeps the bounds, the laws of the records and the room for responses. -/
structure EventKept (s t : State) : Prop extends RulesKept s t where
  room : s.QueuesHaveRoom → t.QueuesHaveRoom

/-! ## Room for responses (R154, R155) -/

/-- The responses that may still join the queue while INBOUND HOLD is yes: that of the execution under way, and that of the one
frame whose transfer had begun (R155, assumption 9). -/
def responsesToCome (s : State) : Nat := (if s.execution.isSome then 1 else 0) + (if s.heldArrival then 0 else 1)

theorem queuesHaveRoom_iff (s : State) :
    s.QueuesHaveRoom ↔ s.controlQueue.length ≤ 16 ∧
      (s.inboundHold = false → s.responseQueue.length < 30 ∧ s.heldArrival = false) ∧
      (s.inboundHold = true → 30 ≤ s.responseQueue.length ∧ s.responseQueue.length + s.responsesToCome ≤ 32) := by
  unfold QueuesHaveRoom responsesToCome
  simp only [Nat.add_assoc]

theorem responsesToCome_le (s : State) : s.responsesToCome ≤ 2 := by
  unfold responsesToCome
  split <;> split <;> omega

section Room

variable {s t : State}

theorem QueuesHaveRoom.responses (room : s.QueuesHaveRoom) : s.responseQueue.length ≤ 32 := by
  obtain ⟨-, free, held⟩ := (queuesHaveRoom_iff s).1 room
  cases hold : s.inboundHold with
  | false => have := free hold; omega
  | true => have := held hold; omega

/-- What leaves the response queue and INBOUND HOLD alone keeps the room, if it brings no response to come. -/
theorem QueuesHaveRoom.still (room : s.QueuesHaveRoom) (control : t.controlQueue.length ≤ 16)
    (responses : t.responseQueue = s.responseQueue) (hold : t.inboundHold = s.inboundHold)
    (held : s.inboundHold = true → t.responsesToCome ≤ s.responsesToCome)
    (free : s.inboundHold = false → t.heldArrival = false) : t.QueuesHaveRoom := by
  obtain ⟨-, whileFree, whileHeld⟩ := (queuesHaveRoom_iff s).1 room
  rw [queuesHaveRoom_iff, responses, hold]
  refine ⟨control, fun no => ⟨(whileFree no).1, free no⟩, fun yes => ?_⟩
  have := whileHeld yes
  have := held yes
  omega

/-- A response that joins the queue finds room, if while INBOUND HOLD is yes it is one of those to come (R155). -/
theorem QueuesHaveRoom.answered (room : s.QueuesHaveRoom) (control : t.controlQueue.length ≤ 16) {r : Response}
    (responses : t.responseQueue = s.responseQueue ++ [r])
    (hold : t.inboundHold = (s.inboundHold || decide (30 ≤ s.responseQueue.length + 1)))
    (held : s.inboundHold = true → t.responsesToCome < s.responsesToCome)
    (free : s.inboundHold = false → t.heldArrival = false) : t.QueuesHaveRoom := by
  obtain ⟨-, whileFree, whileHeld⟩ := (queuesHaveRoom_iff s).1 room
  have most := responsesToCome_le t
  rw [queuesHaveRoom_iff, responses, hold, List.length_append, List.length_singleton]
  cases was : s.inboundHold with
  | true =>
    refine ⟨control, nofun, fun _ => ?_⟩
    have := whileHeld was
    have := held was
    omega
  | false =>
    have := whileFree was
    rw [Bool.false_or, decide_eq_false_iff_not, decide_eq_true_eq]
    exact ⟨control, fun _ => ⟨by omega, free was⟩, fun _ => by omega⟩

theorem UnitKept.room (unit : s.UnitKept t) (room : s.QueuesHaveRoom) : t.QueuesHaveRoom := by
  obtain ⟨control, hold, heldArrival, responses, execution⟩ := unit
  have ⟨queue, free, _⟩ := (queuesHaveRoom_iff s).1 room
  refine room.still (control ▸ queue) responses hold (fun _ => ?_) fun no => heldArrival.trans (free no).2
  unfold responsesToCome
  rw [heldArrival]
  obtain same | ended := execution
  · rw [same]
  · rw [ended]
    exact Nat.add_le_add_right (Nat.zero_le _) _

end Room

theorem LawKept.toRulesKept {s t : State} (h : s.LawKept t) : s.RulesKept t := ⟨h.toBoundsKept, h.records⟩

theorem LawKept.toEventKept {s t : State} (h : s.LawKept t) : s.EventKept t := ⟨h.toRulesKept, h.toUnitKept.room⟩

theorem RulesKept.trans {s t u : State} (h : s.RulesKept t) (k : t.RulesKept u) : s.RulesKept u :=
  ⟨h.toBoundsKept.trans k.toBoundsKept, fun form law => k.records (h.tables form) (h.records form law)⟩

namespace EventKept

theorem refl (s : State) : s.EventKept s := (LawKept.refl s).toEventKept

theorem trans {s t u : State} (h : s.EventKept t) (k : t.EventKept u) : s.EventKept u :=
  ⟨h.toRulesKept.trans k.toRulesKept, k.room ∘ h.room⟩

end EventKept

/-! ## The queues of the Management Unit (R154, R155) -/

namespace RulesKept

theorem putControlQueue (s : State) (q : List RawFrame) : s.RulesKept (s.putControlQueue q) :=
  ⟨⟨id, id, id, id⟩, fun _ => id⟩

theorem putExecution (s : State) (e : Option Execution) : s.RulesKept (s.putExecution e) :=
  ⟨⟨id, id, id, id⟩, fun _ => id⟩

theorem pushResponse (s : State) (r : Response) : s.RulesKept (s.pushResponse r) := ⟨⟨id, id, id, id⟩, fun _ => id⟩

theorem popResponse (s : State) : s.RulesKept s.popResponse := ⟨⟨id, id, id, id⟩, fun _ => id⟩

theorem refuseBusy (s : State) (f : RawFrame) : s.RulesKept (s.refuseBusy f) :=
  (pushResponse s _).trans (LawKept.countDevice _ _ _).toRulesKept

theorem queueFrame (s : State) (f : RawFrame) : s.RulesKept (s.queueFrame f) := by
  obtain ⟨-, e⟩ | ⟨-, e⟩ := queueFrame_cases s f <;> rw [e]
  · exact putControlQueue s _
  · exact refuseBusy s f

theorem finish (s : State) (tag : BitVec 16) (operation : Byte) (code : Code) (results : List Byte) :
    s.RulesKept (s.finish tag operation code results) := by
  obtain ⟨-, e⟩ | ⟨-, e⟩ := finish_cases s tag operation code results <;> rw [e]
  · exact pushResponse s _
  · exact (pushResponse s _).trans (LawKept.countDevice _ _ _).toRulesKept

theorem beginFrame (s : State) (q : List RawFrame) : s.RulesKept (s.beginFrame q) :=
  (putControlQueue s q).trans (LawKept.countDevice _ _ _).toRulesKept

end RulesKept

/-- What the end of an execution leaves of the Management Unit but the response queue (R155, R156). -/
theorem finish_unit (s : State) (tag : BitVec 16) (operation : Byte) (code : Code) (results : List Byte) :
    (s.finish tag operation code results).controlQueue = s.controlQueue ∧
      (s.finish tag operation code results).inboundHold = (s.inboundHold || decide (30 ≤ s.responseQueue.length + 1)) ∧
      (s.finish tag operation code results).heldArrival = s.heldArrival ∧
      (s.finish tag operation code results).execution = s.execution := by
  obtain ⟨-, e⟩ | ⟨-, e⟩ := finish_cases s tag operation code results <;> rw [e] <;> exact ⟨rfl, rfl, rfl, rfl⟩

/-- A control frame that arrives is queued, or one of the responses to come (R154, R155). -/
theorem EventKept.takeControlFrame (s : State) (f : RawFrame) : s.EventKept (s.takeControlFrame f) := by
  have marked (t : State) : t.RulesKept { t with heldArrival := true } := ⟨⟨id, id, id, id⟩, fun _ => id⟩
  have short {q : List RawFrame} (room : q.length < 16) : (q ++ [f]).length ≤ 16 := by
    rw [List.length_append]
    exact room
  unfold State.takeControlFrame
  split
  · next hold =>
    split
    · exact .refl s
    · next first =>
      have first := Bool.eq_false_of_not_eq_true first
      refine ⟨(RulesKept.queueFrame s f).trans (marked _), fun room => ?_⟩
      obtain ⟨space, e⟩ | ⟨-, e⟩ := queueFrame_cases s f <;> rw [e]
      · refine room.still (short space) rfl rfl (fun _ => ?_) fun no => absurd hold (by rw [no]; nofun)
        exact Nat.add_le_add_left (Nat.zero_le _) _
      · refine room.answered room.1 rfl rfl (fun _ => ?_) fun no => absurd hold (by rw [no]; nofun)
        refine Nat.add_lt_add_left ?_ _
        rw [first]
        exact Nat.zero_lt_one
  · next free =>
    refine ⟨RulesKept.queueFrame s f, fun room => ?_⟩
    obtain ⟨space, e⟩ | ⟨-, e⟩ := queueFrame_cases s f <;> rw [e]
    · exact room.still (short space) rfl rfl (fun yes => absurd yes free) fun no => (room.2.1 no).2
    · exact room.answered room.1 rfl rfl (fun yes => absurd yes free) fun no => (room.2.1 no).2

/-- A response that leaves the queue leaves more room (R155). -/
theorem EventKept.popResponse {s : State} {r : Response} {q : List Response} (head : s.responseQueue = r :: q) :
    s.EventKept s.popResponse := by
  refine ⟨.popResponse s, fun room => ?_⟩
  obtain ⟨control, free, held⟩ := (queuesHaveRoom_iff s).1 room
  have shorter : s.responseQueue.tail.length + 1 = s.responseQueue.length := by rw [head]; rfl
  rw [queuesHaveRoom_iff]
  cases was : s.inboundHold with
  | false =>
    have := free was
    simp only [State.popResponse, was, Bool.false_and, Bool.and_false]
    exact ⟨control, fun _ => ⟨by omega, trivial⟩, nofun⟩
  | true =>
    have room := held was
    unfold responsesToCome at room ⊢
    simp only [State.popResponse, was, Bool.true_and]
    by_cases still : 30 ≤ s.responseQueue.tail.length
    · simp only [Config.inboundHoldAt, still, decide_true, Bool.and_true]
      exact ⟨control, nofun, fun _ => ⟨trivial, by omega⟩⟩
    · simp only [Config.inboundHoldAt, still, decide_false, Bool.and_false]
      exact ⟨control, fun _ => ⟨by omega, trivial⟩, nofun⟩

theorem EventKept.responseDepartureStep (s : State) : s.EventKept s.responseDepartureStep := by
  unfold State.responseDepartureStep
  split
  · split
    · next head => exact (popResponse head).trans (LawKept.putSystemLink _ _).toEventKept
    · exact .refl s
  · exact .refl s

/-! ## Executions (R156) -/

/-- An operation taken keeps the laws, whether it ends or goes on. -/
def Taken.Kept (s : State) : Taken → Prop
  | .ends a => s.LawKept a.state
  | .goesOn _ => True

theorem operate_kept (s : State) (tag : BitVec 16) (o : Op) : Taken.Kept s (s.operate tag o) := by
  cases o with
  | channelStart c e b => exact LawKept.channelStartOp s c e b
  | channelStop c m => exact LawKept.channelStopOp s c m
  | profileCommit c => exact LawKept.profileCommitOp s c
  | stationAdmit n => exact LawKept.stationAdmitOp s n
  | stationMove n c => exact LawKept.stationMoveOp s n c
  | stationRelease n => exact LawKept.stationReleaseOp s n
  | flowBind f n => exact LawKept.flowBindOp s f n
  | flowActivate f => exact LawKept.flowActivateOp s f
  | flowHold f => exact LawKept.flowHoldOp s f
  | flowUnbind f => exact LawKept.flowUnbindOp s f
  | planWrite c es => exact LawKept.planWriteOp s c es
  | planReady c => exact LawKept.planReadyOp s c
  | planDiscard c => exact LawKept.planDiscardOp s c
  | read k i n =>
    show Taken.Kept s (s.readOp tag k i n)
    unfold readOp
    split
    · split
      · exact LawKept.refl s
      · trivial
    · exact LawKept.refl s
  | readIdentity h n =>
    show s.LawKept (s.readIdentityOp h n).state
    unfold readIdentityOp
    split <;> exact LawKept.refl s
  | write k i vs => exact LawKept.writeOp s k i vs
  | fill k i n vs =>
    show Taken.Kept s (s.fillOp tag k i n vs)
    unfold fillOp
    split
    · trivial
    · exact LawKept.refl s
  | noTable _ => exact LawKept.refl s
  | counters k x => exact LawKept.countersOp s k x
  | clear => exact LawKept.clearOp s

section Execution

variable {s : State} {f : RawFrame} {q : List RawFrame}

/-- The execution of the head frame ends: its response finds room, as INBOUND HOLD was no when it began (R155, R156). -/
theorem EventKept.finishFrame (may : s.executionMayBegin = true) (head : s.controlQueue = f :: q) {u : State}
    (kept : (s.beginFrame q).LawKept u) (tag : BitVec 16) (operation : Byte) (code : Code) (results : List Byte) :
    s.EventKept (u.finish tag operation code results) := by
  refine ⟨((RulesKept.beginFrame s q).trans kept.toRulesKept).trans (.finish u tag operation code results), fun room => ?_⟩
  obtain ⟨control', hold', held', -⟩ := finish_unit u tag operation code results
  obtain ⟨control, hold, held, responses, -⟩ := kept.toUnitKept
  simp only [executionMayBegin, Bool.and_eq_true, Bool.not_eq_true'] at may
  have free := may.1.2
  have arrival := (room.2.1 free).2
  have short := room.1
  rw [head, List.length_cons] at short
  refine room.answered ?_ (by rw [responseQueue_finish, responses]; rfl) (by rw [hold', hold, responses]; rfl)
    (fun yes => absurd yes (by rw [free]; nofun)) fun _ => ?_
  · rw [control', control]
    exact Nat.le_of_succ_le short
  · rw [held', held]
    exact arrival

theorem EventKept.executeFrame (may : s.executionMayBegin = true) (head : s.controlQueue = f :: q) :
    s.EventKept (s.executeFrame f q) := by
  unfold State.executeFrame
  split
  · exact finishFrame may head (.refl _) _ _ _ _
  · exact finishFrame may head (.refl _) _ _ _ _
  · next o _ =>
    have kept := operate_kept (s.beginFrame q) f.tag o
    split
    · next ends =>
      rw [ends] at kept
      exact finishFrame may head kept _ _ _ _
    · refine ⟨(RulesKept.beginFrame s q).trans (.putExecution _ _), fun room => ?_⟩
      simp only [executionMayBegin, Bool.and_eq_true, Bool.not_eq_true'] at may
      have free := may.1.2
      have short := room.1
      rw [head, List.length_cons] at short
      exact room.still (Nat.le_of_succ_le short) rfl rfl (fun yes => absurd yes (by rw [free]; nofun))
        fun no => (room.2.1 no).2

theorem EventKept.executeRow (s : State) (row : Instr) : s.EventKept (s.executeRow row) := by
  obtain e | ⟨f, q, may, head, -, e⟩ := executeRow_cases s row <;> rw [e]
  · exact .refl s
  · exact executeFrame may head

theorem EventKept.executeHead (s : State) : s.EventKept s.executeHead := by
  unfold State.executeHead
  split
  · next may =>
    split
    · next head => exact executeFrame may head
    · exact .refl s
  · exact .refl s

/-- An execution under way ends: its response is one of those to come. -/
theorem EventKept.finishJob {u : State} (running : s.execution.isSome = true) (kept : s.LawKept u) (tag : BitVec 16)
    (operation : Byte) (code : Code) (results : List Byte) :
    s.EventKept ((u.putExecution none).finish tag operation code results) := by
  refine ⟨(kept.toRulesKept.trans (.putExecution u none)).trans (.finish _ tag operation code results), fun room => ?_⟩
  obtain ⟨control', hold', held', execution'⟩ := finish_unit (u.putExecution none) tag operation code results
  obtain ⟨control, hold, held, responses, -⟩ := kept.toUnitKept
  refine room.answered ?_ (by rw [responseQueue_finish]; exact congrArg (· ++ _) responses) ?_ (fun _ => ?_) fun no => ?_
  · rw [control']
    exact control ▸ room.1
  · rw [hold', putExecution_inboundHold, putExecution_responseQueue, hold, responses]
  · unfold responsesToCome
    rw [execution', held', running, putExecution_heldArrival, held, putExecution_execution]
    simp
  · rw [held', putExecution_heldArrival, held]
    exact (room.2.1 no).2

/-- An execution under way goes on. -/
theorem EventKept.goOn {u : State} (running : s.execution.isSome = true) (kept : s.LawKept u) (e : Execution) :
    s.EventKept (u.putExecution (some e)) := by
  refine ⟨kept.toRulesKept.trans (.putExecution u _), fun room => ?_⟩
  obtain ⟨control, hold, held, responses, -⟩ := kept.toUnitKept
  refine room.still (control ▸ room.1) responses hold (fun _ => ?_) fun no => held.trans (room.2.1 no).2
  unfold responsesToCome
  rw [running, putExecution_heldArrival, held]
  exact le_rfl

theorem EventKept.readRecordStep (s : State) : s.EventKept s.readRecordStep := by
  unfold State.readRecordStep
  split
  · next job =>
    have running : s.execution.isSome = true := by rw [job]; rfl
    unfold readNext
    split
    · exact finishJob running (.refl s) _ _ _ _
    · exact goOn running (.refl s) _
  · exact .refl s
  · exact .refl s

theorem EventKept.fillRecordStep (s : State) : s.EventKept s.fillRecordStep := by
  unfold State.fillRecordStep
  split
  · next j job =>
    have running : s.execution.isSome = true := by rw [job]; rfl
    have written : s.LawKept (if s.stateAllows j.table j.next j.writes then s.writeRecord j.table j.next j.writes else s) := by
      split
      · next allowed => exact .writeRecord (by rw [writeAllows, allowed, Bool.or_true])
      · exact .refl s
    unfold fillNext
    dsimp only
    split
    · exact finishJob running written _ _ _ _
    · exact goOn running written _
  · exact .refl s
  · exact .refl s

end Execution

/-! ## Settling and the commands (assumption 2) -/

theorem EventKept.act (s : State) (d : Due) : s.EventKept (s.act d) := by
  cases d with
  | buildBegin => exact (LawKept.takeRequest s).toEventKept
  | planDeparture => exact (LawKept.planDepartureStep s).toEventKept
  | adjustDeparture => exact (LawKept.adjustDepartureStep s).toEventKept
  | responseDeparture => exact responseDepartureStep s
  | noticeDeparture => exact (LawKept.noticeDepartureStep s).toEventKept
  | forwardDeparture => exact (LawKept.forwardDepartureStep s).toEventKept
  | execution => exact executeHead s
  | expiry c => exact (LawKept.expiryStep s c).toEventKept
  | withdrawal c => exact (LawKept.withdrawalStep s c).toEventKept
  | emitTime c => exact (LawKept.emitTimeStep s c).toEventKept

theorem EventKept.settle (s : State) : s.EventKept s.settle :=
  settle_keeps (fun t => s.EventKept t) (fun t d kept => kept.trans (act t d)) (.refl s)

theorem EventKept.settled {s t : State} (h : s.settle.LawKept t) : s.EventKept t := (settle s).trans h.toEventKept

theorem EventKept.afterReset (s : State) (hold : Bool) : s.EventKept (s.afterReset hold) := by
  have records : (s.afterReset hold).records = reset.records := by simp only [State.records, State.afterReset]
  exact ⟨⟨⟨fun _ => countersBounded_reset, fun _ => collectionsBounded_reset, fun _ => tablesInForm_reset,
    fun _ => flowsBounded_reset⟩, fun _ _ => recordsLawful_congr records recordsLawful_reset⟩,
    fun _ => ⟨Nat.zero_le _, fun _ => ⟨Nat.succ_pos _, rfl⟩, nofun⟩⟩

/-- Every command keeps the bounds, the laws of the records and the room for responses. -/
theorem exec_kept {i : Instr} {s t : State} (run : exec i s = .next t) : s.EventKept t := by
  cases i with
  | powerOnReset hold | lineReset hold =>
    cases run
    exact .afterReset s hold
  | emitTime c => cases run; exact (LawKept.emitTimeStep s c).toEventKept
  | withdrawalDeadline c => cases run; exact (LawKept.withdrawalStep s c).toEventKept
  | expiry c => cases run; exact (LawKept.expiryStep s c).toEventKept
  | buildBegin => cases run; exact (LawKept.takeRequest s).toEventKept
  | planDeparture => cases run; exact (LawKept.planDepartureStep s).toEventKept
  | adjustFrameDeparture => cases run; exact (LawKept.adjustDepartureStep s).toEventKept
  | responseDeparture => cases run; exact .responseDepartureStep s
  | noticeDeparture => cases run; exact (LawKept.noticeDepartureStep s).toEventKept
  | forwardDeparture => cases run; exact (LawKept.forwardDepartureStep s).toEventKept
  | referenceCount r => cases run; exact .settled (.takeReference _ r)
  | periodicTiming => cases run; exact .settled (.periodicTimingStep _)
  | periodicWalk => cases run; exact .settled (.periodicWalkStep _)
  | extraTurn => cases run; exact .settled (.extraTurnStep _)
  | joinOpening => cases run; exact .settled (.joinOpeningStep _)
  | pollQueueTake => cases run; exact .settled (.pollQueueTakeStep _)
  | sweep => cases run; exact .settled (.sweepStep _)
  | requestOpeningPlace => cases run; exact .settled (.requestOpeningStep _)
  | flowVisit => cases run; exact .settled (.flowVisitStep _)
  | closing => cases run; exact .settled (.closingStep _)
  | holdAppend => cases run; exact .settled (.holdAppendStep _)
  | planLinkHold => cases run; exact .settled (.putPlanLinkHold _ true)
  | planLinkRelease => cases run; exact .settled (.putPlanLinkHold _ false)
  | planLinkFrameEnd => cases run; exact .settled (.planLinkEnd _)
  | burstRecord f => cases run; exact .settled (.takeBurstFrame _ f)
  | systemLinkFrameEnd => cases run; exact .settled (.systemLinkEnd _)
  | controlFrame f => cases run; exact (EventKept.settle s).trans (.takeControlFrame _ f)
  | readRecord => cases run; exact (EventKept.settle s).trans (.readRecordStep _)
  | fillRecord => cases run; exact (EventKept.settle s).trans (.fillRecordStep _)
  | unknownOp | channelStart | channelStopOrderly | channelStopAbrupt | profileCommit | stationAdmit | stationMove
  | stationRelease | flowBind | flowActivate | flowHold | flowUnbind | planWrite | planReady | planDiscard | read | write
  | fill | counters | clear =>
    cases run
    exact .executeRow s _

/-- Every step keeps the bounds, the laws of the records and the room for responses. -/
theorem step_kept {s t : State} (run : step s = .next t) : s.EventKept t := by
  cases front : s.pending with
  | nil =>
    rw [step, front] at run
    cases run
    exact .refl s
  | cons c q =>
    have taken : s.LawKept { s with pending := q } :=
      ⟨⟨⟨id, id, id, id⟩, ⟨rfl, rfl, rfl, rfl, .inl rfl⟩⟩, fun _ => id⟩
    rw [step_front front] at run
    exact taken.toEventKept.trans (exec_kept run)

end State

/-- Settles O58, by what every command keeps of the room for responses. -/
theorem everyStepKeepsRoomForResponses : Obligations.EveryStepKeepsRoomForResponses := by
  intro s t room run
  have kept := (State.step_kept run).room room
  exact ⟨kept, kept.responses⟩

/-- Settles O59, by what every command keeps of the bounds and the laws of the records. -/
theorem everyStepKeepsBounds : Obligations.EveryStepKeepsBounds := by
  intro s t run
  obtain ⟨⟨⟨counters, collections, tables, flows⟩, records⟩, -⟩ := State.step_kept run
  exact ⟨counters, collections, tables, flows, records⟩

end Sys2Proof.Machine
end
